-- ==== Sys2Proof/Word.lean ====
section
/-! DEFINITION. The word types of the EK3 and the letters of its three lanes (R12, R13, R18). -/

namespace Sys2Proof

/-- A byte of memory. -/
abbrev Byte := BitVec 8
/-- A 32-bit register or memory word (R13). -/
abbrev Word := BitVec 32
/-- A 64-bit word: a timeline entry (R106), an input word record (R149), a CDSP instruction (R210). -/
abbrev Word64 := BitVec 64

/-- The three lanes of the module (R1, R18); 0 is A, 1 is B, 2 is C. -/
inductive LaneId where
  | a
  | b
  | c
deriving DecidableEq, Repr, Inhabited

end Sys2Proof
end

