-- ==== Sys2Proof/Syntax.lean ====
section
/-! DEFINITION. The commands of the EK3: one constructor for each row of the table of operations and events.
A command names the lane it happens in and carries what comes from outside with it (a written value, a received
transfer or frame, a measured code). What a sequencer of the device supplies itself (a timeline entry's TARGET and
ARG, a descriptor's words) is read from the state by the meaning and is no operand. -/

namespace Sys2Proof

/-- What a core access does (R45, R46). -/
inductive CoreOp where
  | load
  | store
  | fetch
deriving DecidableEq, Repr, Inhabited

/-- The width of a core access in bytes: 8, 16 or 32 bits (R45). -/
inductive Width where
  | w8
  | w16
  | w32
deriving DecidableEq, Repr, Inhabited

/-- A core's access as a crossing carries it (R30 to R32). -/
structure BusAcc where
  core : Fin 2
  op : CoreOp
  w : Width
  addr : Word
  data : Word
deriving DecidableEq, Repr, Inhabited

/-- What the clock monitor saw (R406). -/
inductive ClockLoss where
  | noEdge
  | outsideTol
  | pllUnlock
deriving DecidableEq, Repr, Inhabited

/-- A lane-link transfer as it arrives (R155): two header words, the payload and the two words of the CRC block. -/
structure Xfer where
  hdr0 : Word
  aux0 : Word
  payload : List Word
  crc : Word
  aux1 : Word
deriving DecidableEq, Repr, Inhabited

/-- What the FORM exchange of link training carries (R158). -/
structure TrainInfo where
  letter : LaneId
  stepB1 : Bool
  split : Bool
  /-- the running image digest, eight words as in TLS_IMG_DGSTn -/
  digest : List Word
deriving DecidableEq, Repr, Inhabited

/-- Where a core or bus access to a debug function comes from (R437). -/
inductive DebugKind where
  /-- RISC-V debug module access -/
  | debugModule
  /-- a halt request from the debug port: to core 0, core 1 or the CDSP (2) -/
  | haltRequest (target : Fin 3)
  /-- a resume request to the same -/
  | resumeRequest (target : Fin 3)
  /-- JTAG EXTEST or INTEST -/
  | jtagTest
  /-- JTAG BYPASS, IDCODE or SAMPLE/PRELOAD -/
  | jtagBasic
deriving DecidableEq, Repr, Inhabited

/-- The kind of one move of a parallel CDSP instruction (R212). -/
inductive MoveKind where
  | none
  | ld
  | ldp
  | st
  | stp
  | sta
  | ldc
deriving DecidableEq, Repr, Inhabited

/-- One move of a parallel CDSP instruction: kind, register field, pointer and update code (R201, R212). -/
structure Move where
  kind : MoveKind
  reg : BitVec 4
  ptr : BitVec 3
  upd : BitVec 3
deriving DecidableEq, Repr, Inhabited

/-- The operand fields of a multiplying or accumulator operation, with the instruction's two moves (R210, R211). -/
structure MacArgs where
  mpair : BitVec 2
  mra : BitVec 4
  mrb : BitVec 4
  mrc : BitVec 4
  mrd : BitVec 4
  x : Move
  y : Move
deriving DecidableEq, Repr, Inhabited

/-- The bus a single move uses (R184). -/
inductive Bus where
  | x
  | y
deriving DecidableEq, Repr, Inhabited

/-- A frame as it ends at a star port (R313, R328): the octets from HDR0 on are in `payload` without padding. -/
structure FrameEnd where
  payload : List Byte
  /-- the FCS is right -/
  fcsOk : Bool
  /-- octets from destination address to FCS -/
  octets : Nat
  /-- the link stayed up to the end -/
  linkOk : Bool
deriving DecidableEq, Repr, Inhabited

/-- The addressing modes of CAN frames and messages (R358). -/
inductive CanMode where
  | can11
  | can29
  | fd11
  | fd29
  | iso
deriving DecidableEq, Repr, Inhabited

/-- What arrives: a complete frame or message; on an ISO 11783 channel also the opening of a message of `size` bytes, more than 8,
which comes in several packets, and the end of a connection by the peer (R357). -/
inductive CanPart where
  | whole
  | opens (size : Nat)
  | aborts
deriving DecidableEq, Repr, Inhabited

/-- A complete CAN frame or ISO 11783 message as received (R359), or the opening or end of a transport session; for `iso`, `id`
holds the priority and PGN as in a mapping record, `da` the destination and `sa` the source address. -/
structure CanMsg where
  part : CanPart
  mode : CanMode
  id : BitVec 29
  da : Byte
  sa : Byte
  data : List Byte
deriving DecidableEq, Repr, Inhabited

/-- A crossing's number, and the core access that it carries, if it carries one (R27, R28). -/
structure Crossed where
  id : Byte
  acc : Option BusAcc
deriving DecidableEq, Repr, Inhabited

/-- What a WRITE can meet in the NAND: a block whose program fails (R368), or a die that does not respond (R383). -/
inductive NandTrouble where
  | programFails (blk : Fin 8192)
  | noResponse
deriving DecidableEq, Repr, Inhabited

/-- The issue of a timeline entry: the lane, and whether the entry's target is busy (R110). -/
structure Issue where
  lane : LaneId
  busy : Bool
deriving DecidableEq, Repr, Inhabited

/-- The commands. One constructor per row of the table of operations and events, in the table's order; the docstring of
each names its rule. -/
inductive Instr where
  -- power, reset and bring-up
  /-- AOS power-on (R399). -/
  | aosPowerOn (l : LaneId)
  /-- A supply outside its warning window (R398). -/
  | supplyWarn (l : LaneId) (sup : Fin 5)
  /-- A supply below its reset threshold (R398). -/
  | supplyBelowReset (l : LaneId) (sup : Fin 5)
  /-- x_PG seen (R400). -/
  | pgSeen (l : LaneId)
  /-- x_PG not seen in time (R400). -/
  | pgTmo (l : LaneId)
  /-- x_PG low after release (R400). -/
  | pgFall (l : LaneId)
  /-- x_RST_N low (R401). -/
  | rstNLow (l : LaneId)
  /-- A write to AOS_SWRST (R401). -/
  | aosSwrst (l : LaneId) (val : Word)
  /-- A domain reports ready at bring-up (R403). -/
  | domainReady (l : LaneId) (d : Fin 7)
  /-- A domain attempt fails (R403). -/
  | domainAttemptTimeout (l : LaneId) (d : Fin 7)
  /-- The crystal is ready, with the frequency measured in kHz (R404). -/
  | crystalReady (l : LaneId) (khz : BitVec 16)
  /-- The crystal is not ready in time (R405). -/
  | crystalTimeout (l : LaneId)
  /-- The PLL locks (R403). -/
  | pllLocked (l : LaneId)
  /-- A PLL attempt fails (R403). -/
  | pllAttemptTimeout (l : LaneId)
  /-- The Boot ROM check ends (R41). -/
  | bootRomDigestCheck (l : LaneId) (ok : Bool)
  /-- The clock monitor acts (R406). -/
  | clockLost (l : LaneId) (why : ClockLoss)
  /-- A retained domain is raised by an access and reports ready (R407). -/
  | domainWakeOnAccess (l : LaneId) (d : Fin 7)
  /-- A waking domain is not ready in 500 us (R407). -/
  | domainWakeTimeout (l : LaneId) (d : Fin 7)
  /-- A write to AOS_DOM_REQ (R407, R413). -/
  | aosDomReq (l : LaneId) (val : Word)
  -- crossings and core accesses
  /-- A crossing transfer completes at its destination, or fails its parity check, with the core access it carries, if it carries
  one (R28, R32). -/
  | crossingTransfer (l : LaneId) (x : Crossed) (parityOk : Bool)
  /-- A crossing is abandoned, with the core access it carries, if it carries one (R31). -/
  | xingTimeout (l : LaneId) (x : Crossed)
  /-- A write to CLK_XING_CLR (R34). -/
  | clkXingClr (l : LaneId) (val : Word)
  /-- A claim-line isolator loses its transmitting lane (R25). -/
  | claimIsoLost (l : LaneId) (peer : LaneId) (g : Fin 4)
  /-- A core access to the lane address map (R45 to R47). -/
  | coreAccess (l : LaneId) (core : Fin 2) (op : CoreOp) (w : Width) (addr : Word) (data : Word)
  /-- A write to LSM_ECC_CLR (R44). -/
  | lsmEccClr (l : LaneId) (val : Word)
  /-- MTIME reaches MTIMECMP (R51). -/
  | machineTimerInterrupt (l : LaneId) (core : Fin 2)
  /-- The Locked cores differ (R55). -/
  | coreLockstep (l : LaneId)
  /-- A core access to the storage staging window (R22, R379). -/
  | stagingWindowAccess (l : LaneId) (core : Fin 2) (op : CoreOp) (w : Width) (off : BitVec 24) (data : Word)
  -- mode sequencer and timeline
  /-- A mode request descriptor is checked and held (R71). -/
  | modeRequest (l : LaneId)
  /-- A CKPT entry issues (R111, R144). -/
  | ckpt (l : LaneId)
  /-- A bank load ends (R82, R83). -/
  | bankLoadComplete (l : LaneId)
  /-- A timeline NOP entry issues (R111). -/
  | nop (l : LaneId)
  /-- The MID entry issues (R107). -/
  | mid (l : LaneId)
  /-- A timeline IRQ entry issues (R111). -/
  | irq (l : LaneId)
  /-- A PWM_ALIGN entry issues; `busy`: a measurement is in progress (R110); the counter and the TLS count on the issue edge
  (R282). -/
  | pwmAlign (i : Issue) (cnt : BitVec 16) (count : BitVec 18)
  /-- An ADC_SEQ entry issues (R246). -/
  | adcSeq (l : LaneId)
  /-- An ME_STEP entry issues; `busy`: the engine is still in a step (R110, R250). -/
  | meStep (l : LaneId) (busy : Bool)
  /-- An LPE_RUN entry issues; `busy`: a run is in progress (R110, R226). -/
  | lpeRun (l : LaneId) (busy : Bool)
  /-- A VDU_UPDATE entry issues; `busy`: an update is in progress (R110, R288). -/
  | vduUpdate (l : LaneId) (busy : Bool)
  /-- A CDSP_TASK entry issues (R192). -/
  | cdspTask (l : LaneId)
  /-- A NET_TX entry issues; `busy`: a hand-over is in progress (R110, R321). -/
  | netTx (i : Issue)
  /-- A NET_RX entry issues; `busy`: a latching is in progress (R110, R325). -/
  | netRx (i : Issue)
  /-- A CAN_TX entry issues; `busy`: a hand-over is in progress (R110, R360). -/
  | canTx (i : Issue)
  /-- A SAMPLE entry issues; `busy`: a group is being sampled (R110, R490). -/
  | sample (i : Issue)
  /-- A BIST_WIN entry issues; `busy`: a window of the class is open (R110, R423). -/
  | bistWin (i : Issue)
  /-- An EVR_MARK entry issues (R384). -/
  | evrMark (l : LaneId)
  /-- A cycle starts on the TLS's own count (R103, R104). -/
  | cycleStart (l : LaneId)
  /-- An NTE cycle-start event arrives, `delta` ns after the expected instant (R103 to R105). -/
  | cycleStartEvent (l : LaneId) (delta : Int)
  /-- No event 1 us after the expected instant (R104). -/
  | cycleStartMissing (l : LaneId)
  -- images and staging
  /-- The Image Loader chooses and verifies an image (R93, R100). -/
  | imageVerification (l : LaneId)
  /-- The sections are copied and the TLS starts (R94). -/
  | imageCopy (l : LaneId)
  /-- STAGE_ERASE runs (R98). -/
  | stageErase (l : LaneId)
  /-- STAGE_WRITE runs (R98). -/
  | stageWrite (l : LaneId)
  /-- STAGE_VERIFY runs (R98). -/
  | stageVerify (l : LaneId)
  /-- STAGE_ACTIVATE runs (R98). -/
  | stageActivate (l : LaneId)
  -- rings and the LMMU
  /-- A write to RINGn_PI (R129, R130). -/
  | doorbell (l : LaneId) (n : Fin 32) (val : Word)
  /-- A write to RINGn_CFG (R118, R130). -/
  | ringEnable (l : LaneId) (n : Fin 32) (val : Word)
  /-- A write of ABORT to RINGn_CTL (R140). -/
  | ringAbort (l : LaneId) (n : Fin 32)
  /-- A write of RESUME to RINGn_CTL (R132). -/
  | ringResume (l : LaneId) (n : Fin 32)
  /-- An engine fetches the ring's head descriptor (R132). -/
  | descriptorFetch (l : LaneId) (n : Fin 32)
  /-- The running descriptor of the role's engine reaches a boundary (R135). -/
  | descriptorBoundary (l : LaneId) (role : Fin 10)
  /-- The running COPY completes (R119). -/
  | copy (l : LaneId)
  /-- The running FILL completes (R119). -/
  | fill (l : LaneId)
  /-- A write to LMMU_INV (R138, R142). -/
  | lmmuInv (l : LaneId) (val : Word)
  /-- The invalidation completes (R138). -/
  | lmmuInvComplete (l : LaneId)
  /-- A write to LMMU_FLT_CLR (R143). -/
  | lmmuFltClr (l : LaneId) (val : Word)
  -- Clove and the lane links
  /-- A FORM transfer arrives (R159). -/
  | formTransfer (l : LaneId) (link : Fin 2) (x : Xfer)
  /-- A SAMPLE transfer arrives (R151, R157). -/
  | sampleTransfer (l : LaneId) (link : Fin 2) (x : Xfer)
  /-- The sample deadline passes (R147). -/
  | sampleDeadline (l : LaneId)
  /-- A VOTE transfer arrives (R153, R156). -/
  | voteTransfer (l : LaneId) (link : Fin 2) (x : Xfer)
  /-- The vote deadline passes (R147). -/
  | voteDeadline (l : LaneId)
  /-- The release instant (R146). -/
  | voteRel (l : LaneId)
  /-- A MIRROR transfer arrives (R298). -/
  | mirrorTransfer (l : LaneId) (link : Fin 2) (x : Xfer)
  /-- A CATCHUP transfer arrives (R167). -/
  | catchupTransfer (l : LaneId) (link : Fin 2) (x : Xfer)
  /-- A MAILBOX transfer arrives (R165). -/
  | mailboxTransfer (l : LaneId) (link : Fin 2) (x : Xfer)
  /-- A TIME transfer arrives, received at stamp `stamp` of this lane's network time (R336, R337). -/
  | timeTransfer (l : LaneId) (link : Fin 2) (x : Xfer) (stamp : Word64)
  /-- Three rounds without a good SAMPLE transfer on the link (R157). -/
  | linkDown (l : LaneId) (link : Fin 2)
  /-- The link loses its block lock (R157). -/
  | blockLockLoss (l : LaneId) (link : Fin 2)
  /-- A training attempt ends: failed, or with the peer's FORM exchange (R158). -/
  | linkTraining (l : LaneId) (link : Fin 2) (res : Option TrainInfo)
  /-- FORM_WAIT ends (R160). -/
  | formWaitExpiry (l : LaneId)
  /-- MB_SEND runs (R165). -/
  | mbSend (l : LaneId)
  /-- A write to CLV_CTL (R166). -/
  | reint (l : LaneId) (val : Word)
  /-- The re-integration BIST passes end (R167). -/
  | reintBistComplete (l : LaneId)
  /-- A peer's cross-lane halt request is seen (R177). -/
  | crossLaneHaltRequest (l : LaneId) (peer : LaneId)
  /-- A write to CLV_ERR_CLR (R179). -/
  | clvErrClr (l : LaneId) (val : Word)
  /-- A write to LLK_LINKl_CLR (R179). -/
  | llkLinkClr (l : LaneId) (link : Fin 2) (val : Word)
  /-- A write to LSM_RAWn (R179). -/
  | lsmRawClear (l : LaneId) (n : Fin 8) (val : Word)
  -- the CDSP
  /-- TEND issues (R193, R215). -/
  | tend (l : LaneId)
  /-- The task's budget expires (R193). -/
  | cdspOverrun (l : LaneId)
  /-- A reserved instruction or a failed fetch meets the issue (R193, R210). -/
  | illegalInstruction (l : LaneId)
  /-- A pending interrupt is taken (R203 to R206). -/
  | cdspInterruptEntry (l : LaneId)
  /-- A write to CDSP_DB (R203). -/
  | cdspDb (l : LaneId) (val : Word)
  /-- The CDSP copies differ (R208). -/
  | cdspLockstep (l : LaneId)
  /-- HALT of CDSP_DBG_CTL (R209). -/
  | cdspHalt (l : LaneId)
  /-- RESUME of CDSP_DBG_CTL (R209). -/
  | cdspResume (l : LaneId)
  /-- STEP of CDSP_DBG_CTL (R209). -/
  | cdspStep (l : LaneId)
  /-- A write to CDSP_ERR_CLR (R218). -/
  | cdspErrClr (l : LaneId) (val : Word)
  /-- Parallel instruction with MOP NOP (R211). -/
  | macPairNop (l : LaneId) (x y : Move)
  /-- MPY (R211). -/
  | mpy (l : LaneId) (m : MacArgs)
  /-- MAC (R211). -/
  | mac (l : LaneId) (m : MacArgs)
  /-- MSU (R211). -/
  | msu (l : LaneId) (m : MacArgs)
  /-- MACSU (R211). -/
  | macsu (l : LaneId) (m : MacArgs)
  /-- CLR (R211). -/
  | clr (l : LaneId) (mpair : BitVec 2) (x y : Move)
  /-- ASR (R211). -/
  | asr (l : LaneId) (mpair : BitVec 2) (count : BitVec 4) (x y : Move)
  /-- ASL (R211). -/
  | asl (l : LaneId) (mpair : BitVec 2) (count : BitVec 4) (x y : Move)
  /-- LDA (R211). -/
  | lda (l : LaneId) (mpair : BitVec 2) (mra mrc : BitVec 4) (x y : Move)
  /-- A single LD move (R212). -/
  | ld (l : LaneId) (bus : Bus) (reg : BitVec 4) (ptr upd : BitVec 3)
  /-- A single LDP move (R212). -/
  | ldp (l : LaneId) (bus : Bus) (reg : BitVec 4) (ptr upd : BitVec 3)
  /-- A single ST move (R212). -/
  | st (l : LaneId) (bus : Bus) (reg : BitVec 4) (ptr upd : BitVec 3)
  /-- A single STP move (R212). -/
  | stp (l : LaneId) (bus : Bus) (reg : BitVec 4) (ptr upd : BitVec 3)
  /-- A single STA move (R212). -/
  | sta (l : LaneId) (bus : Bus) (acc : BitVec 2) (ptr upd : BitVec 3)
  /-- A single LDC move, on the X bus (R212). -/
  | ldc (l : LaneId) (reg : BitVec 4) (ptr upd : BitVec 3)
  /-- LDI (R214). -/
  | ldi (l : LaneId) (rdst : BitVec 6) (imm : Word)
  /-- MOV (R214). -/
  | mov (l : LaneId) (rdst rsa : BitVec 6)
  /-- ADD (R214). -/
  | add (l : LaneId) (rd ra rb : BitVec 4)
  /-- SUB (R214). -/
  | sub (l : LaneId) (rd ra rb : BitVec 4)
  /-- ADDS (R214). -/
  | adds (l : LaneId) (rd ra rb : BitVec 4)
  /-- SUBS (R214). -/
  | subs (l : LaneId) (rd ra rb : BitVec 4)
  /-- ADDI (R214). -/
  | addi (l : LaneId) (rd ra : BitVec 4) (imm : Word)
  /-- AND (R214). -/
  | and (l : LaneId) (rd ra rb : BitVec 4)
  /-- OR (R214). -/
  | or (l : LaneId) (rd ra rb : BitVec 4)
  /-- XOR (R214). -/
  | xor (l : LaneId) (rd ra rb : BitVec 4)
  /-- SHL (R214). -/
  | shl (l : LaneId) (rd ra : BitVec 4) (imm : Word)
  /-- SHLS (R214). -/
  | shls (l : LaneId) (rd ra : BitVec 4) (imm : Word)
  /-- SHRA (R214). -/
  | shra (l : LaneId) (rd ra : BitVec 4) (imm : Word)
  /-- SHRL (R214). -/
  | shrl (l : LaneId) (rd ra : BitVec 4) (imm : Word)
  /-- MIN (R214). -/
  | min (l : LaneId) (rd ra rb : BitVec 4)
  /-- MAX (R214). -/
  | max (l : LaneId) (rd ra rb : BitVec 4)
  /-- ABSS (R214). -/
  | abss (l : LaneId) (rd ra : BitVec 4)
  /-- NEGS (R214). -/
  | negs (l : LaneId) (rd ra : BitVec 4)
  /-- SELNEG (R214). -/
  | selneg (l : LaneId) (rd ra rb : BitVec 4)
  /-- SELZ (R214). -/
  | selz (l : LaneId) (rd ra rb : BitVec 4)
  /-- CLAMP (R214). -/
  | clamp (l : LaneId) (rd ra : BitVec 4) (imm : Word)
  /-- Control-format NOP (R215). -/
  | cdspNop (l : LaneId)
  /-- JMP (R215). -/
  | jmp (l : LaneId) (target : BitVec 17)
  /-- CALL (R215). -/
  | call (l : LaneId) (target : BitVec 17)
  /-- RET (R215). -/
  | ret (l : LaneId)
  /-- LOOP (R197). -/
  | loop (l : LaneId) (count : BitVec 16) (target : BitVec 17)
  /-- REP (R198). -/
  | rep (l : LaneId) (count : BitVec 16)
  /-- RTI (R215). -/
  | rti (l : LaneId)
  /-- DBELL (R215). -/
  | dbell (l : LaneId) (code : Byte)
  /-- BKPT (R209). -/
  | bkpt (l : LaneId)
  -- loop engine, ADC and motor engines
  /-- A write to LPE_SATn (R220). -/
  | lpeSat (l : LaneId) (n : Fin 2) (val : Word)
  /-- A write to LPE_TRIPn (R233). -/
  | lpeTrip (l : LaneId) (n : Fin 2) (val : Word)
  /-- A write to LPE_ERR_CLR (R241). -/
  | lpeErrClr (l : LaneId) (val : Word)
  /-- A conversion of input `n` on pair `pair` ends with its code, or is lost (R246, R271). -/
  | adcConversionComplete (l : LaneId) (pair : Fin 2) (n : Fin 33) (code : Option (BitVec 14))
  /-- A sequence completes (R246). -/
  | adcSequenceComplete (l : LaneId) (pair : Fin 2)
  /-- A debounced speed condition switches the regime (R257). -/
  | regimeSwitch (l : LaneId) (e : Fin 2)
  /-- CAP_EMF has not recorded N_CAP samples in 2 ms (R263). -/
  | captureTimeout (l : LaneId) (e : Fin 2)
  /-- The 256 injection steps of CAP_HFI end (R264). -/
  | hfiSettleEnd (l : LaneId) (e : Fin 2)
  /-- The recovery conditions of R267 have held for 100 ms. -/
  | ascRecovery (l : LaneId) (e : Fin 2)
  /-- No step arrives within the allowed time (R271). -/
  | stepMissing (l : LaneId) (e : Fin 2)
  /-- Overcurrent in two consecutive steps (R271). -/
  | overcurrent (l : LaneId) (e : Fin 2)
  /-- The observer diverges (R271). -/
  | obsDiverge (l : LaneId) (e : Fin 2)
  /-- The DC link stays low (R271). -/
  | vdcLow (l : LaneId) (e : Fin 2)
  /-- A write to MEe_ERR_CLR (R272). -/
  | meErrClr (l : LaneId) (e : Fin 2) (val : Word)
  /-- A write to ADC_ERR_CLR (R272). -/
  | adcErrClr (l : LaneId) (val : Word)
  -- PWM, valves, interlock, chopper, GPIO
  /-- A core's write of COMMIT completes its handshake (R279). -/
  | commit (l : LaneId) (n : Fin 3)
  /-- A reload edge (R279). -/
  | pwmReload (l : LaneId) (n : Fin 3)
  /-- The counter reaches PER - 1 (R276). -/
  | pwmPeriodEvent (l : LaneId) (n : Fin 3)
  /-- The counter reaches active compare k (R276). -/
  | pwmCompareEvent (l : LaneId) (n : Fin 3) (k : Fin 6)
  /-- EN changes from 0 to 1 (R274). -/
  | pwmEnable (l : LaneId) (n : Fin 3)
  /-- No motor-island clock edge for 1 us (R286). -/
  | clkstop (l : LaneId)
  /-- The motor-island clock returns after a stop (R286). -/
  | pwmClkStop (l : LaneId)
  /-- A write to PWMn_ERR_CLR (R305). -/
  | pwmErrClr (l : LaneId) (n : Fin 3) (val : Word)
  /-- A write of 1 to OC of VDU_CHk_STAT (R289). -/
  | vduOcClear (l : LaneId) (k : Fin 8)
  /-- A write to VDU_ERR_CLR (R305). -/
  | vduErrClr (l : LaneId) (val : Word)
  /-- A write to DEI_ERR_CLR (R305). -/
  | deiErrClr (l : LaneId) (val : Word)
  /-- A write to CHP_ERR_CLR (R305). -/
  | chpErrClr (l : LaneId) (val : Word)
  /-- A claim attempt starts (R293). -/
  | claimAttempt (l : LaneId) (g : Fin 4)
  /-- The guard time ends (R293, R294). -/
  | claimGuardEnd (l : LaneId) (g : Fin 4)
  /-- The back-off ends (R294). -/
  | claimBackoffEnd (l : LaneId) (g : Fin 4)
  /-- A peer's claim line changes (R292). -/
  | claimLineChange (l : LaneId) (g : Fin 4) (peer : LaneId) (level : Bool)
  /-- A peer's claim has been asserted for 2.5 us (R292). -/
  | ownerSeen (l : LaneId) (g : Fin 4) (peer : LaneId)
  /-- The owner's claim has been de-asserted for 0.5 us (R296). -/
  | ownerLost (l : LaneId) (g : Fin 4)
  /-- The second successor's 20 us wait ends (R296). -/
  | successorWaitEnd (l : LaneId) (g : Fin 4)
  /-- A group in DRIVE_SET has had no owner for 100 us (R296). -/
  | deiNoOwner (l : LaneId) (g : Fin 4)
  /-- Gate on for 20 us without chopper current (R300). -/
  | chpNoCurrent (l : LaneId)
  /-- Chopper current with the gate off for 20 us (R300). -/
  | chpStuck (l : LaneId)
  /-- An edge on a GPIO ball (R302). -/
  | gpioEdge (l : LaneId) (n : Fin 8) (rising : Bool)
  /-- A write to GPIO_SPI_TX (R303). -/
  | gpioSpiTx (l : LaneId) (val : Word)
  /-- A read of GPIO_SPI_RX (R303). -/
  | gpioSpiRx (l : LaneId)
  /-- A gate-driver SPI frame is exchanged; `miso` is what the driver sent (R303). -/
  | spiFrame (l : LaneId) (miso : Word)
  -- the Ahnul network
  /-- A star port's link comes up (R308). -/
  | phyLinkUp (l : LaneId) (p : Fin 12)
  /-- A star port's link goes down (R308). -/
  | phyLinkDown (l : LaneId) (p : Fin 12)
  /-- A frame starts on a port `t` ns after the cycle start; `hdr` are its first 30 octets from the preamble's end on,
  that is DA, SA, EtherType, HDR0 and HDR1 (R313, R326). -/
  | frameStart (l : LaneId) (port : Fin 16) (t : Int) (hdr : List Byte)
  /-- An admitted DATA frame ends (R317). -/
  | dataFrame (l : LaneId) (port : Fin 16) (f : FrameEnd)
  /-- An admitted NULL frame ends (R324). -/
  | nullFrame (l : LaneId) (port : Fin 16) (f : FrameEnd)
  /-- A SYNC frame is received (R341, R351). -/
  | syncFrame (l : LaneId) (port : Fin 16) (f : FrameEnd)
  /-- A COLDSTART frame is received (R349). -/
  | coldstartFrame (l : LaneId) (port : Fin 16) (f : FrameEnd)
  /-- A CLAIM frame is received (R354). -/
  | claimFrame (l : LaneId) (port : Fin 16) (f : FrameEnd)
  /-- An admitted frame overruns its slot (R327). -/
  | frameTruncation (l : LaneId) (port : Fin 16)
  /-- The action point of an own slot (R321). -/
  | ownFrameSend (l : LaneId) (slot : BitVec 16)
  /-- The action point of the own SYNC slot (R340). -/
  | syncFrameSend (l : LaneId)
  /-- Network time reaches cycle `num` (R334). -/
  | networkCycleStart (l : LaneId) (num : Nat)
  /-- The offset has exceeded 1 us in 4 consecutive cycles (R338). -/
  | timeLost (l : LaneId)
  /-- 4T after entry of LISTEN (R348). -/
  | coldstartListenEnd (l : LaneId)
  /-- 6T without LEAD in WAIT_LEAD (R348). -/
  | waitLeadTimeout (l : LaneId)
  /-- 5T: the leader starts cycle 56 (R348). -/
  | coldstartBegin (l : LaneId)
  /-- Cycle 0 of a cold start (R348). -/
  | coldstartSync (l : LaneId)
  /-- The winner is silent for 4T (R349). -/
  | winnerSilent (l : LaneId)
  /-- Not SYNCED 80 ms after E (R350). -/
  | startTimeout (l : LaneId)
  /-- No SYNC frame on the followed trunk for 4 cycles (R353). -/
  | trunkLost (l : LaneId)
  /-- A hyperperiod boundary at which grants and releases take effect (R355). -/
  | claimEffect (l : LaneId)
  /-- A write to NTE_CLAIM_TX (R356). -/
  | claimGo (l : LaneId) (val : Word)
  /-- No answer within 64 cycles (R356). -/
  | claimNoAnswer (l : LaneId)
  /-- A write to SSG_ERR_CLR (R332). -/
  | ssgErrClr (l : LaneId) (val : Word)
  /-- A write to NTE_ERR_CLR (R332). -/
  | nteErrClr (l : LaneId) (val : Word)
  /-- A write to NTE_TERR_CLR (R365). -/
  | nteTerrClr (l : LaneId) (val : Word)
  -- the CAN gateway
  /-- A complete CAN frame or message is received (R359). -/
  | canFrameReceived (l : LaneId) (ch : Fin 2) (m : CanMsg)
  /-- A receive mapping's timeout (R359). -/
  | canRxTimeout (l : LaneId) (m : Fin 2048)
  /-- A channel goes bus-off (R357). -/
  | canBusOff (l : LaneId) (ch : Fin 2)
  /-- A channel leaves bus-off (R357). -/
  | busOffRecovery (l : LaneId) (ch : Fin 2)
  /-- A transport session times out; `rx`: a receive session, `k`: its number (R357). -/
  | tpTimeout (l : LaneId) (ch : Fin 2) (rx : Bool) (k : Fin 4)
  /-- An ISO channel claims its preferred address (R361). -/
  | addressClaim (l : LaneId) (ch : Fin 2)
  /-- 250 ms without a challenge (R361). -/
  | addressClaimComplete (l : LaneId) (ch : Fin 2)
  /-- CAN_SEND starts (R362). -/
  | canSend (l : LaneId)
  /-- CAN_RECV starts to wait (R362). -/
  | canRecv (l : LaneId)
  /-- A write to CGW_CHc_ERR_CLR (R365). -/
  | cgwErrClr (l : LaneId) (ch : Fin 2) (val : Word)
  -- storage and the event recorder
  /-- The storage die powers on (R373). -/
  | storageDiePowerOn
  /-- The STE is mounted (R373). -/
  | steMount
  /-- A lane's storage link comes up (R373). -/
  | storageLinkUp (l : LaneId)
  /-- A lane's storage link goes down (R373). -/
  | storageLinkDown (l : LaneId)
  /-- READ runs (R380). -/
  | read (l : LaneId)
  /-- WRITE runs (R380); `bad`: what it meets in the NAND (R368, R383). -/
  | write (l : LaneId) (bad : Option NandTrouble)
  /-- TRIM runs (R380). -/
  | trim (l : LaneId)
  /-- VERIFY runs (R380). -/
  | verify (l : LaneId)
  /-- Sectors needing more than 40 corrected bits are rewritten; `bad`: the target block's program fails (R367, R368). -/
  | relocation (blk : Fin 8192) (sector : Nat) (bits : Nat) (bad : Bool)
  /-- A block with 100,000 reads is relocated and erased (R370). -/
  | readDisturbRelocate (blk : Fin 8192)
  /-- The patrol reads a page of a block, whose worst codeword needed `bits` corrections (R371). -/
  | patrolRead (blk : Fin 8192) (sector : Nat) (bits : Nat)
  /-- The patrol falls behind (R371). -/
  | patrolLate
  /-- EVR_WRITE runs (R392). -/
  | evrWrite (l : LaneId)
  /-- A seal is signed; `ok`: the CRU could sign (R387). -/
  | sealSign (l : LaneId) (ok : Bool)
  /-- A closed segment is programmed (R388). -/
  | segmentProgram (l : LaneId)
  /-- EVR_FREEZE runs (R392). -/
  | evrFreeze (l : LaneId)
  /-- EVR_READ runs (R392). -/
  | evrRead (l : LaneId)
  /-- EVR_SEAL runs (R392). -/
  | evrSeal (l : LaneId)
  /-- EVR_WINLIST runs (R392). -/
  | evrWinlist (l : LaneId)
  /-- EVR_RELEASE runs (R392). -/
  | evrRelease (l : LaneId)
  /-- The STE reports the lane's tail (R393). -/
  | evrTail (l : LaneId)
  /-- A write to STE_ERR_CLR (R397). -/
  | steErrClr (l : LaneId) (val : Word)
  /-- A write to EVR_ERR_CLR (R397). -/
  | evrErrClr (l : LaneId) (val : Word)
  -- Dormant
  /-- Step A of Dormant entry ends (R408). -/
  | dormantStepA (l : LaneId)
  /-- Step B ends (R408). -/
  | dormantStepB (l : LaneId)
  /-- Step D (R408). -/
  | dormantStepD (l : LaneId)
  /-- Step E (R408). -/
  | dormantStepE (l : LaneId)
  /-- A wake source fires; `src` is its code (R413). -/
  | wakeEvent (l : LaneId) (src : Fin 8)
  /-- Rejoin starts (R411). -/
  | rejoin (l : LaneId)
  /-- A write to AOS_ERR_CLR (R416). -/
  | aosErrClr (l : LaneId) (val : Word)
  -- self-test and Pepper
  /-- Start-up BIST ends: passed, or failed at a test and element (R419, R420). -/
  | startupBist (l : LaneId) (failed : Option (Byte × BitVec 16))
  /-- A self-test element ends (R424). -/
  | bistElementComplete (l : LaneId) (cls : Fin 32) (pass : Bool)
  /-- A request meets a running element (R426). -/
  | bistAbort (l : LaneId) (cls : Fin 32)
  /-- A slice becomes starved (R427). -/
  | bistStarved (l : LaneId) (r : Fin 256)
  /-- A pass exceeds PASS_LIM (R425). -/
  | bistPassLate (l : LaneId) (r : Fin 256)
  /-- BIST_RUN ends its pass; `failed`: the element that failed (R429). -/
  | bistRun (l : LaneId) (failed : Option (BitVec 16))
  /-- BIST_MFG ends (R429). -/
  | bistMfg (l : LaneId) (failed : Option (BitVec 16))
  /-- BIST_STATUS runs (R429). -/
  | bistStatus (l : LaneId)
  /-- A write to BSC_ERR_CLR (R434). -/
  | bscErrClr (l : LaneId) (val : Word)
  /-- A write of ARM (R430). -/
  | pprArm (l : LaneId)
  /-- A write of DISARM (R430). -/
  | pprDisarm (l : LaneId)
  /-- A write to PPR_INJi_CFG (R431). -/
  | pprInjCfg (l : LaneId) (i : Fin 8) (val : Word)
  -- lifecycle and security
  /-- The LCS verifies firmware (R445). -/
  | firmwareVerification (l : LaneId)
  /-- FW_ERASE runs (R453). -/
  | fwErase (l : LaneId)
  /-- FW_WRITE runs (R453). -/
  | fwWrite (l : LaneId)
  /-- FW_VERIFY runs (R453). -/
  | fwVerify (l : LaneId)
  /-- FW_ACTIVATE runs (R453). -/
  | fwActivate (l : LaneId)
  /-- BOOTCFG runs (R453). -/
  | bootcfg (l : LaneId)
  /-- SVC_NONCE runs; `trngOk`: the TRNG health test passes (R449, R452). -/
  | svcNonce (l : LaneId) (trngOk : Bool)
  /-- SVC_ENTER runs (R450). -/
  | svcEnter (l : LaneId)
  /-- SVC_END runs (R451). -/
  | svcEnd (l : LaneId)
  /-- LC_ADVANCE runs (R438). -/
  | lcAdvance (l : LaneId)
  /-- KEY_SET runs (R442). -/
  | keySet (l : LaneId)
  /-- KEY_REVOKE runs (R442). -/
  | keyRevoke (l : LaneId)
  /-- SM3 runs (R452). -/
  | sm3 (l : LaneId)
  /-- SM2_VERIFY runs (R452). -/
  | sm2Verify (l : LaneId)
  /-- SM2_SIGN runs (R452). -/
  | sm2Sign (l : LaneId) (trngOk : Bool)
  /-- ATTEST runs (R454). -/
  | attest (l : LaneId) (trngOk : Bool)
  /-- RANDOM runs (R452). -/
  | random (l : LaneId) (trngOk : Bool)
  /-- The held nonce expires (R449). -/
  | nonceExpiry (l : LaneId)
  /-- SERVICE expires (R451). -/
  | serviceExpiry (l : LaneId)
  /-- A debug or JTAG access (R437). -/
  | debugAccess (l : LaneId) (k : DebugKind)
  /-- A write to LCS_ERR_CLR (R458). -/
  | lcsErrClr (l : LaneId) (val : Word)
  -- registers in general, and the events added at the end of the table
  /-- A write to the register that holds a lock bit (R17, R456). -/
  | lockSet (l : LaneId) (addr : Word) (val : Word)
  /-- A write to a register (R14, R15, R47). -/
  | registerWrite (l : LaneId) (addr : Word) (val : Word)
  /-- The storage die loses its supply (R372). -/
  | storageDiePowerLoss
  /-- A transmitted CAN frame is acknowledged (R362). -/
  | canFrameAcknowledged (l : LaneId) (ch : Fin 2)
  /-- The peer acknowledges the last mailbox transfer (R165). -/
  | mailboxAcknowledged (l : LaneId)
  /-- A member's links go idle after an abandonment at AP2 (R410). -/
  | linkIdle (l : LaneId)
deriving DecidableEq, Repr, Inhabited

end Sys2Proof
end

