-- ==== Sys2Proof/Config.lean ====
section
/-! DEFINITION. What the spec leaves open or places in another standard: constants without a body, so that no proof can
see a value of them. Each is named in the assumption log. -/

namespace Sys2Proof.Config

/-- A fresh free word: the value of a result the spec leaves unspecified, taken with the lane's counter of free values.
DESIGN CHOICE: log 4. -/
opaque freeWord : Nat → Word
/-- The 64 KiB of Boot ROM content, which the spec does not give (R41). DESIGN CHOICE: log 7. -/
opaque bootRom : Nat → Byte
/-- The SM3 hash of GB/T 32905 (R92), as 32 bytes. PRESUMED: log 5. -/
opaque sm3 : List Byte → List Byte
/-- The SM2 signature check of GB/T 32918 (R92): public key, distinguishing identifier, message, r and s. -/
opaque sm2Verify : List Byte → List Byte → List Byte → List Byte → List Byte → Bool
/-- The SM2 check over a digest already formed: public key, digest, r and s (R452). -/
opaque sm2VerifyDigest : List Byte → List Byte → List Byte → List Byte → Bool
/-- The SM2 signature of a message with a lane's identity key, drawn with a fresh number; r then s, 64 bytes (R452).
PRESUMED: log 5. -/
opaque sm2Sign : Nat → Nat → List Byte → List Byte
/-- The public key of a lane's identity key, x then y, 64 bytes (R441). -/
opaque idPub : Nat → List Byte
/-- The Ihlem root public key held in the Boot ROM, x then y, 64 bytes (R442). -/
opaque rootPub : List Byte
/-- The true random number generator: draw `n` of a lane, as 32 bytes (R452). DESIGN CHOICE: log 6. -/
opaque trng : Nat → Nat → List Byte
/-- The error of the cosine and of the sine that the motor engine forms, of which R242 gives a bound only.
DESIGN CHOICE: log 8. -/
opaque cosErr : Word → Nat
opaque sinErr : Word → Nat
/-- The error of the angle of a vector that the motor engine forms (R263 gives a bound only). -/
opaque angErr : Word → Word → Nat

end Sys2Proof.Config
end

