-- ==== Sys2Proof/Machine/RegMap.lean ====
section
/-! DEFINITION. The register map: one `Fld` for each field of each register table of the spec (address, place, width,
access code and reset value, R14 to R16, R48), and the table of registers that the bus decodes. -/

namespace Sys2Proof.Machine

/-- The access codes of R14. -/
inductive Acc where
  | rw
  | ro
  | wo
  | w1c
  | w1s
  | rwl
deriving DecidableEq, Repr

/-- One field of one register: lane address of the register, lowest bit, width, access code, value after lane reset.
DESIGN CHOICE: log 13. -/
structure Fld where
  addr : Nat
  lo : Nat
  w : Nat
  acc : Acc
  rst : Nat
deriving DecidableEq, Repr

/-- The key under which a field's value is held: one home for each field. -/
def Fld.key (f : Fld) : Nat := f.addr * 32 + f.lo

/-- A register or an array of registers of one layout: `count` registers from `base` on, `stride` bytes apart. -/
structure RegRow where
  base : Nat
  stride : Nat
  count : Nat
  flds : Nat → List Fld

namespace F
def AOS_STAT_CLKDEG : Fld := ⟨0x40000000, 31, 1, .ro, 0x0⟩
def AOS_STAT_ON : Fld := ⟨0x40000000, 16, 7, .ro, 0x0⟩
def AOS_STAT_FAIL : Fld := ⟨0x40000000, 8, 7, .ro, 0x0⟩
def AOS_STAT_SUP : Fld := ⟨0x40000000, 0, 5, .w1c, 0x0⟩
def AOS_RSTCAUSE_CAUSE : Fld := ⟨0x40000004, 0, 8, .w1c, 0x1⟩
def AOS_WAKE_EN_TIMER : Fld := ⟨0x40000008, 5, 1, .rw, 0x0⟩
def AOS_WAKE_EN_CAN1 : Fld := ⟨0x40000008, 4, 1, .rw, 0x0⟩
def AOS_WAKE_EN_CAN0 : Fld := ⟨0x40000008, 3, 1, .rw, 0x0⟩
def AOS_WAKE_EN_WAKE1_EN : Fld := ⟨0x40000008, 2, 1, .rw, 0x0⟩
def AOS_WAKE_EN_WAKE0_EN : Fld := ⟨0x40000008, 1, 1, .rw, 0x0⟩
def AOS_WAKE_LAST_DORMANT : Fld := ⟨0x4000000c, 31, 1, .ro, 0x0⟩
def AOS_WAKE_LAST_AP : Fld := ⟨0x4000000c, 24, 3, .ro, 0x0⟩
def AOS_WAKE_LAST_EDGE : Fld := ⟨0x4000000c, 8, 2, .rw, 0x0⟩
def AOS_WAKE_LAST_SRC : Fld := ⟨0x4000000c, 0, 8, .ro, 0x0⟩
def AOS_DORM_ENTRY : Fld := ⟨0x40000010, 31, 1, .ro, 0x0⟩
def AOS_DORM_PASSED : Fld := ⟨0x40000010, 0, 3, .ro, 0x7⟩
def AOS_DOM_REQ_SW : Fld := ⟨0x40000014, 7, 1, .w1s, 0x0⟩
def AOS_DOM_REQ_WAKE : Fld := ⟨0x40000014, 0, 7, .w1s, 0x0⟩
def AOS_TMR_TMR : Fld := ⟨0x40000018, 0, 32, .ro, 0x0⟩
def AOS_TMR_CMP_CMP : Fld := ⟨0x4000001c, 0, 32, .rw, 0xffffffff⟩
def AOS_WAKE_TIME_TIME : Fld := ⟨0x40000020, 0, 32, .ro, 0x0⟩
def AOS_ERR_DOMRETRY_CNT : Fld := ⟨0x40000024, 24, 8, .ro, 0x0⟩
def AOS_ERR_PLLRETRY_CNT : Fld := ⟨0x40000024, 16, 8, .ro, 0x0⟩
def AOS_ERR_ABANDON_CNT : Fld := ⟨0x40000024, 8, 8, .ro, 0x0⟩
def AOS_ERR_SUPWARN_CNT : Fld := ⟨0x40000024, 0, 8, .ro, 0x0⟩
def AOS_ERR_CLR_CLR : Fld := ⟨0x40000028, 0, 1, .wo, 0x0⟩
def AOS_SWRST_KEY : Fld := ⟨0x4000002c, 0, 32, .wo, 0x0⟩
def CLK_STAT_XTAL_OK : Fld := ⟨0x40001000, 31, 1, .ro, 0x0⟩
def CLK_STAT_PLL_LOCK : Fld := ⟨0x40001000, 30, 1, .ro, 0x0⟩
def CLK_STAT_ON_PLL : Fld := ⟨0x40001000, 29, 1, .ro, 0x0⟩
def CLK_STAT_DEGRADED : Fld := ⟨0x40001000, 28, 1, .ro, 0x0⟩
def CLK_STAT_CAUSE : Fld := ⟨0x40001000, 26, 2, .ro, 0x0⟩
def CLK_STAT_XTAL_KHZ : Fld := ⟨0x40001000, 0, 16, .ro, 0x61a8⟩
def CLK_MEAS_KHZ : Fld := ⟨0x40001004, 0, 16, .ro, 0x0⟩
def CLK_MON_TOL : Fld := ⟨0x40001008, 0, 8, .rwl, 0x32⟩
def CLK_CTL_LOCK : Fld := ⟨0x4000100c, 0, 1, .w1s, 0x0⟩
def CLK_XING_STAT_PAR_CNT : Fld := ⟨0x40001800, 16, 8, .ro, 0x0⟩
def CLK_XING_STAT_TMO_CNT : Fld := ⟨0x40001800, 8, 8, .ro, 0x0⟩
def CLK_XING_STAT_LAST_ID : Fld := ⟨0x40001800, 0, 8, .ro, 0x0⟩
def CLK_XING_CLR_CLR : Fld := ⟨0x40001804, 0, 1, .wo, 0x0⟩
def LSM_CTL_LOCK : Fld := ⟨0x40002000, 0, 1, .w1s, 0x0⟩
def LSM_STAT_SAFE : Fld := ⟨0x40002004, 31, 1, .ro, 0x0⟩
def LSM_STAT_EXCL : Fld := ⟨0x40002004, 30, 1, .ro, 0x0⟩
def LSM_STAT_IMM : Fld := ⟨0x40002004, 29, 1, .ro, 0x0⟩
def LSM_STAT_ANY : Fld := ⟨0x40002004, 23, 1, .ro, 0x0⟩
def LSM_STAT_MAXCLS : Fld := ⟨0x40002004, 20, 3, .ro, 0x0⟩
def LSM_LAST_CKPT_LO : Fld := ⟨0x40002008, 24, 8, .ro, 0x0⟩
def LSM_LAST_CLASS : Fld := ⟨0x40002008, 16, 3, .ro, 0x0⟩
def LSM_LAST_SOURCE : Fld := ⟨0x40002008, 0, 8, .ro, 0x0⟩
def LSM_DBG_CTL_HALTED_BY_PEER : Fld := ⟨0x4000200c, 8, 1, .ro, 0x0⟩
def LSM_DBG_CTL_HALT_OUT_EN : Fld := ⟨0x4000200c, 4, 1, .rw, 0x0⟩
def LSM_DBG_CTL_HALT_IN_MASK : Fld := ⟨0x4000200c, 0, 3, .rw, 0x0⟩
def LSM_RAWn_RAW (n : Nat) : Fld := ⟨0x40002040 + 0x4 * n, 0, 32, .w1c, 0x0⟩
def LSM_RTn_THRESH3 (n : Nat) : Fld := ⟨0x40002100 + 0x4 * n, 28, 4, .rwl, 0x0⟩
def LSM_RTn_CLASS3 (n : Nat) : Fld := ⟨0x40002100 + 0x4 * n, 24, 3, .rwl, 0x0⟩
def LSM_RTn_THRESH2 (n : Nat) : Fld := ⟨0x40002100 + 0x4 * n, 20, 4, .rwl, 0x0⟩
def LSM_RTn_CLASS2 (n : Nat) : Fld := ⟨0x40002100 + 0x4 * n, 16, 3, .rwl, 0x0⟩
def LSM_RTn_THRESH1 (n : Nat) : Fld := ⟨0x40002100 + 0x4 * n, 12, 4, .rwl, 0x0⟩
def LSM_RTn_CLASS1 (n : Nat) : Fld := ⟨0x40002100 + 0x4 * n, 8, 3, .rwl, 0x0⟩
def LSM_RTn_THRESH0 (n : Nat) : Fld := ⟨0x40002100 + 0x4 * n, 4, 4, .rwl, 0x0⟩
def LSM_RTn_CLASS0 (n : Nat) : Fld := ⟨0x40002100 + 0x4 * n, 0, 3, .rwl, 0x0⟩
def LSM_ECCm_CNT_UE_CNT (m : Nat) : Fld := ⟨0x40002c00 + 0x8 * m, 24, 8, .ro, 0x0⟩
def LSM_ECCm_CNT_CE_CNT (m : Nat) : Fld := ⟨0x40002c00 + 0x8 * m, 0, 24, .ro, 0x0⟩
def LSM_ECCm_ADDR_ADDR (m : Nat) : Fld := ⟨0x40002c04 + 0x8 * m, 2, 30, .ro, 0x0⟩
def LSM_ECCm_ADDR_UE (m : Nat) : Fld := ⟨0x40002c04 + 0x8 * m, 1, 1, .ro, 0x0⟩
def LSM_ECCm_ADDR_VALID (m : Nat) : Fld := ⟨0x40002c04 + 0x8 * m, 0, 1, .ro, 0x0⟩
def LSM_ECC_CLR_CLR : Fld := ⟨0x40002c80, 0, 10, .wo, 0x0⟩
def LMMU_CTL_LOCK : Fld := ⟨0x40003000, 0, 1, .w1s, 0x0⟩
def LMMU_INV_BUSY : Fld := ⟨0x40003004, 31, 1, .ro, 0x0⟩
def LMMU_INV_SCOPE : Fld := ⟨0x40003004, 16, 2, .wo, 0x0⟩
def LMMU_INV_CTX : Fld := ⟨0x40003004, 8, 6, .wo, 0x0⟩
def LMMU_INV_IOVA_IOVA_PAGE : Fld := ⟨0x40003008, 12, 20, .rw, 0x0⟩
def LMMU_FLT_STAT_VALID : Fld := ⟨0x40003010, 31, 1, .ro, 0x0⟩
def LMMU_FLT_STAT_KIND : Fld := ⟨0x40003010, 28, 3, .ro, 0x0⟩
def LMMU_FLT_STAT_STATUS : Fld := ⟨0x40003010, 27, 1, .ro, 0x0⟩
def LMMU_FLT_STAT_WRITE : Fld := ⟨0x40003010, 26, 1, .ro, 0x0⟩
def LMMU_FLT_STAT_ROLE : Fld := ⟨0x40003010, 22, 4, .ro, 0x0⟩
def LMMU_FLT_STAT_CTX : Fld := ⟨0x40003010, 16, 6, .ro, 0x0⟩
def LMMU_FLT_STAT_FLT_CNT : Fld := ⟨0x40003010, 0, 8, .ro, 0x0⟩
def LMMU_FLT_IOVA_IOVA : Fld := ⟨0x40003014, 0, 32, .ro, 0x0⟩
def LMMU_FLT_CLR_CLR : Fld := ⟨0x40003018, 0, 1, .wo, 0x0⟩
def LMMU_CTXc_ROOT_ROOT (c : Nat) : Fld := ⟨0x40003100 + 0x8 * c, 12, 20, .rwl, 0x0⟩
def LMMU_CTXc_ROOT_CLASS (c : Nat) : Fld := ⟨0x40003100 + 0x8 * c, 2, 1, .rwl, 0x0⟩
def LMMU_CTXc_ROOT_EN (c : Nat) : Fld := ⟨0x40003100 + 0x8 * c, 0, 1, .rwl, 0x0⟩
def LMMU_CTXc_LIMIT_LIMIT (c : Nat) : Fld := ⟨0x40003104 + 0x8 * c, 0, 20, .rwl, 0x0⟩
def RINGn_BASE_BASE (n : Nat) : Fld := ⟨0x40004000 + 0x40 * n, 9, 23, .rwl, 0x0⟩
def RINGn_CFG_ENABLE (n : Nat) : Fld := ⟨0x40004004 + 0x40 * n, 31, 1, .rw, 0x0⟩
def RINGn_CFG_CFG_ERR (n : Nat) : Fld := ⟨0x40004004 + 0x40 * n, 30, 1, .w1c, 0x0⟩
def RINGn_CFG_ROLE (n : Nat) : Fld := ⟨0x40004004 + 0x40 * n, 20, 4, .rwl, 0x0⟩
def RINGn_CFG_PRIO (n : Nat) : Fld := ⟨0x40004004 + 0x40 * n, 16, 2, .rwl, 0x3⟩
def RINGn_CFG_LOG2SIZE (n : Nat) : Fld := ⟨0x40004004 + 0x40 * n, 0, 4, .rwl, 0x4⟩
def RINGn_PI_PI (n : Nat) : Fld := ⟨0x40004008 + 0x40 * n, 0, 16, .rw, 0x0⟩
def RINGn_CI_CI (n : Nat) : Fld := ⟨0x4000400c + 0x40 * n, 0, 16, .ro, 0x0⟩
def RINGn_STAT_HALTED (n : Nat) : Fld := ⟨0x40004010 + 0x40 * n, 31, 1, .ro, 0x0⟩
def RINGn_STAT_CAUSE (n : Nat) : Fld := ⟨0x40004010 + 0x40 * n, 28, 3, .ro, 0x0⟩
def RINGn_STAT_STWB_ERR (n : Nat) : Fld := ⟨0x40004010 + 0x40 * n, 23, 1, .w1c, 0x0⟩
def RINGn_STAT_DB_BACK (n : Nat) : Fld := ⟨0x40004010 + 0x40 * n, 22, 1, .w1c, 0x0⟩
def RINGn_STAT_DB_OVER (n : Nat) : Fld := ⟨0x40004010 + 0x40 * n, 21, 1, .w1c, 0x0⟩
def RINGn_STAT_BUSY (n : Nat) : Fld := ⟨0x40004010 + 0x40 * n, 20, 1, .ro, 0x0⟩
def RINGn_STAT_DB_REF_CNT (n : Nat) : Fld := ⟨0x40004010 + 0x40 * n, 0, 8, .ro, 0x0⟩
def RINGn_CTL_RESUME (n : Nat) : Fld := ⟨0x40004014 + 0x40 * n, 1, 1, .w1s, 0x0⟩
def RINGn_CTL_ABORT (n : Nat) : Fld := ⟨0x40004014 + 0x40 * n, 0, 1, .w1s, 0x0⟩
def RINGn_CTXLO_MASK (n : Nat) : Fld := ⟨0x40004018 + 0x40 * n, 0, 32, .rwl, 0x0⟩
def RINGn_CTXHI_MASK (n : Nat) : Fld := ⟨0x4000401c + 0x40 * n, 0, 32, .rwl, 0x0⟩
def RINGn_LAST_SEQ (n : Nat) : Fld := ⟨0x40004020 + 0x40 * n, 16, 16, .ro, 0x0⟩
def RINGn_LAST_ENGINE (n : Nat) : Fld := ⟨0x40004020 + 0x40 * n, 12, 4, .ro, 0x0⟩
def RINGn_LAST_ERR (n : Nat) : Fld := ⟨0x40004020 + 0x40 * n, 4, 8, .ro, 0x0⟩
def RINGn_LAST_STATE (n : Nat) : Fld := ⟨0x40004020 + 0x40 * n, 0, 4, .ro, 0x0⟩
def RING_CTL_LOCK : Fld := ⟨0x40004800, 0, 1, .w1s, 0x0⟩
def RING_ENGe_STAT_SLOT (e : Nat) : Fld := ⟨0x40004840 + 0x4 * e, 8, 4, .ro, 0x0⟩
def RING_ENGe_STAT_RUN (e : Nat) : Fld := ⟨0x40004840 + 0x4 * e, 6, 1, .ro, 0x0⟩
def RING_ENGe_STAT_RING (e : Nat) : Fld := ⟨0x40004840 + 0x4 * e, 0, 5, .ro, 0x0⟩
def TLS_STAT_RUN : Fld := ⟨0x40005000, 31, 1, .ro, 0x0⟩
def TLS_STAT_LOCKED : Fld := ⟨0x40005000, 30, 1, .ro, 0x0⟩
def TLS_STAT_HOLDOVER : Fld := ⟨0x40005000, 29, 1, .ro, 0x0⟩
def TLS_STAT_CYCLE : Fld := ⟨0x40005000, 8, 6, .ro, 0x0⟩
def TLS_STAT_BANK : Fld := ⟨0x40005000, 0, 3, .ro, 0x0⟩
def TLS_OFFSET_SEG : Fld := ⟨0x40005004, 18, 1, .ro, 0x0⟩
def TLS_OFFSET_OFFSET : Fld := ⟨0x40005004, 0, 18, .ro, 0x0⟩
def TLS_CKPT_NUM_CKPT : Fld := ⟨0x40005008, 0, 32, .ro, 0x0⟩
def TLS_IMG_STAT_REFUSE : Fld := ⟨0x4000500c, 24, 8, .ro, 0x0⟩
def TLS_IMG_STAT_FALLBACK : Fld := ⟨0x4000500c, 16, 1, .ro, 0x0⟩
def TLS_IMG_STAT_PENDING : Fld := ⟨0x4000500c, 8, 1, .ro, 0x0⟩
def TLS_IMG_STAT_PSLOT : Fld := ⟨0x4000500c, 4, 1, .ro, 0x0⟩
def TLS_IMG_STAT_ASLOT : Fld := ⟨0x4000500c, 0, 1, .ro, 0x0⟩
def TLS_IMG_DETAIL_OFFSET : Fld := ⟨0x40005010, 0, 32, .ro, 0xffffffff⟩
def TLS_IMG_VER_VERSION : Fld := ⟨0x40005014, 0, 32, .ro, 0x0⟩
def TLS_TIMING_TICK_CNT : Fld := ⟨0x40005018, 16, 16, .ro, 0x0⟩
def TLS_TIMING_CYCLE_US : Fld := ⟨0x40005018, 0, 16, .ro, 0x0⟩
def TLS_IMG_DGSTn_DGST (n : Nat) : Fld := ⟨0x40005020 + 0x4 * n, 0, 32, .ro, 0x0⟩
def TLS_ERR_BUSY_CNT : Fld := ⟨0x40005040, 24, 8, .ro, 0x0⟩
def TLS_ERR_LOST_CNT : Fld := ⟨0x40005040, 16, 8, .ro, 0x0⟩
def TLS_ERR_CUT_CNT : Fld := ⟨0x40005040, 8, 8, .ro, 0x0⟩
def TLS_ERR_MISS_CNT : Fld := ⟨0x40005040, 0, 8, .ro, 0x0⟩
def TLS_ERR_CLR_CLR : Fld := ⟨0x40005044, 0, 1, .wo, 0x0⟩
def TLS_MS_STAT_EXCL : Fld := ⟨0x40005800, 31, 1, .ro, 0x0⟩
def TLS_MS_STAT_PRELOAD_BUSY : Fld := ⟨0x40005800, 30, 1, .ro, 0x0⟩
def TLS_MS_STAT_NETUP : Fld := ⟨0x40005800, 20, 3, .ro, 0x0⟩
def TLS_MS_STAT_SUBSTATE : Fld := ⟨0x40005800, 16, 4, .ro, 0x0⟩
def TLS_MS_STAT_LANESET : Fld := ⟨0x40005800, 12, 3, .ro, 0x7⟩
def TLS_MS_STAT_MODE : Fld := ⟨0x40005800, 8, 3, .ro, 0x1⟩
def TLS_MS_STAT_POINT : Fld := ⟨0x40005800, 0, 7, .ro, 0x7f⟩
def TLS_MS_CKPT_CKPT : Fld := ⟨0x40005804, 0, 32, .ro, 0x0⟩
def TLS_MS_LAST_EDGE : Fld := ⟨0x40005808, 20, 3, .ro, 0x0⟩
def TLS_MS_LAST_KIND : Fld := ⟨0x40005808, 16, 3, .ro, 0x0⟩
def TLS_MS_LAST_TO : Fld := ⟨0x40005808, 8, 7, .ro, 0x7f⟩
def TLS_MS_LAST_FROM : Fld := ⟨0x40005808, 0, 7, .ro, 0x7f⟩
def TLS_MS_REJ_COUNT : Fld := ⟨0x4000580c, 24, 8, .ro, 0x0⟩
def TLS_MS_REJ_POINT : Fld := ⟨0x4000580c, 16, 7, .ro, 0x0⟩
def TLS_MS_REJ_REQ_CODE : Fld := ⟨0x4000580c, 8, 8, .ro, 0x0⟩
def TLS_MS_REJ_REASON : Fld := ⟨0x4000580c, 0, 8, .ro, 0x0⟩
def TLS_MS_REJ_CLR_CLR : Fld := ⟨0x40005810, 0, 1, .wo, 0x0⟩
def TLS_MS_CFG_NPOINTS : Fld := ⟨0x40005814, 8, 7, .ro, 0x0⟩
def TLS_MS_CFG_IMG_VALID : Fld := ⟨0x40005814, 7, 1, .ro, 0x0⟩
def TLS_MS_CFG_DECL : Fld := ⟨0x40005814, 1, 3, .ro, 0x0⟩
def TLS_MS_CFG_PAIR : Fld := ⟨0x40005814, 0, 1, .ro, 0x0⟩
def TLS_MS_BANKn_CURRENT (n : Nat) : Fld := ⟨0x40005820 + 0x4 * n, 12, 1, .ro, 0x0⟩
def TLS_MS_BANKn_STATE (n : Nat) : Fld := ⟨0x40005820 + 0x4 * n, 8, 2, .ro, 0x0⟩
def TLS_MS_BANKn_POINT (n : Nat) : Fld := ⟨0x40005820 + 0x4 * n, 0, 7, .ro, 0x7f⟩
def CLV_CTL_REINT : Fld := ⟨0x40006000, 0, 1, .w1s, 0x0⟩
def CLV_VEC_LEN_N_IN : Fld := ⟨0x40006004, 16, 9, .ro, 0x0⟩
def CLV_VEC_LEN_N_VOTE : Fld := ⟨0x40006004, 0, 7, .ro, 0x0⟩
def CLV_STAT_LANESET : Fld := ⟨0x40006008, 16, 3, .ro, 0x7⟩
def CLV_STAT_EXCL : Fld := ⟨0x40006008, 15, 1, .ro, 0x0⟩
def CLV_STAT_REINT_USED : Fld := ⟨0x40006008, 14, 1, .ro, 0x0⟩
def CLV_STAT_REINT_STATE : Fld := ⟨0x40006008, 12, 2, .ro, 0x0⟩
def CLV_STAT_UNRESOLVED : Fld := ⟨0x40006008, 11, 1, .ro, 0x0⟩
def CLV_STAT_SELF_FAIL : Fld := ⟨0x40006008, 10, 1, .ro, 0x0⟩
def CLV_STAT_USABLE : Fld := ⟨0x40006008, 0, 3, .ro, 0x0⟩
def CLV_MISM_WORD : Fld := ⟨0x4000600c, 24, 8, .ro, 0x0⟩
def CLV_MISM_MINORITY : Fld := ⟨0x4000600c, 16, 3, .ro, 0x0⟩
def CLV_MISM_SEQ : Fld := ⟨0x4000600c, 0, 16, .ro, 0x0⟩
def CLV_ERR_SPLIT_CNT : Fld := ⟨0x40006010, 24, 8, .ro, 0x0⟩
def CLV_ERR_LATE_CNT : Fld := ⟨0x40006010, 16, 8, .ro, 0x0⟩
def CLV_ERR_DROP_CNT : Fld := ⟨0x40006010, 8, 8, .ro, 0x0⟩
def CLV_ERR_MISM_CNT : Fld := ⟨0x40006010, 0, 8, .ro, 0x0⟩
def CLV_ERR_CLR_CLR : Fld := ⟨0x40006014, 0, 1, .wo, 0x0⟩
def LLK_LINKl_STAT_UP (l : Nat) : Fld := ⟨0x40007000 + 0x20 * l, 31, 1, .ro, 0x0⟩
def LLK_LINKl_STAT_TRAINED (l : Nat) : Fld := ⟨0x40007000 + 0x20 * l, 30, 1, .ro, 0x0⟩
def LLK_LINKl_STAT_PEER (l : Nat) : Fld := ⟨0x40007000 + 0x20 * l, 24, 2, .ro, 0x0⟩
def LLK_LINKl_STAT_CRC_CNT (l : Nat) : Fld := ⟨0x40007000 + 0x20 * l, 16, 8, .ro, 0x0⟩
def LLK_LINKl_STAT_MISS_CNT (l : Nat) : Fld := ⟨0x40007000 + 0x20 * l, 8, 8, .ro, 0x0⟩
def LLK_LINKl_STAT_TRAIN_CNT (l : Nat) : Fld := ⟨0x40007000 + 0x20 * l, 0, 8, .ro, 0x0⟩
def LLK_LINKl_CLR_CLR (l : Nat) : Fld := ⟨0x40007004 + 0x20 * l, 0, 1, .wo, 0x0⟩
def LLK_MBX_RX_VALID : Fld := ⟨0x40007040, 31, 1, .w1c, 0x0⟩
def LLK_MBX_RX_FROM : Fld := ⟨0x40007040, 30, 1, .ro, 0x0⟩
def LLK_MBX_RX_OVR : Fld := ⟨0x40007040, 29, 1, .w1c, 0x0⟩
def LLK_MBX_RX_LEN_W : Fld := ⟨0x40007040, 16, 13, .ro, 0x0⟩
def LLK_MBX_RX_OFF_W : Fld := ⟨0x40007040, 0, 12, .ro, 0x0⟩
def CDSP_STAT_STATE : Fld := ⟨0x40008000, 30, 2, .ro, 0x0⟩
def CDSP_STAT_HALTED : Fld := ⟨0x40008000, 29, 1, .ro, 0x0⟩
def CDSP_STAT_LSTOP : Fld := ⟨0x40008000, 28, 1, .ro, 0x0⟩
def CDSP_STAT_BANK : Fld := ⟨0x40008000, 27, 1, .ro, 0x0⟩
def CDSP_STAT_AGU : Fld := ⟨0x40008000, 26, 1, .ro, 0x0⟩
def CDSP_STAT_LDEPTH : Fld := ⟨0x40008000, 24, 2, .ro, 0x0⟩
def CDSP_STAT_TASK : Fld := ⟨0x40008000, 16, 8, .ro, 0x0⟩
def CDSP_STAT_IRQ_PEND : Fld := ⟨0x40008000, 8, 8, .ro, 0x0⟩
def CDSP_STAT_IRQ_ACT : Fld := ⟨0x40008000, 0, 3, .ro, 0x0⟩
def CDSP_TASK_LAST_END : Fld := ⟨0x40008004, 29, 3, .ro, 0x0⟩
def CDSP_TASK_LAST_TASK : Fld := ⟨0x40008004, 21, 8, .ro, 0x0⟩
def CDSP_TASK_LAST_CYCLES : Fld := ⟨0x40008004, 0, 21, .ro, 0x0⟩
def CDSP_ERR_OVR_CNT : Fld := ⟨0x40008008, 24, 8, .ro, 0x0⟩
def CDSP_ERR_ILL_CNT : Fld := ⟨0x40008008, 16, 8, .ro, 0x0⟩
def CDSP_ERR_IRQ_LOST_CNT : Fld := ⟨0x40008008, 8, 8, .ro, 0x0⟩
def CDSP_ERR_ADDR_CNT : Fld := ⟨0x40008008, 0, 8, .ro, 0x0⟩
def CDSP_ERR_CLR_CLR : Fld := ⟨0x4000800c, 0, 1, .wo, 0x0⟩
def CDSP_IRQ_LAT_MAX : Fld := ⟨0x40008010, 0, 16, .ro, 0x0⟩
def CDSP_DB_PEND : Fld := ⟨0x40008014, 31, 1, .ro, 0x0⟩
def CDSP_DB_VALUE : Fld := ⟨0x40008014, 0, 16, .wo, 0x0⟩
def CDSP_DBOUT_COUNT : Fld := ⟨0x40008018, 24, 8, .ro, 0x0⟩
def CDSP_DBOUT_CODE : Fld := ⟨0x40008018, 0, 8, .ro, 0x0⟩
def CDSP_CFG_NTASK : Fld := ⟨0x4000801c, 16, 9, .ro, 0x0⟩
def CDSP_CFG_IEN : Fld := ⟨0x4000801c, 8, 8, .ro, 0x0⟩
def CDSP_CFG_POLICY : Fld := ⟨0x4000801c, 1, 1, .ro, 0x0⟩
def CDSP_CFG_LOADED : Fld := ⟨0x4000801c, 0, 1, .ro, 0x0⟩
def CDSP_DBG_CTL_HALTED : Fld := ⟨0x40008020, 31, 1, .ro, 0x0⟩
def CDSP_DBG_CTL_STEP : Fld := ⟨0x40008020, 2, 1, .w1s, 0x0⟩
def CDSP_DBG_CTL_RESUME : Fld := ⟨0x40008020, 1, 1, .w1s, 0x0⟩
def CDSP_DBG_CTL_HALT : Fld := ⟨0x40008020, 0, 1, .w1s, 0x0⟩
def CDSP_DBG_PC_PC : Fld := ⟨0x40008024, 0, 17, .ro, 0x0⟩
def CDSP_DBG_RSEL_PART : Fld := ⟨0x40008028, 8, 2, .rw, 0x0⟩
def CDSP_DBG_RSEL_BANK : Fld := ⟨0x40008028, 7, 1, .rw, 0x0⟩
def CDSP_DBG_RSEL_REG : Fld := ⟨0x40008028, 0, 6, .rw, 0x0⟩
def CDSP_DBG_RDATA_DATA : Fld := ⟨0x4000802c, 0, 32, .ro, 0x0⟩
def LPE_STAT_RUN : Fld := ⟨0x40009000, 31, 1, .ro, 0x0⟩
def LPE_STAT_FORCED_OFF : Fld := ⟨0x40009000, 30, 1, .ro, 0x0⟩
def LPE_STAT_SLOT : Fld := ⟨0x40009000, 8, 6, .ro, 0x0⟩
def LPE_STAT_LOADED : Fld := ⟨0x40009000, 0, 1, .ro, 0x0⟩
def LPE_PSEL_BASE : Fld := ⟨0x40009004, 0, 16, .ro, 0x0⟩
def LPE_ENLO_ACT : Fld := ⟨0x40009008, 0, 32, .ro, 0x0⟩
def LPE_ENHI_ACT : Fld := ⟨0x4000900c, 0, 32, .ro, 0x0⟩
def LPE_SATn_SAT (n : Nat) : Fld := ⟨0x40009010 + 0x4 * n, 0, 32, .w1c, 0x0⟩
def LPE_TRIPn_TRIP (n : Nat) : Fld := ⟨0x40009018 + 0x4 * n, 0, 32, .w1c, 0x0⟩
def LPE_ERR_STALE_CNT : Fld := ⟨0x40009020, 24, 8, .ro, 0x0⟩
def LPE_ERR_MEM_CNT : Fld := ⟨0x40009020, 16, 8, .ro, 0x0⟩
def LPE_ERR_TRIP_CNT : Fld := ⟨0x40009020, 8, 8, .ro, 0x0⟩
def LPE_ERR_SAT_CNT : Fld := ⟨0x40009020, 0, 8, .ro, 0x0⟩
def LPE_ERR_CLR_CLR : Fld := ⟨0x40009024, 0, 1, .wo, 0x0⟩
def MEe_CTL_LOCK (e : Nat) : Fld := ⟨0x4000a000 + 0x1000 * e, 0, 1, .w1s, 0x0⟩
def MEe_STAT_FORCED (e : Nat) : Fld := ⟨0x4000a004 + 0x1000 * e, 31, 1, .ro, 0x0⟩
def MEe_STAT_AVAIL (e : Nat) : Fld := ⟨0x4000a004 + 0x1000 * e, 30, 1, .ro, 0x0⟩
def MEe_STAT_REGEN (e : Nat) : Fld := ⟨0x4000a004 + 0x1000 * e, 29, 1, .ro, 0x0⟩
def MEe_STAT_CHOP_REQ (e : Nat) : Fld := ⟨0x4000a004 + 0x1000 * e, 28, 1, .ro, 0x0⟩
def MEe_STAT_REC_CNT (e : Nat) : Fld := ⟨0x4000a004 + 0x1000 * e, 26, 2, .ro, 0x0⟩
def MEe_STAT_SAFE (e : Nat) : Fld := ⟨0x4000a004 + 0x1000 * e, 24, 2, .ro, 0x0⟩
def MEe_STAT_RAMP (e : Nat) : Fld := ⟨0x4000a004 + 0x1000 * e, 23, 1, .ro, 0x0⟩
def MEe_STAT_LOADED (e : Nat) : Fld := ⟨0x4000a004 + 0x1000 * e, 22, 1, .ro, 0x0⟩
def MEe_STAT_REGIME (e : Nat) : Fld := ⟨0x4000a004 + 0x1000 * e, 0, 4, .ro, 0x0⟩
def MEe_THETA_VALUE (e : Nat) : Fld := ⟨0x4000a008 + 0x1000 * e, 0, 32, .ro, 0x0⟩
def MEe_OMEGA_VALUE (e : Nat) : Fld := ⟨0x4000a00c + 0x1000 * e, 0, 32, .ro, 0x0⟩
def MEe_ID_VALUE (e : Nat) : Fld := ⟨0x4000a010 + 0x1000 * e, 0, 32, .ro, 0x0⟩
def MEe_IQ_VALUE (e : Nat) : Fld := ⟨0x4000a014 + 0x1000 * e, 0, 32, .ro, 0x0⟩
def MEe_VD_VALUE (e : Nat) : Fld := ⟨0x4000a018 + 0x1000 * e, 0, 32, .ro, 0x0⟩
def MEe_VQ_VALUE (e : Nat) : Fld := ⟨0x4000a01c + 0x1000 * e, 0, 32, .ro, 0x0⟩
def MEe_VDC_VALUE (e : Nat) : Fld := ⟨0x4000a020 + 0x1000 * e, 0, 32, .ro, 0x0⟩
def MEe_IDFW_VALUE (e : Nat) : Fld := ⟨0x4000a024 + 0x1000 * e, 0, 32, .ro, 0x0⟩
def MEe_EMAG_VALUE (e : Nat) : Fld := ⟨0x4000a028 + 0x1000 * e, 0, 32, .ro, 0x0⟩
def MEe_EVSEL_CDSP (e : Nat) : Fld := ⟨0x4000a030 + 0x1000 * e, 16, 7, .rw, 0x0⟩
def MEe_EVSEL_PLIC (e : Nat) : Fld := ⟨0x4000a030 + 0x1000 * e, 0, 7, .rw, 0x0⟩
def MEe_EVSTAT_EV (e : Nat) : Fld := ⟨0x4000a034 + 0x1000 * e, 0, 7, .w1c, 0x0⟩
def MEe_GDF_HS_BAD (e : Nat) : Fld := ⟨0x4000a038 + 0x1000 * e, 1, 1, .rw, 0x0⟩
def MEe_GDF_LS_BAD (e : Nat) : Fld := ⟨0x4000a038 + 0x1000 * e, 0, 1, .rw, 0x0⟩
def MEe_ERR_OC_CNT (e : Nat) : Fld := ⟨0x4000a03c + 0x1000 * e, 24, 8, .ro, 0x0⟩
def MEe_ERR_STALE_CNT (e : Nat) : Fld := ⟨0x4000a03c + 0x1000 * e, 16, 8, .ro, 0x0⟩
def MEe_ERR_CAPFAIL_CNT (e : Nat) : Fld := ⟨0x4000a03c + 0x1000 * e, 8, 8, .ro, 0x0⟩
def MEe_ERR_SAT_CNT (e : Nat) : Fld := ⟨0x4000a03c + 0x1000 * e, 0, 8, .ro, 0x0⟩
def MEe_ERR_CLR_CLR (e : Nat) : Fld := ⟨0x4000a040 + 0x1000 * e, 0, 1, .wo, 0x0⟩
def MEe_CALk_OFF_OFF (e : Nat) (k : Nat) : Fld := ⟨0x4000a080 + 0x1000 * e + 0x8 * k, 0, 32, .rwl, 0x0⟩
def MEe_CALk_GAIN_GAIN (e : Nat) (k : Nat) : Fld := ⟨0x4000a084 + 0x1000 * e + 0x8 * k, 0, 32, .rwl, 0x7fffffff⟩
def MEe_CALSH_SH (e : Nat) : Fld := ⟨0x4000a0c0 + 0x1000 * e, 0, 28, .rwl, 0x0⟩
def MEe_REFr_VALUE (e : Nat) (r : Nat) : Fld := ⟨0x4000a100 + 0x1000 * e + 0x4 * r, 0, 32, .ro, 0x0⟩
def PWMn_CFG_SRC (n : Nat) : Fld := ⟨0x4000c000 + 0x100 * n, 9, 1, .rwl, 0x0⟩
def PWMn_CFG_PAIRING (n : Nat) : Fld := ⟨0x4000c000 + 0x100 * n, 8, 1, .rwl, if n = 2 then 1 else 0⟩
def PWMn_CFG_EN (n : Nat) : Fld := ⟨0x4000c000 + 0x100 * n, 0, 1, .rw, 0x0⟩
def PWMn_PER_PRESC (n : Nat) : Fld := ⟨0x4000c004 + 0x100 * n, 16, 8, .rw, 0x0⟩
def PWMn_PER_PER (n : Nat) : Fld := ⟨0x4000c004 + 0x100 * n, 0, 16, .rw, 0x1388⟩
def PWMn_COMMIT_COMMIT (n : Nat) : Fld := ⟨0x4000c008 + 0x100 * n, 0, 1, .wo, 0x0⟩
def PWMn_STAT_ALIGNED (n : Nat) : Fld := ⟨0x4000c00c + 0x100 * n, 31, 1, .ro, 0x0⟩
def PWMn_STAT_PENDING (n : Nat) : Fld := ⟨0x4000c00c + 0x100 * n, 30, 1, .ro, 0x0⟩
def PWMn_STAT_SAFE_ACT (n : Nat) : Fld := ⟨0x4000c00c + 0x100 * n, 29, 1, .ro, 0x0⟩
def PWMn_STAT_RANGE_ERR (n : Nat) : Fld := ⟨0x4000c00c + 0x100 * n, 28, 1, .w1c, 0x0⟩
def PWMn_STAT_PAIR_ERR (n : Nat) : Fld := ⟨0x4000c00c + 0x100 * n, 27, 1, .w1c, 0x0⟩
def PWMn_STAT_LAST_EPOCH (n : Nat) : Fld := ⟨0x4000c00c + 0x100 * n, 8, 8, .ro, 0x0⟩
def PWMn_STAT_CUR_EPOCH (n : Nat) : Fld := ⟨0x4000c00c + 0x100 * n, 0, 8, .ro, 0x0⟩
def PWMn_CMPk_CMP (n : Nat) (k : Nat) : Fld := ⟨0x4000c010 + 0x100 * n + 0x4 * k, 0, 16, .rw, 0x0⟩
def PWMn_WSC_CH (n : Nat) : Fld := ⟨0x4000c028 + 0x100 * n, 7, 8, .ro, 0x0⟩
def PWMn_WSC_CMP (n : Nat) : Fld := ⟨0x4000c028 + 0x100 * n, 1, 6, .ro, 0x0⟩
def PWMn_WSC_PER (n : Nat) : Fld := ⟨0x4000c028 + 0x100 * n, 0, 1, .ro, 0x0⟩
def PWMn_EVCFG_TRG (n : Nat) : Fld := ⟨0x4000c02c + 0x100 * n, 8, 8, .rw, 0x0⟩
def PWMn_EVCFG_IRQ (n : Nat) : Fld := ⟨0x4000c02c + 0x100 * n, 0, 8, .rw, 0x0⟩
def PWMn_EVSTAT_EV (n : Nat) : Fld := ⟨0x4000c030 + 0x100 * n, 0, 8, .w1c, 0x0⟩
def PWMn_ALIGN_ERR (n : Nat) : Fld := ⟨0x4000c034 + 0x100 * n, 16, 16, .ro, 0x0⟩
def PWMn_ALIGN_TOL (n : Nat) : Fld := ⟨0x4000c034 + 0x100 * n, 8, 8, .rw, 0x14⟩
def PWMn_ALIGN_SLEW (n : Nat) : Fld := ⟨0x4000c034 + 0x100 * n, 0, 8, .rw, 0x14⟩
def PWMn_OUT_DT (n : Nat) : Fld := ⟨0x4000c038 + 0x100 * n, 24, 8, .rwl, 0x0⟩
def PWMn_OUT_POL (n : Nat) : Fld := ⟨0x4000c038 + 0x100 * n, 8, 8, .rwl, 0x0⟩
def PWMn_OUT_SAFE (n : Nat) : Fld := ⟨0x4000c038 + 0x100 * n, 0, 8, .rwl, 0x0⟩
def PWMn_CNT_CNT (n : Nat) : Fld := ⟨0x4000c03c + 0x100 * n, 0, 16, .ro, 0x0⟩
def PWMn_ERR_REF_CNT (n : Nat) : Fld := ⟨0x4000c040 + 0x100 * n, 24, 8, .ro, 0x0⟩
def PWMn_ERR_SUP_CNT (n : Nat) : Fld := ⟨0x4000c040 + 0x100 * n, 16, 8, .ro, 0x0⟩
def PWMn_ERR_ALIGN_CNT (n : Nat) : Fld := ⟨0x4000c040 + 0x100 * n, 8, 8, .ro, 0x0⟩
def PWMn_ERR_IGN_CNT (n : Nat) : Fld := ⟨0x4000c040 + 0x100 * n, 0, 8, .ro, 0x0⟩
def PWMn_ERR_CLR_CLR (n : Nat) : Fld := ⟨0x4000c044 + 0x100 * n, 0, 1, .wo, 0x0⟩
def PWM2_CHk_CH (k : Nat) : Fld := ⟨0x4000c280 + 0x4 * k, 0, 16, .rw, 0x0⟩
def PWM_CTL_LOCK : Fld := ⟨0x4000c800, 0, 1, .w1s, 0x0⟩
def PWM_MON_CLKSTOP : Fld := ⟨0x4000c804, 0, 1, .ro, 0x0⟩
def VDU_CTL_LOCK : Fld := ⟨0x4000d000, 0, 1, .w1s, 0x0⟩
def VDU_CHk_CFG_ILIM_EN (k : Nat) : Fld := ⟨0x4000d010 + 0x10 * k, 31, 1, .rwl, 0x0⟩
def VDU_CHk_CFG_ILIM (k : Nat) : Fld := ⟨0x4000d010 + 0x10 * k, 16, 14, .rwl, 0x3fff⟩
def VDU_CHk_DMAX_DMAX (k : Nat) : Fld := ⟨0x4000d014 + 0x10 * k, 0, 32, .rwl, 0x7fffffff⟩
def VDU_CHk_SP_SP (k : Nat) : Fld := ⟨0x4000d018 + 0x10 * k, 0, 32, .ro, 0x0⟩
def VDU_CHk_STAT_EN (k : Nat) : Fld := ⟨0x4000d01c + 0x10 * k, 31, 1, .ro, 0x0⟩
def VDU_CHk_STAT_OC (k : Nat) : Fld := ⟨0x4000d01c + 0x10 * k, 30, 1, .w1c, 0x0⟩
def VDU_CHk_STAT_CH (k : Nat) : Fld := ⟨0x4000d01c + 0x10 * k, 0, 16, .ro, 0x0⟩
def VDU_ERR_OC_CNT : Fld := ⟨0x4000d0a0, 0, 8, .ro, 0x0⟩
def VDU_ERR_CLR_CLR : Fld := ⟨0x4000d0a4, 0, 1, .wo, 0x0⟩
def VDU_CHk_HOLD_HOLD (k : Nat) : Fld := ⟨0x4000d100 + 0x4 * k, 0, 32, .ro, 0x0⟩
def DEI_CTL_LOCK : Fld := ⟨0x4000e000, 0, 1, .w1s, 0x0⟩
def DEI_GRPg_CTL_MCOUNT (g : Nat) : Fld := ⟨0x4000e010 + 0x10 * g, 16, 9, .rwl, 0x0⟩
def DEI_GRPg_CTL_ORDER (g : Nat) : Fld := ⟨0x4000e010 + 0x10 * g, 8, 6, .rwl, 0x0⟩
def DEI_GRPg_CTL_CHMASK (g : Nat) : Fld := ⟨0x4000e010 + 0x10 * g, 0, 8, .rwl, 0x0⟩
def DEI_GRPg_STAT_OWN (g : Nat) : Fld := ⟨0x4000e014 + 0x10 * g, 31, 1, .ro, 0x0⟩
def DEI_GRPg_STAT_DRIVE (g : Nat) : Fld := ⟨0x4000e014 + 0x10 * g, 30, 1, .ro, 0x0⟩
def DEI_GRPg_STAT_MIR_VALID (g : Nat) : Fld := ⟨0x4000e014 + 0x10 * g, 29, 1, .ro, 0x0⟩
def DEI_GRPg_STAT_STATE (g : Nat) : Fld := ⟨0x4000e014 + 0x10 * g, 26, 3, .ro, 0x0⟩
def DEI_GRPg_STAT_OWNER (g : Nat) : Fld := ⟨0x4000e014 + 0x10 * g, 24, 2, .ro, 0x3⟩
def DEI_GRPg_STAT_CLAIMS (g : Nat) : Fld := ⟨0x4000e014 + 0x10 * g, 21, 3, .ro, 0x0⟩
def DEI_GRPg_ERR_CONF_CNT (g : Nat) : Fld := ⟨0x4000e018 + 0x10 * g, 24, 8, .ro, 0x0⟩
def DEI_GRPg_ERR_MIR_ERR_CNT (g : Nat) : Fld := ⟨0x4000e018 + 0x10 * g, 16, 8, .ro, 0x0⟩
def DEI_GRPg_ERR_TAKE_CNT (g : Nat) : Fld := ⟨0x4000e018 + 0x10 * g, 8, 8, .ro, 0x0⟩
def DEI_GRPg_ERR_COLL_CNT (g : Nat) : Fld := ⟨0x4000e018 + 0x10 * g, 0, 8, .ro, 0x0⟩
def DEI_EVSTAT_EV : Fld := ⟨0x4000e060, 0, 16, .w1c, 0x0⟩
def DEI_EVEN_EV : Fld := ⟨0x4000e064, 0, 16, .rw, 0x0⟩
def DEI_ERR_CLR_CLR : Fld := ⟨0x4000e068, 0, 1, .wo, 0x0⟩
def ADC_STAT_SEQ1 : Fld := ⟨0x4000f000, 16, 6, .ro, 0x0⟩
def ADC_STAT_SEQ0 : Fld := ⟨0x4000f000, 8, 6, .ro, 0x0⟩
def ADC_STAT_BUSY : Fld := ⟨0x4000f000, 0, 2, .ro, 0x0⟩
def ADC_SEQCNT_CNT1 : Fld := ⟨0x4000f004, 16, 16, .ro, 0x0⟩
def ADC_SEQCNT_CNT0 : Fld := ⟨0x4000f004, 0, 16, .ro, 0x0⟩
def ADC_ERR_CONV_CNT : Fld := ⟨0x4000f008, 0, 8, .ro, 0x0⟩
def ADC_ERR_CLR_CLR : Fld := ⟨0x4000f00c, 0, 1, .wo, 0x0⟩
def ADC_RESn_VALID (n : Nat) : Fld := ⟨0x4000f100 + 0x4 * n, 31, 1, .ro, 0x0⟩
def ADC_RESn_CODE (n : Nat) : Fld := ⟨0x4000f100 + 0x4 * n, 16, 14, .ro, 0x0⟩
def ADC_RESn_TAG (n : Nat) : Fld := ⟨0x4000f100 + 0x4 * n, 0, 16, .ro, 0x0⟩
def NTE_STAT_RUN : Fld := ⟨0x40010000, 31, 1, .ro, 0x0⟩
def NTE_STAT_NULLING : Fld := ⟨0x40010000, 30, 1, .ro, 0x0⟩
def NTE_STAT_NET : Fld := ⟨0x40010000, 28, 2, .ro, 0x0⟩
def NTE_STAT_NSIG : Fld := ⟨0x40010000, 0, 18, .ro, 0x0⟩
def NTE_RXERR0_CRC_CNT : Fld := ⟨0x40010010, 24, 8, .ro, 0x0⟩
def NTE_RXERR0_GAP_CNT : Fld := ⟨0x40010010, 16, 8, .ro, 0x0⟩
def NTE_RXERR0_TMO_CNT : Fld := ⟨0x40010010, 8, 8, .ro, 0x0⟩
def NTE_RXERR0_SHORT_CNT : Fld := ⟨0x40010010, 0, 8, .ro, 0x0⟩
def NTE_RXERR1_NULL_CNT : Fld := ⟨0x40010014, 24, 8, .ro, 0x0⟩
def NTE_RXERR1_REPEAT_CNT : Fld := ⟨0x40010014, 16, 8, .ro, 0x0⟩
def NTE_RXERR1_TXNULL_CNT : Fld := ⟨0x40010014, 8, 8, .ro, 0x0⟩
def NTE_RXERR1_LATE_TX_CNT : Fld := ⟨0x40010014, 0, 8, .ro, 0x0⟩
def NTE_ERR_CLR_CLR : Fld := ⟨0x40010018, 0, 1, .wo, 0x0⟩
def NTE_LAST_KIND : Fld := ⟨0x4001001c, 24, 8, .ro, 0x0⟩
def NTE_LAST_SIGNAL : Fld := ⟨0x4001001c, 0, 17, .ro, 0x0⟩
def NTE_EVSTAT_ERR : Fld := ⟨0x40010020, 2, 1, .w1c, 0x0⟩
def NTE_EVSTAT_RX : Fld := ⟨0x40010020, 1, 1, .w1c, 0x0⟩
def NTE_EVSTAT_CYC : Fld := ⟨0x40010020, 0, 1, .w1c, 0x0⟩
def NTE_EVEN_ERR : Fld := ⟨0x40010024, 2, 1, .rw, 0x0⟩
def NTE_EVEN_RX : Fld := ⟨0x40010024, 1, 1, .rw, 0x0⟩
def NTE_EVEN_CYC : Fld := ⟨0x40010024, 0, 1, .rw, 0x0⟩
def NTE_TIME_STAT_SYNCED : Fld := ⟨0x40010800, 31, 1, .ro, 0x0⟩
def NTE_TIME_STAT_LEAD : Fld := ⟨0x40010800, 30, 1, .ro, 0x0⟩
def NTE_TIME_STAT_SRC : Fld := ⟨0x40010800, 28, 2, .ro, 0x0⟩
def NTE_TIME_STAT_SRC_PORT : Fld := ⟨0x40010800, 24, 4, .ro, 0x0⟩
def NTE_TIME_STAT_CS_STATE : Fld := ⟨0x40010800, 20, 4, .ro, 0x0⟩
def NTE_TIME_STAT_HEARD_RANK : Fld := ⟨0x40010800, 0, 16, .ro, 0xffff⟩
def NTE_LTIME_LO_VALUE : Fld := ⟨0x40010804, 0, 32, .ro, 0x0⟩
def NTE_LTIME_HI_VALUE : Fld := ⟨0x40010808, 0, 32, .ro, 0x0⟩
def NTE_NT_LO_VALUE : Fld := ⟨0x4001080c, 0, 32, .ro, 0x0⟩
def NTE_NT_HI_VALUE : Fld := ⟨0x40010810, 0, 32, .ro, 0x0⟩
def NTE_MTICK_VALUE : Fld := ⟨0x40010814, 0, 32, .ro, 0x0⟩
def NTE_RATE_VALUE : Fld := ⟨0x40010818, 0, 32, .ro, 0x0⟩
def NTE_LANEOFS_PREV : Fld := ⟨0x4001081c, 16, 16, .ro, 0x0⟩
def NTE_LANEOFS_NEXT : Fld := ⟨0x4001081c, 0, 16, .ro, 0x0⟩
def NTE_TRUNKOFS_VALUE : Fld := ⟨0x40010820, 0, 32, .ro, 0x0⟩
def NTE_CS_ERR_COLL_CNT : Fld := ⟨0x40010824, 24, 8, .ro, 0x0⟩
def NTE_CS_ERR_ABANDON_CNT : Fld := ⟨0x40010824, 16, 8, .ro, 0x0⟩
def NTE_CS_ERR_CLREF_CNT : Fld := ⟨0x40010824, 8, 8, .ro, 0x0⟩
def NTE_CS_ERR_TLOST_CNT : Fld := ⟨0x40010824, 0, 8, .ro, 0x0⟩
def NTE_CLAIM_LAST_NODE_ID : Fld := ⟨0x40010828, 24, 8, .ro, 0x0⟩
def NTE_CLAIM_LAST_PORT : Fld := ⟨0x40010828, 20, 4, .ro, 0x0⟩
def NTE_CLAIM_LAST_RESULT : Fld := ⟨0x40010828, 16, 4, .ro, 0x0⟩
def NTE_CLAIM_LAST_CLASS : Fld := ⟨0x40010828, 8, 8, .ro, 0x0⟩
def NTE_CLAIM_LAST_COUNT : Fld := ⟨0x40010828, 0, 8, .ro, 0x0⟩
def NTE_CLAIM_TX_GO : Fld := ⟨0x4001082c, 31, 1, .w1s, 0x0⟩
def NTE_CLAIM_TX_RESULT : Fld := ⟨0x4001082c, 24, 4, .ro, 0x0⟩
def NTE_CLAIM_TX_CLASS : Fld := ⟨0x4001082c, 16, 8, .rw, 0x0⟩
def NTE_CLAIM_TX_COUNT : Fld := ⟨0x4001082c, 8, 8, .rw, 0x0⟩
def NTE_CLAIM_IDk_LOW (k : Nat) : Fld := ⟨0x40010830 + 0x4 * k, 0, 16, .rw, 0x0⟩
def NTE_CLAIM_IDk_HIGH (k : Nat) : Fld := ⟨0x40010830 + 0x4 * k, 16, 16, .rw, 0x0⟩
def NTE_TERR_CLR_CLR : Fld := ⟨0x40010850, 0, 1, .wo, 0x0⟩
def NTE_SVIEWp_DRIFT_WARN (p : Nat) : Fld := ⟨0x40010880 + 0x4 * p, 31, 1, .ro, 0x0⟩
def NTE_SVIEWp_ISO (p : Nat) : Fld := ⟨0x40010880 + 0x4 * p, 30, 1, .ro, 0x0⟩
def NTE_SVIEWp_PROB (p : Nat) : Fld := ⟨0x40010880 + 0x4 * p, 29, 1, .ro, 0x0⟩
def NTE_SVIEWp_REINT_CNT (p : Nat) : Fld := ⟨0x40010880 + 0x4 * p, 24, 2, .ro, 0x0⟩
def NTE_SVIEWp_DRIFT_CNT (p : Nat) : Fld := ⟨0x40010880 + 0x4 * p, 16, 8, .ro, 0x0⟩
def NTE_SVIEWp_OFS (p : Nat) : Fld := ⟨0x40010880 + 0x4 * p, 0, 16, .ro, 0x0⟩
def SSG_STAT_RUN : Fld := ⟨0x40011000, 31, 1, .ro, 0x0⟩
def SSG_STAT_NET : Fld := ⟨0x40011000, 28, 2, .ro, 0x0⟩
def SSG_STAT_LINK : Fld := ⟨0x40011000, 16, 12, .ro, 0x0⟩
def SSG_STAT_ISO : Fld := ⟨0x40011000, 0, 12, .ro, 0x0⟩
def SSG_CFG_BABBLE_LIM : Fld := ⟨0x40011004, 16, 8, .ro, 0x0⟩
def SSG_CFG_EK3_NODE : Fld := ⟨0x40011004, 0, 8, .ro, 0x0⟩
def SSG_NREC_NREC : Fld := ⟨0x40011008, 0, 17, .ro, 0x0⟩
def SSG_EVSTAT_EV : Fld := ⟨0x40011010, 0, 9, .w1c, 0x0⟩
def SSG_EVEN_EV : Fld := ⟨0x40011014, 0, 9, .rw, 0x0⟩
def SSG_ERR_CLR_CLR : Fld := ⟨0x40011018, 0, 1, .wo, 0x0⟩
def SSG_PORTp_STAT_LINK (p : Nat) : Fld := ⟨0x40011100 + 0x20 * p, 31, 1, .ro, 0x0⟩
def SSG_PORTp_STAT_ISO (p : Nat) : Fld := ⟨0x40011100 + 0x20 * p, 30, 1, .ro, 0x0⟩
def SSG_PORTp_STAT_ROLE (p : Nat) : Fld := ⟨0x40011100 + 0x20 * p, 28, 2, .ro, 0x0⟩
def SSG_PORTp_STAT_MS (p : Nat) : Fld := ⟨0x40011100 + 0x20 * p, 27, 1, .ro, 0x0⟩
def SSG_PORTp_STAT_BAB_CNT (p : Nat) : Fld := ⟨0x40011100 + 0x20 * p, 16, 8, .ro, 0x0⟩
def SSG_PORTp_STAT_ADM_CNT (p : Nat) : Fld := ⟨0x40011100 + 0x20 * p, 0, 16, .ro, 0x0⟩
def SSG_PORTp_ERR0_EARLY_CNT (p : Nat) : Fld := ⟨0x40011104 + 0x20 * p, 24, 8, .ro, 0x0⟩
def SSG_PORTp_ERR0_LATE_CNT (p : Nat) : Fld := ⟨0x40011104 + 0x20 * p, 16, 8, .ro, 0x0⟩
def SSG_PORTp_ERR0_TRUNC_CNT (p : Nat) : Fld := ⟨0x40011104 + 0x20 * p, 8, 8, .ro, 0x0⟩
def SSG_PORTp_ERR0_LEN_CNT (p : Nat) : Fld := ⟨0x40011104 + 0x20 * p, 0, 8, .ro, 0x0⟩
def SSG_PORTp_ERR1_HDR_CNT (p : Nat) : Fld := ⟨0x40011108 + 0x20 * p, 24, 8, .ro, 0x0⟩
def SSG_PORTp_ERR1_UNSCHED_CNT (p : Nat) : Fld := ⟨0x40011108 + 0x20 * p, 16, 8, .ro, 0x0⟩
def SSG_PORTp_ERR1_FRAME_CNT (p : Nat) : Fld := ⟨0x40011108 + 0x20 * p, 8, 8, .ro, 0x0⟩
def SSG_PORTp_ERR1_DOWN_CNT (p : Nat) : Fld := ⟨0x40011108 + 0x20 * p, 0, 8, .ro, 0x0⟩
def SSG_PORTp_LAST_SLOT (p : Nat) : Fld := ⟨0x4001110c + 0x20 * p, 16, 16, .ro, 0x0⟩
def SSG_PORTp_LAST_KIND (p : Nat) : Fld := ⟨0x4001110c + 0x20 * p, 0, 3, .ro, 0x0⟩
def CGW_CHc_CFG_EN (c : Nat) : Fld := ⟨0x40012000 + 0x100 * c, 31, 1, .rw, 0x0⟩
def CGW_CHc_CFG_ISO (c : Nat) : Fld := ⟨0x40012000 + 0x100 * c, 30, 1, .rwl, 0x0⟩
def CGW_CHc_CFG_FD (c : Nat) : Fld := ⟨0x40012000 + 0x100 * c, 29, 1, .rwl, 0x0⟩
def CGW_CHc_CFG_PREF (c : Nat) : Fld := ⟨0x40012000 + 0x100 * c, 16, 8, .rwl, 0xfe⟩
def CGW_CHc_CFG_AMAX (c : Nat) : Fld := ⟨0x40012000 + 0x100 * c, 8, 8, .rwl, 0x0⟩
def CGW_CHc_CFG_AMIN (c : Nat) : Fld := ⟨0x40012000 + 0x100 * c, 0, 8, .rwl, 0x0⟩
def CGW_CHc_NBT_NBRP (c : Nat) : Fld := ⟨0x40012004 + 0x100 * c, 23, 9, .rwl, 0x3⟩
def CGW_CHc_NBT_NTSEG1 (c : Nat) : Fld := ⟨0x40012004 + 0x100 * c, 15, 8, .rwl, 0x3e⟩
def CGW_CHc_NBT_NTSEG2 (c : Nat) : Fld := ⟨0x40012004 + 0x100 * c, 8, 7, .rwl, 0xf⟩
def CGW_CHc_NBT_NSJW (c : Nat) : Fld := ⟨0x40012004 + 0x100 * c, 0, 7, .rwl, 0xf⟩
def CGW_CHc_DBT_TDC (c : Nat) : Fld := ⟨0x40012008 + 0x100 * c, 31, 1, .rwl, 0x1⟩
def CGW_CHc_DBT_DBRP (c : Nat) : Fld := ⟨0x40012008 + 0x100 * c, 24, 5, .rwl, 0x0⟩
def CGW_CHc_DBT_DTSEG1 (c : Nat) : Fld := ⟨0x40012008 + 0x100 * c, 16, 5, .rwl, 0x1e⟩
def CGW_CHc_DBT_DTSEG2 (c : Nat) : Fld := ⟨0x40012008 + 0x100 * c, 8, 4, .rwl, 0x7⟩
def CGW_CHc_DBT_DSJW (c : Nat) : Fld := ⟨0x40012008 + 0x100 * c, 0, 4, .rwl, 0x7⟩
def CGW_CHc_NAME_LO_NAME (c : Nat) : Fld := ⟨0x4001200c + 0x100 * c, 0, 32, .rwl, 0x0⟩
def CGW_CHc_NAME_HI_NAME (c : Nat) : Fld := ⟨0x40012010 + 0x100 * c, 0, 32, .rwl, 0x0⟩
def CGW_CHc_STAT_BUSOFF (c : Nat) : Fld := ⟨0x40012014 + 0x100 * c, 31, 1, .ro, 0x0⟩
def CGW_CHc_STAT_PASSIVE (c : Nat) : Fld := ⟨0x40012014 + 0x100 * c, 30, 1, .ro, 0x0⟩
def CGW_CHc_STAT_ADDR_OK (c : Nat) : Fld := ⟨0x40012014 + 0x100 * c, 29, 1, .ro, 0x0⟩
def CGW_CHc_STAT_REC (c : Nat) : Fld := ⟨0x40012014 + 0x100 * c, 16, 8, .ro, 0x0⟩
def CGW_CHc_STAT_TEC (c : Nat) : Fld := ⟨0x40012014 + 0x100 * c, 8, 8, .ro, 0x0⟩
def CGW_CHc_STAT_ADDR (c : Nat) : Fld := ⟨0x40012014 + 0x100 * c, 0, 8, .ro, 0xfe⟩
def CGW_CHc_ERR_BOFF_CNT (c : Nat) : Fld := ⟨0x40012018 + 0x100 * c, 24, 8, .ro, 0x0⟩
def CGW_CHc_ERR_RXDROP_CNT (c : Nat) : Fld := ⟨0x40012018 + 0x100 * c, 16, 8, .ro, 0x0⟩
def CGW_CHc_ERR_TXDROP_CNT (c : Nat) : Fld := ⟨0x40012018 + 0x100 * c, 8, 8, .ro, 0x0⟩
def CGW_CHc_ERR_TPABORT_CNT (c : Nat) : Fld := ⟨0x40012018 + 0x100 * c, 0, 8, .ro, 0x0⟩
def CGW_CHc_ERR_CLR_CLR (c : Nat) : Fld := ⟨0x4001201c + 0x100 * c, 0, 1, .wo, 0x0⟩
def CGW_CTL_LOCK : Fld := ⟨0x40012800, 0, 1, .w1s, 0x0⟩
def CGW_NMAP_NMAP : Fld := ⟨0x40012804, 0, 12, .ro, 0x0⟩
def CGW_EVSTAT_EV : Fld := ⟨0x40012808, 0, 5, .w1c, 0x0⟩
def CGW_EVEN_EV : Fld := ⟨0x4001280c, 0, 5, .rw, 0x0⟩
def STE_STAT_LINK : Fld := ⟨0x40013000, 31, 1, .ro, 0x0⟩
def STE_STAT_MOUNTED : Fld := ⟨0x40013000, 30, 1, .ro, 0x0⟩
def STE_STAT_RO_MODE : Fld := ⟨0x40013000, 29, 1, .ro, 0x0⟩
def STE_STAT_LOW_SPARE : Fld := ⟨0x40013000, 28, 1, .ro, 0x0⟩
def STE_STAT_PATROL_LATE : Fld := ⟨0x40013000, 27, 1, .ro, 0x0⟩
def STE_STAT_AUDIT_FULL : Fld := ⟨0x40013000, 26, 1, .ro, 0x0⟩
def STE_STAT_SPARE : Fld := ⟨0x40013000, 0, 16, .ro, 0x0⟩
def STE_WEAR_HIGH : Fld := ⟨0x40013004, 16, 16, .ro, 0x0⟩
def STE_WEAR_LOW : Fld := ⟨0x40013004, 0, 16, .ro, 0x0⟩
def STE_BAD_GROWN : Fld := ⟨0x40013008, 16, 16, .ro, 0x0⟩
def STE_BAD_FACTORY : Fld := ⟨0x40013008, 0, 16, .ro, 0x0⟩
def STE_PATROL_PASSES : Fld := ⟨0x4001300c, 16, 16, .ro, 0x0⟩
def STE_PATROL_POS : Fld := ⟨0x4001300c, 0, 13, .ro, 0x0⟩
def STE_AUD_WP_AUD_WP : Fld := ⟨0x40013010, 0, 20, .ro, 0x0⟩
def STE_ERR_UE_CNT : Fld := ⟨0x40013014, 24, 8, .ro, 0x0⟩
def STE_ERR_RELOC_CNT : Fld := ⟨0x40013014, 16, 8, .ro, 0x0⟩
def STE_ERR_RETIRE_CNT : Fld := ⟨0x40013014, 8, 8, .ro, 0x0⟩
def STE_ERR_LINK_CNT : Fld := ⟨0x40013014, 0, 8, .ro, 0x0⟩
def STE_ERR_CLR_CLR : Fld := ⟨0x40013018, 0, 1, .wo, 0x0⟩
def STE_EVSTAT_EV : Fld := ⟨0x4001301c, 0, 6, .w1c, 0x0⟩
def STE_EVEN_EV : Fld := ⟨0x40013020, 0, 6, .rw, 0x0⟩
def EVR_CTL_EN : Fld := ⟨0x40014000, 31, 1, .rwl, 0x0⟩
def EVR_CTL_LOCK : Fld := ⟨0x40014000, 0, 1, .w1s, 0x0⟩
def EVR_BUF_BUF : Fld := ⟨0x40014004, 18, 14, .rwl, 0x0⟩
def EVR_CKSEL_SRC : Fld := ⟨0x40014008, 31, 1, .rwl, 0x0⟩
def EVR_CKSEL_DIV : Fld := ⟨0x40014008, 16, 8, .rwl, 0x0⟩
def EVR_CKSEL_FIRST : Fld := ⟨0x40014008, 8, 8, .rwl, 0x0⟩
def EVR_CKSEL_COUNT : Fld := ⟨0x40014008, 0, 7, .rwl, 0x0⟩
def EVR_FRZCFG_MARK : Fld := ⟨0x4001400c, 4, 1, .rwl, 0x1⟩
def EVR_FRZCFG_EDGE : Fld := ⟨0x4001400c, 3, 1, .rwl, 0x1⟩
def EVR_FRZCFG_MINCLASS : Fld := ⟨0x4001400c, 0, 3, .rwl, 0x1⟩
def EVR_STAT_RUN : Fld := ⟨0x40014010, 31, 1, .ro, 0x0⟩
def EVR_STAT_LINKWAIT : Fld := ⟨0x40014010, 30, 1, .ro, 0x0⟩
def EVR_STAT_BUFS : Fld := ⟨0x40014010, 28, 2, .ro, 0x0⟩
def EVR_STAT_WIN : Fld := ⟨0x40014010, 20, 8, .ro, 0x0⟩
def EVR_STAT_QLVL : Fld := ⟨0x40014010, 0, 13, .ro, 0x0⟩
def EVR_SEGNO_SEGNO : Fld := ⟨0x40014014, 0, 32, .ro, 0x0⟩
def EVR_SEALNO_SEALNO : Fld := ⟨0x40014018, 0, 32, .ro, 0x0⟩
def EVR_ERR_QLOSS_CNT : Fld := ⟨0x4001401c, 16, 16, .ro, 0x0⟩
def EVR_ERR_DROP_CNT : Fld := ⟨0x4001401c, 8, 8, .ro, 0x0⟩
def EVR_ERR_FRZREF_CNT : Fld := ⟨0x4001401c, 0, 8, .ro, 0x0⟩
def EVR_ERR_CLR_CLR : Fld := ⟨0x40014020, 0, 1, .wo, 0x0⟩
def CRU_CTL_LOCK : Fld := ⟨0x40015000, 0, 1, .w1s, 0x0⟩
def CRU_STAT_BUSY : Fld := ⟨0x40015004, 31, 1, .ro, 0x0⟩
def CRU_STAT_TRNG_OK : Fld := ⟨0x40015004, 30, 1, .ro, 0x0⟩
def CRU_STAT_IDKEY : Fld := ⟨0x40015004, 29, 1, .ro, 0x0⟩
def BSC_STAT_SU_DONE : Fld := ⟨0x40016000, 31, 1, .ro, 0x0⟩
def BSC_STAT_SU_FAIL : Fld := ⟨0x40016000, 30, 1, .ro, 0x0⟩
def BSC_STAT_BUSY : Fld := ⟨0x40016000, 29, 1, .ro, 0x0⟩
def BSC_STAT_CLASS : Fld := ⟨0x40016000, 24, 5, .ro, 0x0⟩
def BSC_STAT_TEST : Fld := ⟨0x40016000, 16, 8, .ro, 0x0⟩
def BSC_STAT_NSLICE : Fld := ⟨0x40016000, 0, 9, .ro, 0x0⟩
def BSC_PASS_PASS : Fld := ⟨0x40016004, 0, 32, .ro, 0x0⟩
def BSC_LAST_TEST : Fld := ⟨0x40016008, 24, 8, .ro, 0x0⟩
def BSC_LAST_CLASS : Fld := ⟨0x40016008, 16, 5, .ro, 0x0⟩
def BSC_LAST_ELEMENT : Fld := ⟨0x40016008, 0, 16, .ro, 0x0⟩
def BSC_ERR_FAIL_CNT : Fld := ⟨0x4001600c, 24, 8, .ro, 0x0⟩
def BSC_ERR_ABORT_CNT : Fld := ⟨0x4001600c, 16, 8, .ro, 0x0⟩
def BSC_ERR_STARVE_CNT : Fld := ⟨0x4001600c, 8, 8, .ro, 0x0⟩
def BSC_ERR_LATE_CNT : Fld := ⟨0x4001600c, 0, 8, .ro, 0x0⟩
def BSC_ERR_CLR_CLR : Fld := ⟨0x40016010, 0, 1, .wo, 0x0⟩
def BSC_EVSTAT_EV : Fld := ⟨0x40016014, 0, 4, .w1c, 0x0⟩
def BSC_EVEN_EV : Fld := ⟨0x40016018, 0, 4, .rw, 0x0⟩
def BSC_SLICEr_CUR (r : Nat) : Fld := ⟨0x40016100 + 0x4 * r, 31, 1, .ro, 0x0⟩
def BSC_SLICEr_STARVED (r : Nat) : Fld := ⟨0x40016100 + 0x4 * r, 30, 1, .ro, 0x0⟩
def BSC_SLICEr_ABORTS (r : Nat) : Fld := ⟨0x40016100 + 0x4 * r, 26, 4, .ro, 0x0⟩
def BSC_SLICEr_NEXT (r : Nat) : Fld := ⟨0x40016100 + 0x4 * r, 0, 20, .ro, 0x0⟩
def PPR_CTL_ARMED : Fld := ⟨0x40017000, 31, 1, .ro, 0x0⟩
def PPR_CTL_ALLOWED : Fld := ⟨0x40017000, 30, 1, .ro, 0x0⟩
def PPR_CTL_DISARM : Fld := ⟨0x40017000, 1, 1, .w1s, 0x0⟩
def PPR_CTL_ARM : Fld := ⟨0x40017000, 0, 1, .w1s, 0x0⟩
def PPR_SEED_SEED : Fld := ⟨0x40017004, 0, 16, .rw, 0x0⟩
def PPR_STAT_ARM_CNT : Fld := ⟨0x40017008, 16, 8, .ro, 0x0⟩
def PPR_STAT_ACT_CNT : Fld := ⟨0x40017008, 0, 16, .ro, 0x0⟩
def PPR_INJi_PARAM_PARAM (i : Nat) : Fld := ⟨0x40017100 + 0x10 * i, 0, 32, .rw, 0x0⟩
def PPR_INJi_CFG_EN (i : Nat) : Fld := ⟨0x40017104 + 0x10 * i, 31, 1, .rw, 0x0⟩
def PPR_INJi_CFG_MODE (i : Nat) : Fld := ⟨0x40017104 + 0x10 * i, 28, 3, .rw, 0x0⟩
def PPR_INJi_CFG_KIND (i : Nat) : Fld := ⟨0x40017104 + 0x10 * i, 24, 4, .rw, 0x0⟩
def PPR_INJi_CFG_TARGET (i : Nat) : Fld := ⟨0x40017104 + 0x10 * i, 16, 8, .rw, 0x0⟩
def PPR_INJi_CFG_N (i : Nat) : Fld := ⟨0x40017104 + 0x10 * i, 0, 16, .rw, 0x0⟩
def PPR_INJi_CNT_CNT (i : Nat) : Fld := ⟨0x40017108 + 0x10 * i, 0, 32, .ro, 0x0⟩
def LCS_ID_PART : Fld := ⟨0x40018000, 16, 16, .ro, 0x5760⟩
def LCS_ID_STEP : Fld := ⟨0x40018000, 4, 4, .ro, 0x1⟩
def LCS_ID_LANE : Fld := ⟨0x40018000, 0, 2, .ro, 0x0⟩
def LCS_STATE_SVC : Fld := ⟨0x40018004, 31, 1, .ro, 0x0⟩
def LCS_STATE_HOLD : Fld := ⟨0x40018004, 30, 1, .ro, 0x0⟩
def LCS_STATE_NONCE_S : Fld := ⟨0x40018004, 16, 8, .ro, 0x0⟩
def LCS_STATE_PEND_LC : Fld := ⟨0x40018004, 8, 4, .ro, 0x0⟩
def LCS_STATE_LC : Fld := ⟨0x40018004, 0, 4, .ro, 0x0⟩
def LCS_SVC_REMAIN_REMAIN : Fld := ⟨0x40018008, 0, 16, .ro, 0x0⟩
def LCS_CTL_LOCK : Fld := ⟨0x4001800c, 0, 1, .w1s, 0x0⟩
def LCS_SERIAL_LO_SERIAL : Fld := ⟨0x40018010, 0, 32, .ro, 0x0⟩
def LCS_SERIAL_HI_SERIAL : Fld := ⟨0x40018014, 0, 32, .ro, 0x0⟩
def LCS_FW_STAT_REFUSE : Fld := ⟨0x40018018, 24, 8, .ro, 0x0⟩
def LCS_FW_STAT_FALLBACK : Fld := ⟨0x40018018, 16, 1, .ro, 0x0⟩
def LCS_FW_STAT_PENDING : Fld := ⟨0x40018018, 8, 1, .ro, 0x0⟩
def LCS_FW_STAT_PSLOT : Fld := ⟨0x40018018, 4, 1, .ro, 0x0⟩
def LCS_FW_STAT_ASLOT : Fld := ⟨0x40018018, 0, 1, .ro, 0x0⟩
def LCS_FW_VER_VERSION : Fld := ⟨0x4001801c, 0, 32, .ro, 0x0⟩
def LCS_CNT_FW_CNT : Fld := ⟨0x40018020, 0, 32, .ro, 0x0⟩
def LCS_CNT_IMG_CNT : Fld := ⟨0x40018024, 0, 32, .ro, 0x0⟩
def LCS_CNT_LEFT_FW : Fld := ⟨0x40018028, 8, 8, .ro, 0x0⟩
def LCS_CNT_LEFT_IMG : Fld := ⟨0x40018028, 0, 8, .ro, 0x0⟩
def LCS_BOOT_PAIR : Fld := ⟨0x4001802c, 16, 1, .ro, 0x0⟩
def LCS_BOOT_XTAL_KHZ : Fld := ⟨0x4001802c, 0, 16, .ro, 0x0⟩
def LCS_ERR_SVCREF_CNT : Fld := ⟨0x40018030, 24, 8, .ro, 0x0⟩
def LCS_ERR_DBGDENY_CNT : Fld := ⟨0x40018030, 16, 8, .ro, 0x0⟩
def LCS_ERR_TRNG_CNT : Fld := ⟨0x40018030, 8, 8, .ro, 0x0⟩
def LCS_ERR_LOCKLATE_CNT : Fld := ⟨0x40018030, 0, 8, .ro, 0x0⟩
def LCS_ERR_CLR_CLR : Fld := ⟨0x40018034, 0, 1, .wo, 0x0⟩
def LCS_IDPUBn_PUB (n : Nat) : Fld := ⟨0x40018040 + 0x4 * n, 0, 32, .ro, 0x0⟩
def LCS_KEYk_STATE (k : Nat) : Fld := ⟨0x40018080 + 0x4 * k, 0, 2, .ro, 0x0⟩
def GPIO_DIR_DIR : Fld := ⟨0x40019000, 0, 8, .rw, 0x0⟩
def GPIO_OUT_OUT : Fld := ⟨0x40019004, 0, 8, .rw, 0x0⟩
def GPIO_IN_IN : Fld := ⟨0x40019008, 0, 8, .ro, 0x0⟩
def GPIO_IRQ_FALL : Fld := ⟨0x4001900c, 8, 8, .rw, 0x0⟩
def GPIO_IRQ_RISE : Fld := ⟨0x4001900c, 0, 8, .rw, 0x0⟩
def GPIO_EVSTAT_EV : Fld := ⟨0x40019010, 0, 8, .w1c, 0x0⟩
def GPIO_TRG_TRG : Fld := ⟨0x40019014, 0, 32, .rw, 0x0⟩
def GPIO_SPI_CFG_EN : Fld := ⟨0x40019400, 31, 1, .rw, 0x0⟩
def GPIO_SPI_CFG_TRG : Fld := ⟨0x40019400, 18, 2, .rw, 0x0⟩
def GPIO_SPI_CFG_CPHA : Fld := ⟨0x40019400, 17, 1, .rw, 0x0⟩
def GPIO_SPI_CFG_CPOL : Fld := ⟨0x40019400, 16, 1, .rw, 0x0⟩
def GPIO_SPI_CFG_LEN : Fld := ⟨0x40019400, 8, 5, .rw, 0x7⟩
def GPIO_SPI_CFG_DIV : Fld := ⟨0x40019400, 0, 8, .rw, 0x7⟩
def GPIO_SPI_TX_TX : Fld := ⟨0x40019404, 0, 32, .wo, 0x0⟩
def GPIO_SPI_RX_RX : Fld := ⟨0x40019408, 0, 32, .ro, 0x0⟩
def GPIO_SPI_STAT_RXLVL : Fld := ⟨0x4001940c, 16, 4, .ro, 0x0⟩
def GPIO_SPI_STAT_TXLVL : Fld := ⟨0x4001940c, 8, 4, .ro, 0x0⟩
def GPIO_SPI_STAT_BUSY : Fld := ⟨0x4001940c, 2, 1, .ro, 0x0⟩
def GPIO_SPI_STAT_OVR : Fld := ⟨0x4001940c, 1, 1, .w1c, 0x0⟩
def GPIO_SPI_STAT_UND : Fld := ⟨0x4001940c, 0, 1, .w1c, 0x0⟩
def CHP_CTL_ITHR : Fld := ⟨0x4001a000, 1, 8, .rwl, 0x10⟩
def CHP_CTL_LOCK : Fld := ⟨0x4001a000, 0, 1, .w1s, 0x0⟩
def CHP_VON_VON : Fld := ⟨0x4001a004, 0, 32, .rwl, 0x4a3d70a4⟩
def CHP_VOFF_VOFF : Fld := ⟨0x4001a008, 0, 32, .rwl, 0x47ae147b⟩
def CHP_VREQ_VREQ : Fld := ⟨0x4001a00c, 0, 32, .rwl, 0x451eb852⟩
def CHP_DVLIM_DVLIM : Fld := ⟨0x4001a010, 0, 32, .rwl, 0x147ae14⟩
def CHP_STAT_GATE : Fld := ⟨0x4001a014, 31, 1, .ro, 0x0⟩
def CHP_STAT_REQ : Fld := ⟨0x4001a014, 30, 1, .ro, 0x0⟩
def CHP_STAT_NOCUR : Fld := ⟨0x4001a014, 29, 1, .w1c, 0x0⟩
def CHP_STAT_RISE : Fld := ⟨0x4001a014, 28, 1, .w1c, 0x0⟩
def CHP_STAT_STUCK : Fld := ⟨0x4001a014, 27, 1, .w1c, 0x0⟩
def CHP_STAT_ON_CNT : Fld := ⟨0x4001a014, 0, 16, .ro, 0x0⟩
def CHP_ERR_CLR_CLR : Fld := ⟨0x4001a018, 0, 1, .wo, 0x0⟩
end F

namespace RegMap
/-- The registers of the block at 0x40000000. DESIGN CHOICE: log 13. -/
def rows00 : List RegRow := [
  ⟨0x40000000, 0x0, 1, fun _ => [F.AOS_STAT_CLKDEG, F.AOS_STAT_ON, F.AOS_STAT_FAIL, F.AOS_STAT_SUP]⟩,
  ⟨0x40000004, 0x0, 1, fun _ => [F.AOS_RSTCAUSE_CAUSE]⟩,
  ⟨0x40000008, 0x0, 1, fun _ => [F.AOS_WAKE_EN_TIMER, F.AOS_WAKE_EN_CAN1, F.AOS_WAKE_EN_CAN0, F.AOS_WAKE_EN_WAKE1_EN, F.AOS_WAKE_EN_WAKE0_EN]⟩,
  ⟨0x4000000c, 0x0, 1, fun _ => [F.AOS_WAKE_LAST_DORMANT, F.AOS_WAKE_LAST_AP, F.AOS_WAKE_LAST_EDGE, F.AOS_WAKE_LAST_SRC]⟩,
  ⟨0x40000010, 0x0, 1, fun _ => [F.AOS_DORM_ENTRY, F.AOS_DORM_PASSED]⟩,
  ⟨0x40000014, 0x0, 1, fun _ => [F.AOS_DOM_REQ_SW, F.AOS_DOM_REQ_WAKE]⟩,
  ⟨0x40000018, 0x0, 1, fun _ => [F.AOS_TMR_TMR]⟩,
  ⟨0x4000001c, 0x0, 1, fun _ => [F.AOS_TMR_CMP_CMP]⟩,
  ⟨0x40000020, 0x0, 1, fun _ => [F.AOS_WAKE_TIME_TIME]⟩,
  ⟨0x40000024, 0x0, 1, fun _ => [F.AOS_ERR_DOMRETRY_CNT, F.AOS_ERR_PLLRETRY_CNT, F.AOS_ERR_ABANDON_CNT, F.AOS_ERR_SUPWARN_CNT]⟩,
  ⟨0x40000028, 0x0, 1, fun _ => [F.AOS_ERR_CLR_CLR]⟩,
  ⟨0x4000002c, 0x0, 1, fun _ => [F.AOS_SWRST_KEY]⟩
]
/-- The registers of the block at 0x40001000. -/
def rows01 : List RegRow := [
  ⟨0x40001000, 0x0, 1, fun _ => [F.CLK_STAT_XTAL_OK, F.CLK_STAT_PLL_LOCK, F.CLK_STAT_ON_PLL, F.CLK_STAT_DEGRADED, F.CLK_STAT_CAUSE, F.CLK_STAT_XTAL_KHZ]⟩,
  ⟨0x40001004, 0x0, 1, fun _ => [F.CLK_MEAS_KHZ]⟩,
  ⟨0x40001008, 0x0, 1, fun _ => [F.CLK_MON_TOL]⟩,
  ⟨0x4000100c, 0x0, 1, fun _ => [F.CLK_CTL_LOCK]⟩,
  ⟨0x40001800, 0x0, 1, fun _ => [F.CLK_XING_STAT_PAR_CNT, F.CLK_XING_STAT_TMO_CNT, F.CLK_XING_STAT_LAST_ID]⟩,
  ⟨0x40001804, 0x0, 1, fun _ => [F.CLK_XING_CLR_CLR]⟩
]
/-- The registers of the block at 0x40002000. -/
def rows02 : List RegRow := [
  ⟨0x40002000, 0x0, 1, fun _ => [F.LSM_CTL_LOCK]⟩,
  ⟨0x40002004, 0x0, 1, fun _ => [F.LSM_STAT_SAFE, F.LSM_STAT_EXCL, F.LSM_STAT_IMM, F.LSM_STAT_ANY, F.LSM_STAT_MAXCLS]⟩,
  ⟨0x40002008, 0x0, 1, fun _ => [F.LSM_LAST_CKPT_LO, F.LSM_LAST_CLASS, F.LSM_LAST_SOURCE]⟩,
  ⟨0x4000200c, 0x0, 1, fun _ => [F.LSM_DBG_CTL_HALTED_BY_PEER, F.LSM_DBG_CTL_HALT_OUT_EN, F.LSM_DBG_CTL_HALT_IN_MASK]⟩,
  ⟨0x40002040, 0x4, 8, fun n => [F.LSM_RAWn_RAW n]⟩,
  ⟨0x40002100, 0x4, 64, fun n => [F.LSM_RTn_THRESH3 n, F.LSM_RTn_CLASS3 n, F.LSM_RTn_THRESH2 n, F.LSM_RTn_CLASS2 n, F.LSM_RTn_THRESH1 n, F.LSM_RTn_CLASS1 n, F.LSM_RTn_THRESH0 n, F.LSM_RTn_CLASS0 n]⟩,
  ⟨0x40002c00, 0x8, 10, fun n => [F.LSM_ECCm_CNT_UE_CNT n, F.LSM_ECCm_CNT_CE_CNT n]⟩,
  ⟨0x40002c04, 0x8, 10, fun n => [F.LSM_ECCm_ADDR_ADDR n, F.LSM_ECCm_ADDR_UE n, F.LSM_ECCm_ADDR_VALID n]⟩,
  ⟨0x40002c80, 0x0, 1, fun _ => [F.LSM_ECC_CLR_CLR]⟩
]
/-- The registers of the block at 0x40003000. -/
def rows03 : List RegRow := [
  ⟨0x40003000, 0x0, 1, fun _ => [F.LMMU_CTL_LOCK]⟩,
  ⟨0x40003004, 0x0, 1, fun _ => [F.LMMU_INV_BUSY, F.LMMU_INV_SCOPE, F.LMMU_INV_CTX]⟩,
  ⟨0x40003008, 0x0, 1, fun _ => [F.LMMU_INV_IOVA_IOVA_PAGE]⟩,
  ⟨0x40003010, 0x0, 1, fun _ => [F.LMMU_FLT_STAT_VALID, F.LMMU_FLT_STAT_KIND, F.LMMU_FLT_STAT_STATUS, F.LMMU_FLT_STAT_WRITE, F.LMMU_FLT_STAT_ROLE, F.LMMU_FLT_STAT_CTX, F.LMMU_FLT_STAT_FLT_CNT]⟩,
  ⟨0x40003014, 0x0, 1, fun _ => [F.LMMU_FLT_IOVA_IOVA]⟩,
  ⟨0x40003018, 0x0, 1, fun _ => [F.LMMU_FLT_CLR_CLR]⟩,
  ⟨0x40003100, 0x8, 64, fun n => [F.LMMU_CTXc_ROOT_ROOT n, F.LMMU_CTXc_ROOT_CLASS n, F.LMMU_CTXc_ROOT_EN n]⟩,
  ⟨0x40003104, 0x8, 64, fun n => [F.LMMU_CTXc_LIMIT_LIMIT n]⟩
]
/-- The registers of the block at 0x40004000. -/
def rows04 : List RegRow := [
  ⟨0x40004000, 0x40, 32, fun n => [F.RINGn_BASE_BASE n]⟩,
  ⟨0x40004004, 0x40, 32, fun n => [F.RINGn_CFG_ENABLE n, F.RINGn_CFG_CFG_ERR n, F.RINGn_CFG_ROLE n, F.RINGn_CFG_PRIO n, F.RINGn_CFG_LOG2SIZE n]⟩,
  ⟨0x40004008, 0x40, 32, fun n => [F.RINGn_PI_PI n]⟩,
  ⟨0x4000400c, 0x40, 32, fun n => [F.RINGn_CI_CI n]⟩,
  ⟨0x40004010, 0x40, 32, fun n => [F.RINGn_STAT_HALTED n, F.RINGn_STAT_CAUSE n, F.RINGn_STAT_STWB_ERR n, F.RINGn_STAT_DB_BACK n, F.RINGn_STAT_DB_OVER n, F.RINGn_STAT_BUSY n, F.RINGn_STAT_DB_REF_CNT n]⟩,
  ⟨0x40004014, 0x40, 32, fun n => [F.RINGn_CTL_RESUME n, F.RINGn_CTL_ABORT n]⟩,
  ⟨0x40004018, 0x40, 32, fun n => [F.RINGn_CTXLO_MASK n]⟩,
  ⟨0x4000401c, 0x40, 32, fun n => [F.RINGn_CTXHI_MASK n]⟩,
  ⟨0x40004020, 0x40, 32, fun n => [F.RINGn_LAST_SEQ n, F.RINGn_LAST_ENGINE n, F.RINGn_LAST_ERR n, F.RINGn_LAST_STATE n]⟩,
  ⟨0x40004800, 0x0, 1, fun _ => [F.RING_CTL_LOCK]⟩,
  ⟨0x40004840, 0x4, 10, fun n => [F.RING_ENGe_STAT_SLOT n, F.RING_ENGe_STAT_RUN n, F.RING_ENGe_STAT_RING n]⟩
]
/-- The registers of the block at 0x40005000. -/
def rows05 : List RegRow := [
  ⟨0x40005000, 0x0, 1, fun _ => [F.TLS_STAT_RUN, F.TLS_STAT_LOCKED, F.TLS_STAT_HOLDOVER, F.TLS_STAT_CYCLE, F.TLS_STAT_BANK]⟩,
  ⟨0x40005004, 0x0, 1, fun _ => [F.TLS_OFFSET_SEG, F.TLS_OFFSET_OFFSET]⟩,
  ⟨0x40005008, 0x0, 1, fun _ => [F.TLS_CKPT_NUM_CKPT]⟩,
  ⟨0x4000500c, 0x0, 1, fun _ => [F.TLS_IMG_STAT_REFUSE, F.TLS_IMG_STAT_FALLBACK, F.TLS_IMG_STAT_PENDING, F.TLS_IMG_STAT_PSLOT, F.TLS_IMG_STAT_ASLOT]⟩,
  ⟨0x40005010, 0x0, 1, fun _ => [F.TLS_IMG_DETAIL_OFFSET]⟩,
  ⟨0x40005014, 0x0, 1, fun _ => [F.TLS_IMG_VER_VERSION]⟩,
  ⟨0x40005018, 0x0, 1, fun _ => [F.TLS_TIMING_TICK_CNT, F.TLS_TIMING_CYCLE_US]⟩,
  ⟨0x40005020, 0x4, 8, fun n => [F.TLS_IMG_DGSTn_DGST n]⟩,
  ⟨0x40005040, 0x0, 1, fun _ => [F.TLS_ERR_BUSY_CNT, F.TLS_ERR_LOST_CNT, F.TLS_ERR_CUT_CNT, F.TLS_ERR_MISS_CNT]⟩,
  ⟨0x40005044, 0x0, 1, fun _ => [F.TLS_ERR_CLR_CLR]⟩,
  ⟨0x40005800, 0x0, 1, fun _ => [F.TLS_MS_STAT_EXCL, F.TLS_MS_STAT_PRELOAD_BUSY, F.TLS_MS_STAT_NETUP, F.TLS_MS_STAT_SUBSTATE, F.TLS_MS_STAT_LANESET, F.TLS_MS_STAT_MODE, F.TLS_MS_STAT_POINT]⟩,
  ⟨0x40005804, 0x0, 1, fun _ => [F.TLS_MS_CKPT_CKPT]⟩,
  ⟨0x40005808, 0x0, 1, fun _ => [F.TLS_MS_LAST_EDGE, F.TLS_MS_LAST_KIND, F.TLS_MS_LAST_TO, F.TLS_MS_LAST_FROM]⟩,
  ⟨0x4000580c, 0x0, 1, fun _ => [F.TLS_MS_REJ_COUNT, F.TLS_MS_REJ_POINT, F.TLS_MS_REJ_REQ_CODE, F.TLS_MS_REJ_REASON]⟩,
  ⟨0x40005810, 0x0, 1, fun _ => [F.TLS_MS_REJ_CLR_CLR]⟩,
  ⟨0x40005814, 0x0, 1, fun _ => [F.TLS_MS_CFG_NPOINTS, F.TLS_MS_CFG_IMG_VALID, F.TLS_MS_CFG_DECL, F.TLS_MS_CFG_PAIR]⟩,
  ⟨0x40005820, 0x4, 8, fun n => [F.TLS_MS_BANKn_CURRENT n, F.TLS_MS_BANKn_STATE n, F.TLS_MS_BANKn_POINT n]⟩
]
/-- The registers of the block at 0x40006000. -/
def rows06 : List RegRow := [
  ⟨0x40006000, 0x0, 1, fun _ => [F.CLV_CTL_REINT]⟩,
  ⟨0x40006004, 0x0, 1, fun _ => [F.CLV_VEC_LEN_N_IN, F.CLV_VEC_LEN_N_VOTE]⟩,
  ⟨0x40006008, 0x0, 1, fun _ => [F.CLV_STAT_LANESET, F.CLV_STAT_EXCL, F.CLV_STAT_REINT_USED, F.CLV_STAT_REINT_STATE, F.CLV_STAT_UNRESOLVED, F.CLV_STAT_SELF_FAIL, F.CLV_STAT_USABLE]⟩,
  ⟨0x4000600c, 0x0, 1, fun _ => [F.CLV_MISM_WORD, F.CLV_MISM_MINORITY, F.CLV_MISM_SEQ]⟩,
  ⟨0x40006010, 0x0, 1, fun _ => [F.CLV_ERR_SPLIT_CNT, F.CLV_ERR_LATE_CNT, F.CLV_ERR_DROP_CNT, F.CLV_ERR_MISM_CNT]⟩,
  ⟨0x40006014, 0x0, 1, fun _ => [F.CLV_ERR_CLR_CLR]⟩
]
/-- The registers of the block at 0x40007000. -/
def rows07 : List RegRow := [
  ⟨0x40007000, 0x20, 2, fun n => [F.LLK_LINKl_STAT_UP n, F.LLK_LINKl_STAT_TRAINED n, F.LLK_LINKl_STAT_PEER n, F.LLK_LINKl_STAT_CRC_CNT n, F.LLK_LINKl_STAT_MISS_CNT n, F.LLK_LINKl_STAT_TRAIN_CNT n]⟩,
  ⟨0x40007004, 0x20, 2, fun n => [F.LLK_LINKl_CLR_CLR n]⟩,
  ⟨0x40007040, 0x0, 1, fun _ => [F.LLK_MBX_RX_VALID, F.LLK_MBX_RX_FROM, F.LLK_MBX_RX_OVR, F.LLK_MBX_RX_LEN_W, F.LLK_MBX_RX_OFF_W]⟩
]
/-- The registers of the block at 0x40008000. -/
def rows08 : List RegRow := [
  ⟨0x40008000, 0x0, 1, fun _ => [F.CDSP_STAT_STATE, F.CDSP_STAT_HALTED, F.CDSP_STAT_LSTOP, F.CDSP_STAT_BANK, F.CDSP_STAT_AGU, F.CDSP_STAT_LDEPTH, F.CDSP_STAT_TASK, F.CDSP_STAT_IRQ_PEND, F.CDSP_STAT_IRQ_ACT]⟩,
  ⟨0x40008004, 0x0, 1, fun _ => [F.CDSP_TASK_LAST_END, F.CDSP_TASK_LAST_TASK, F.CDSP_TASK_LAST_CYCLES]⟩,
  ⟨0x40008008, 0x0, 1, fun _ => [F.CDSP_ERR_OVR_CNT, F.CDSP_ERR_ILL_CNT, F.CDSP_ERR_IRQ_LOST_CNT, F.CDSP_ERR_ADDR_CNT]⟩,
  ⟨0x4000800c, 0x0, 1, fun _ => [F.CDSP_ERR_CLR_CLR]⟩,
  ⟨0x40008010, 0x0, 1, fun _ => [F.CDSP_IRQ_LAT_MAX]⟩,
  ⟨0x40008014, 0x0, 1, fun _ => [F.CDSP_DB_PEND, F.CDSP_DB_VALUE]⟩,
  ⟨0x40008018, 0x0, 1, fun _ => [F.CDSP_DBOUT_COUNT, F.CDSP_DBOUT_CODE]⟩,
  ⟨0x4000801c, 0x0, 1, fun _ => [F.CDSP_CFG_NTASK, F.CDSP_CFG_IEN, F.CDSP_CFG_POLICY, F.CDSP_CFG_LOADED]⟩,
  ⟨0x40008020, 0x0, 1, fun _ => [F.CDSP_DBG_CTL_HALTED, F.CDSP_DBG_CTL_STEP, F.CDSP_DBG_CTL_RESUME, F.CDSP_DBG_CTL_HALT]⟩,
  ⟨0x40008024, 0x0, 1, fun _ => [F.CDSP_DBG_PC_PC]⟩,
  ⟨0x40008028, 0x0, 1, fun _ => [F.CDSP_DBG_RSEL_PART, F.CDSP_DBG_RSEL_BANK, F.CDSP_DBG_RSEL_REG]⟩,
  ⟨0x4000802c, 0x0, 1, fun _ => [F.CDSP_DBG_RDATA_DATA]⟩
]
/-- The registers of the block at 0x40009000. -/
def rows09 : List RegRow := [
  ⟨0x40009000, 0x0, 1, fun _ => [F.LPE_STAT_RUN, F.LPE_STAT_FORCED_OFF, F.LPE_STAT_SLOT, F.LPE_STAT_LOADED]⟩,
  ⟨0x40009004, 0x0, 1, fun _ => [F.LPE_PSEL_BASE]⟩,
  ⟨0x40009008, 0x0, 1, fun _ => [F.LPE_ENLO_ACT]⟩,
  ⟨0x4000900c, 0x0, 1, fun _ => [F.LPE_ENHI_ACT]⟩,
  ⟨0x40009010, 0x4, 2, fun n => [F.LPE_SATn_SAT n]⟩,
  ⟨0x40009018, 0x4, 2, fun n => [F.LPE_TRIPn_TRIP n]⟩,
  ⟨0x40009020, 0x0, 1, fun _ => [F.LPE_ERR_STALE_CNT, F.LPE_ERR_MEM_CNT, F.LPE_ERR_TRIP_CNT, F.LPE_ERR_SAT_CNT]⟩,
  ⟨0x40009024, 0x0, 1, fun _ => [F.LPE_ERR_CLR_CLR]⟩
]
/-- The registers of the blocks at 0x4000a000 and 0x4000b000: motor engine `e`. -/
def rowsMe (e : Nat) : List RegRow := [
  ⟨0x4000a000 + 0x1000 * e, 0x0, 1, fun _ => [F.MEe_CTL_LOCK e]⟩,
  ⟨0x4000a004 + 0x1000 * e, 0x0, 1, fun _ => [F.MEe_STAT_FORCED e, F.MEe_STAT_AVAIL e, F.MEe_STAT_REGEN e, F.MEe_STAT_CHOP_REQ e, F.MEe_STAT_REC_CNT e, F.MEe_STAT_SAFE e, F.MEe_STAT_RAMP e, F.MEe_STAT_LOADED e, F.MEe_STAT_REGIME e]⟩,
  ⟨0x4000a008 + 0x1000 * e, 0x0, 1, fun _ => [F.MEe_THETA_VALUE e]⟩,
  ⟨0x4000a00c + 0x1000 * e, 0x0, 1, fun _ => [F.MEe_OMEGA_VALUE e]⟩,
  ⟨0x4000a010 + 0x1000 * e, 0x0, 1, fun _ => [F.MEe_ID_VALUE e]⟩,
  ⟨0x4000a014 + 0x1000 * e, 0x0, 1, fun _ => [F.MEe_IQ_VALUE e]⟩,
  ⟨0x4000a018 + 0x1000 * e, 0x0, 1, fun _ => [F.MEe_VD_VALUE e]⟩,
  ⟨0x4000a01c + 0x1000 * e, 0x0, 1, fun _ => [F.MEe_VQ_VALUE e]⟩,
  ⟨0x4000a020 + 0x1000 * e, 0x0, 1, fun _ => [F.MEe_VDC_VALUE e]⟩,
  ⟨0x4000a024 + 0x1000 * e, 0x0, 1, fun _ => [F.MEe_IDFW_VALUE e]⟩,
  ⟨0x4000a028 + 0x1000 * e, 0x0, 1, fun _ => [F.MEe_EMAG_VALUE e]⟩,
  ⟨0x4000a030 + 0x1000 * e, 0x0, 1, fun _ => [F.MEe_EVSEL_CDSP e, F.MEe_EVSEL_PLIC e]⟩,
  ⟨0x4000a034 + 0x1000 * e, 0x0, 1, fun _ => [F.MEe_EVSTAT_EV e]⟩,
  ⟨0x4000a038 + 0x1000 * e, 0x0, 1, fun _ => [F.MEe_GDF_HS_BAD e, F.MEe_GDF_LS_BAD e]⟩,
  ⟨0x4000a03c + 0x1000 * e, 0x0, 1, fun _ => [F.MEe_ERR_OC_CNT e, F.MEe_ERR_STALE_CNT e, F.MEe_ERR_CAPFAIL_CNT e, F.MEe_ERR_SAT_CNT e]⟩,
  ⟨0x4000a040 + 0x1000 * e, 0x0, 1, fun _ => [F.MEe_ERR_CLR_CLR e]⟩,
  ⟨0x4000a080 + 0x1000 * e, 0x8, 7, fun n => [F.MEe_CALk_OFF_OFF e n]⟩,
  ⟨0x4000a084 + 0x1000 * e, 0x8, 7, fun n => [F.MEe_CALk_GAIN_GAIN e n]⟩,
  ⟨0x4000a0c0 + 0x1000 * e, 0x0, 1, fun _ => [F.MEe_CALSH_SH e]⟩,
  ⟨0x4000a100 + 0x1000 * e, 0x4, 8, fun n => [F.MEe_REFr_VALUE e n]⟩
]
/-- The registers of the block at 0x4000c000. -/
def rows0C : List RegRow := [
  ⟨0x4000c000, 0x100, 3, fun n => [F.PWMn_CFG_SRC n, F.PWMn_CFG_PAIRING n, F.PWMn_CFG_EN n]⟩,
  ⟨0x4000c004, 0x100, 3, fun n => [F.PWMn_PER_PRESC n, F.PWMn_PER_PER n]⟩,
  ⟨0x4000c008, 0x100, 3, fun n => [F.PWMn_COMMIT_COMMIT n]⟩,
  ⟨0x4000c00c, 0x100, 3, fun n => [F.PWMn_STAT_ALIGNED n, F.PWMn_STAT_PENDING n, F.PWMn_STAT_SAFE_ACT n, F.PWMn_STAT_RANGE_ERR n, F.PWMn_STAT_PAIR_ERR n, F.PWMn_STAT_LAST_EPOCH n, F.PWMn_STAT_CUR_EPOCH n]⟩,
  ⟨0x4000c010, 0x4, 6, fun n => [F.PWMn_CMPk_CMP 0 n]⟩,
  ⟨0x4000c110, 0x4, 6, fun n => [F.PWMn_CMPk_CMP 1 n]⟩,
  ⟨0x4000c210, 0x4, 6, fun n => [F.PWMn_CMPk_CMP 2 n]⟩,
  ⟨0x4000c028, 0x100, 3, fun n => [F.PWMn_WSC_CH n, F.PWMn_WSC_CMP n, F.PWMn_WSC_PER n]⟩,
  ⟨0x4000c02c, 0x100, 3, fun n => [F.PWMn_EVCFG_TRG n, F.PWMn_EVCFG_IRQ n]⟩,
  ⟨0x4000c030, 0x100, 3, fun n => [F.PWMn_EVSTAT_EV n]⟩,
  ⟨0x4000c034, 0x100, 3, fun n => [F.PWMn_ALIGN_ERR n, F.PWMn_ALIGN_TOL n, F.PWMn_ALIGN_SLEW n]⟩,
  ⟨0x4000c038, 0x100, 3, fun n => [F.PWMn_OUT_DT n, F.PWMn_OUT_POL n, F.PWMn_OUT_SAFE n]⟩,
  ⟨0x4000c03c, 0x100, 3, fun n => [F.PWMn_CNT_CNT n]⟩,
  ⟨0x4000c040, 0x100, 3, fun n => [F.PWMn_ERR_REF_CNT n, F.PWMn_ERR_SUP_CNT n, F.PWMn_ERR_ALIGN_CNT n, F.PWMn_ERR_IGN_CNT n]⟩,
  ⟨0x4000c044, 0x100, 3, fun n => [F.PWMn_ERR_CLR_CLR n]⟩,
  ⟨0x4000c280, 0x4, 8, fun n => [F.PWM2_CHk_CH n]⟩,
  ⟨0x4000c800, 0x0, 1, fun _ => [F.PWM_CTL_LOCK]⟩,
  ⟨0x4000c804, 0x0, 1, fun _ => [F.PWM_MON_CLKSTOP]⟩
]
/-- The registers of the block at 0x4000d000. -/
def rows0D : List RegRow := [
  ⟨0x4000d000, 0x0, 1, fun _ => [F.VDU_CTL_LOCK]⟩,
  ⟨0x4000d010, 0x10, 8, fun n => [F.VDU_CHk_CFG_ILIM_EN n, F.VDU_CHk_CFG_ILIM n]⟩,
  ⟨0x4000d014, 0x10, 8, fun n => [F.VDU_CHk_DMAX_DMAX n]⟩,
  ⟨0x4000d018, 0x10, 8, fun n => [F.VDU_CHk_SP_SP n]⟩,
  ⟨0x4000d01c, 0x10, 8, fun n => [F.VDU_CHk_STAT_EN n, F.VDU_CHk_STAT_OC n, F.VDU_CHk_STAT_CH n]⟩,
  ⟨0x4000d0a0, 0x0, 1, fun _ => [F.VDU_ERR_OC_CNT]⟩,
  ⟨0x4000d0a4, 0x0, 1, fun _ => [F.VDU_ERR_CLR_CLR]⟩,
  ⟨0x4000d100, 0x4, 8, fun n => [F.VDU_CHk_HOLD_HOLD n]⟩
]
/-- The registers of the block at 0x4000e000. -/
def rows0E : List RegRow := [
  ⟨0x4000e000, 0x0, 1, fun _ => [F.DEI_CTL_LOCK]⟩,
  ⟨0x4000e010, 0x10, 4, fun n => [F.DEI_GRPg_CTL_MCOUNT n, F.DEI_GRPg_CTL_ORDER n, F.DEI_GRPg_CTL_CHMASK n]⟩,
  ⟨0x4000e014, 0x10, 4, fun n => [F.DEI_GRPg_STAT_OWN n, F.DEI_GRPg_STAT_DRIVE n, F.DEI_GRPg_STAT_MIR_VALID n, F.DEI_GRPg_STAT_STATE n, F.DEI_GRPg_STAT_OWNER n, F.DEI_GRPg_STAT_CLAIMS n]⟩,
  ⟨0x4000e018, 0x10, 4, fun n => [F.DEI_GRPg_ERR_CONF_CNT n, F.DEI_GRPg_ERR_MIR_ERR_CNT n, F.DEI_GRPg_ERR_TAKE_CNT n, F.DEI_GRPg_ERR_COLL_CNT n]⟩,
  ⟨0x4000e060, 0x0, 1, fun _ => [F.DEI_EVSTAT_EV]⟩,
  ⟨0x4000e064, 0x0, 1, fun _ => [F.DEI_EVEN_EV]⟩,
  ⟨0x4000e068, 0x0, 1, fun _ => [F.DEI_ERR_CLR_CLR]⟩
]
/-- The registers of the block at 0x4000f000. -/
def rows0F : List RegRow := [
  ⟨0x4000f000, 0x0, 1, fun _ => [F.ADC_STAT_SEQ1, F.ADC_STAT_SEQ0, F.ADC_STAT_BUSY]⟩,
  ⟨0x4000f004, 0x0, 1, fun _ => [F.ADC_SEQCNT_CNT1, F.ADC_SEQCNT_CNT0]⟩,
  ⟨0x4000f008, 0x0, 1, fun _ => [F.ADC_ERR_CONV_CNT]⟩,
  ⟨0x4000f00c, 0x0, 1, fun _ => [F.ADC_ERR_CLR_CLR]⟩,
  ⟨0x4000f100, 0x4, 33, fun n => [F.ADC_RESn_VALID n, F.ADC_RESn_CODE n, F.ADC_RESn_TAG n]⟩
]
/-- The registers of the block at 0x40010000. -/
def rows10 : List RegRow := [
  ⟨0x40010000, 0x0, 1, fun _ => [F.NTE_STAT_RUN, F.NTE_STAT_NULLING, F.NTE_STAT_NET, F.NTE_STAT_NSIG]⟩,
  ⟨0x40010010, 0x0, 1, fun _ => [F.NTE_RXERR0_CRC_CNT, F.NTE_RXERR0_GAP_CNT, F.NTE_RXERR0_TMO_CNT, F.NTE_RXERR0_SHORT_CNT]⟩,
  ⟨0x40010014, 0x0, 1, fun _ => [F.NTE_RXERR1_NULL_CNT, F.NTE_RXERR1_REPEAT_CNT, F.NTE_RXERR1_TXNULL_CNT, F.NTE_RXERR1_LATE_TX_CNT]⟩,
  ⟨0x40010018, 0x0, 1, fun _ => [F.NTE_ERR_CLR_CLR]⟩,
  ⟨0x4001001c, 0x0, 1, fun _ => [F.NTE_LAST_KIND, F.NTE_LAST_SIGNAL]⟩,
  ⟨0x40010020, 0x0, 1, fun _ => [F.NTE_EVSTAT_ERR, F.NTE_EVSTAT_RX, F.NTE_EVSTAT_CYC]⟩,
  ⟨0x40010024, 0x0, 1, fun _ => [F.NTE_EVEN_ERR, F.NTE_EVEN_RX, F.NTE_EVEN_CYC]⟩,
  ⟨0x40010800, 0x0, 1, fun _ => [F.NTE_TIME_STAT_SYNCED, F.NTE_TIME_STAT_LEAD, F.NTE_TIME_STAT_SRC, F.NTE_TIME_STAT_SRC_PORT, F.NTE_TIME_STAT_CS_STATE, F.NTE_TIME_STAT_HEARD_RANK]⟩,
  ⟨0x40010804, 0x0, 1, fun _ => [F.NTE_LTIME_LO_VALUE]⟩,
  ⟨0x40010808, 0x0, 1, fun _ => [F.NTE_LTIME_HI_VALUE]⟩,
  ⟨0x4001080c, 0x0, 1, fun _ => [F.NTE_NT_LO_VALUE]⟩,
  ⟨0x40010810, 0x0, 1, fun _ => [F.NTE_NT_HI_VALUE]⟩,
  ⟨0x40010814, 0x0, 1, fun _ => [F.NTE_MTICK_VALUE]⟩,
  ⟨0x40010818, 0x0, 1, fun _ => [F.NTE_RATE_VALUE]⟩,
  ⟨0x4001081c, 0x0, 1, fun _ => [F.NTE_LANEOFS_PREV, F.NTE_LANEOFS_NEXT]⟩,
  ⟨0x40010820, 0x0, 1, fun _ => [F.NTE_TRUNKOFS_VALUE]⟩,
  ⟨0x40010824, 0x0, 1, fun _ => [F.NTE_CS_ERR_COLL_CNT, F.NTE_CS_ERR_ABANDON_CNT, F.NTE_CS_ERR_CLREF_CNT, F.NTE_CS_ERR_TLOST_CNT]⟩,
  ⟨0x40010828, 0x0, 1, fun _ => [F.NTE_CLAIM_LAST_NODE_ID, F.NTE_CLAIM_LAST_PORT, F.NTE_CLAIM_LAST_RESULT, F.NTE_CLAIM_LAST_CLASS, F.NTE_CLAIM_LAST_COUNT]⟩,
  ⟨0x4001082c, 0x0, 1, fun _ => [F.NTE_CLAIM_TX_GO, F.NTE_CLAIM_TX_RESULT, F.NTE_CLAIM_TX_CLASS, F.NTE_CLAIM_TX_COUNT]⟩,
  ⟨0x40010830, 0x4, 8, fun n => [F.NTE_CLAIM_IDk_LOW n, F.NTE_CLAIM_IDk_HIGH n]⟩,
  ⟨0x40010850, 0x0, 1, fun _ => [F.NTE_TERR_CLR_CLR]⟩,
  ⟨0x40010880, 0x4, 12, fun n => [F.NTE_SVIEWp_DRIFT_WARN n, F.NTE_SVIEWp_ISO n, F.NTE_SVIEWp_PROB n, F.NTE_SVIEWp_REINT_CNT n, F.NTE_SVIEWp_DRIFT_CNT n, F.NTE_SVIEWp_OFS n]⟩
]
/-- The registers of the block at 0x40011000. -/
def rows11 : List RegRow := [
  ⟨0x40011000, 0x0, 1, fun _ => [F.SSG_STAT_RUN, F.SSG_STAT_NET, F.SSG_STAT_LINK, F.SSG_STAT_ISO]⟩,
  ⟨0x40011004, 0x0, 1, fun _ => [F.SSG_CFG_BABBLE_LIM, F.SSG_CFG_EK3_NODE]⟩,
  ⟨0x40011008, 0x0, 1, fun _ => [F.SSG_NREC_NREC]⟩,
  ⟨0x40011010, 0x0, 1, fun _ => [F.SSG_EVSTAT_EV]⟩,
  ⟨0x40011014, 0x0, 1, fun _ => [F.SSG_EVEN_EV]⟩,
  ⟨0x40011018, 0x0, 1, fun _ => [F.SSG_ERR_CLR_CLR]⟩,
  ⟨0x40011100, 0x20, 12, fun n => [F.SSG_PORTp_STAT_LINK n, F.SSG_PORTp_STAT_ISO n, F.SSG_PORTp_STAT_ROLE n, F.SSG_PORTp_STAT_MS n, F.SSG_PORTp_STAT_BAB_CNT n, F.SSG_PORTp_STAT_ADM_CNT n]⟩,
  ⟨0x40011104, 0x20, 12, fun n => [F.SSG_PORTp_ERR0_EARLY_CNT n, F.SSG_PORTp_ERR0_LATE_CNT n, F.SSG_PORTp_ERR0_TRUNC_CNT n, F.SSG_PORTp_ERR0_LEN_CNT n]⟩,
  ⟨0x40011108, 0x20, 12, fun n => [F.SSG_PORTp_ERR1_HDR_CNT n, F.SSG_PORTp_ERR1_UNSCHED_CNT n, F.SSG_PORTp_ERR1_FRAME_CNT n, F.SSG_PORTp_ERR1_DOWN_CNT n]⟩,
  ⟨0x4001110c, 0x20, 12, fun n => [F.SSG_PORTp_LAST_SLOT n, F.SSG_PORTp_LAST_KIND n]⟩
]
/-- The registers of the block at 0x40012000. -/
def rows12 : List RegRow := [
  ⟨0x40012000, 0x100, 2, fun n => [F.CGW_CHc_CFG_EN n, F.CGW_CHc_CFG_ISO n, F.CGW_CHc_CFG_FD n, F.CGW_CHc_CFG_PREF n, F.CGW_CHc_CFG_AMAX n, F.CGW_CHc_CFG_AMIN n]⟩,
  ⟨0x40012004, 0x100, 2, fun n => [F.CGW_CHc_NBT_NBRP n, F.CGW_CHc_NBT_NTSEG1 n, F.CGW_CHc_NBT_NTSEG2 n, F.CGW_CHc_NBT_NSJW n]⟩,
  ⟨0x40012008, 0x100, 2, fun n => [F.CGW_CHc_DBT_TDC n, F.CGW_CHc_DBT_DBRP n, F.CGW_CHc_DBT_DTSEG1 n, F.CGW_CHc_DBT_DTSEG2 n, F.CGW_CHc_DBT_DSJW n]⟩,
  ⟨0x4001200c, 0x100, 2, fun n => [F.CGW_CHc_NAME_LO_NAME n]⟩,
  ⟨0x40012010, 0x100, 2, fun n => [F.CGW_CHc_NAME_HI_NAME n]⟩,
  ⟨0x40012014, 0x100, 2, fun n => [F.CGW_CHc_STAT_BUSOFF n, F.CGW_CHc_STAT_PASSIVE n, F.CGW_CHc_STAT_ADDR_OK n, F.CGW_CHc_STAT_REC n, F.CGW_CHc_STAT_TEC n, F.CGW_CHc_STAT_ADDR n]⟩,
  ⟨0x40012018, 0x100, 2, fun n => [F.CGW_CHc_ERR_BOFF_CNT n, F.CGW_CHc_ERR_RXDROP_CNT n, F.CGW_CHc_ERR_TXDROP_CNT n, F.CGW_CHc_ERR_TPABORT_CNT n]⟩,
  ⟨0x4001201c, 0x100, 2, fun n => [F.CGW_CHc_ERR_CLR_CLR n]⟩,
  ⟨0x40012800, 0x0, 1, fun _ => [F.CGW_CTL_LOCK]⟩,
  ⟨0x40012804, 0x0, 1, fun _ => [F.CGW_NMAP_NMAP]⟩,
  ⟨0x40012808, 0x0, 1, fun _ => [F.CGW_EVSTAT_EV]⟩,
  ⟨0x4001280c, 0x0, 1, fun _ => [F.CGW_EVEN_EV]⟩
]
/-- The registers of the block at 0x40013000. -/
def rows13 : List RegRow := [
  ⟨0x40013000, 0x0, 1, fun _ => [F.STE_STAT_LINK, F.STE_STAT_MOUNTED, F.STE_STAT_RO_MODE, F.STE_STAT_LOW_SPARE, F.STE_STAT_PATROL_LATE, F.STE_STAT_AUDIT_FULL, F.STE_STAT_SPARE]⟩,
  ⟨0x40013004, 0x0, 1, fun _ => [F.STE_WEAR_HIGH, F.STE_WEAR_LOW]⟩,
  ⟨0x40013008, 0x0, 1, fun _ => [F.STE_BAD_GROWN, F.STE_BAD_FACTORY]⟩,
  ⟨0x4001300c, 0x0, 1, fun _ => [F.STE_PATROL_PASSES, F.STE_PATROL_POS]⟩,
  ⟨0x40013010, 0x0, 1, fun _ => [F.STE_AUD_WP_AUD_WP]⟩,
  ⟨0x40013014, 0x0, 1, fun _ => [F.STE_ERR_UE_CNT, F.STE_ERR_RELOC_CNT, F.STE_ERR_RETIRE_CNT, F.STE_ERR_LINK_CNT]⟩,
  ⟨0x40013018, 0x0, 1, fun _ => [F.STE_ERR_CLR_CLR]⟩,
  ⟨0x4001301c, 0x0, 1, fun _ => [F.STE_EVSTAT_EV]⟩,
  ⟨0x40013020, 0x0, 1, fun _ => [F.STE_EVEN_EV]⟩
]
/-- The registers of the block at 0x40014000. -/
def rows14 : List RegRow := [
  ⟨0x40014000, 0x0, 1, fun _ => [F.EVR_CTL_EN, F.EVR_CTL_LOCK]⟩,
  ⟨0x40014004, 0x0, 1, fun _ => [F.EVR_BUF_BUF]⟩,
  ⟨0x40014008, 0x0, 1, fun _ => [F.EVR_CKSEL_SRC, F.EVR_CKSEL_DIV, F.EVR_CKSEL_FIRST, F.EVR_CKSEL_COUNT]⟩,
  ⟨0x4001400c, 0x0, 1, fun _ => [F.EVR_FRZCFG_MARK, F.EVR_FRZCFG_EDGE, F.EVR_FRZCFG_MINCLASS]⟩,
  ⟨0x40014010, 0x0, 1, fun _ => [F.EVR_STAT_RUN, F.EVR_STAT_LINKWAIT, F.EVR_STAT_BUFS, F.EVR_STAT_WIN, F.EVR_STAT_QLVL]⟩,
  ⟨0x40014014, 0x0, 1, fun _ => [F.EVR_SEGNO_SEGNO]⟩,
  ⟨0x40014018, 0x0, 1, fun _ => [F.EVR_SEALNO_SEALNO]⟩,
  ⟨0x4001401c, 0x0, 1, fun _ => [F.EVR_ERR_QLOSS_CNT, F.EVR_ERR_DROP_CNT, F.EVR_ERR_FRZREF_CNT]⟩,
  ⟨0x40014020, 0x0, 1, fun _ => [F.EVR_ERR_CLR_CLR]⟩
]
/-- The registers of the block at 0x40015000. -/
def rows15 : List RegRow := [
  ⟨0x40015000, 0x0, 1, fun _ => [F.CRU_CTL_LOCK]⟩,
  ⟨0x40015004, 0x0, 1, fun _ => [F.CRU_STAT_BUSY, F.CRU_STAT_TRNG_OK, F.CRU_STAT_IDKEY]⟩
]
/-- The registers of the block at 0x40016000. -/
def rows16 : List RegRow := [
  ⟨0x40016000, 0x0, 1, fun _ => [F.BSC_STAT_SU_DONE, F.BSC_STAT_SU_FAIL, F.BSC_STAT_BUSY, F.BSC_STAT_CLASS, F.BSC_STAT_TEST, F.BSC_STAT_NSLICE]⟩,
  ⟨0x40016004, 0x0, 1, fun _ => [F.BSC_PASS_PASS]⟩,
  ⟨0x40016008, 0x0, 1, fun _ => [F.BSC_LAST_TEST, F.BSC_LAST_CLASS, F.BSC_LAST_ELEMENT]⟩,
  ⟨0x4001600c, 0x0, 1, fun _ => [F.BSC_ERR_FAIL_CNT, F.BSC_ERR_ABORT_CNT, F.BSC_ERR_STARVE_CNT, F.BSC_ERR_LATE_CNT]⟩,
  ⟨0x40016010, 0x0, 1, fun _ => [F.BSC_ERR_CLR_CLR]⟩,
  ⟨0x40016014, 0x0, 1, fun _ => [F.BSC_EVSTAT_EV]⟩,
  ⟨0x40016018, 0x0, 1, fun _ => [F.BSC_EVEN_EV]⟩,
  ⟨0x40016100, 0x4, 256, fun n => [F.BSC_SLICEr_CUR n, F.BSC_SLICEr_STARVED n, F.BSC_SLICEr_ABORTS n, F.BSC_SLICEr_NEXT n]⟩
]
/-- The registers of the block at 0x40017000. -/
def rows17 : List RegRow := [
  ⟨0x40017000, 0x0, 1, fun _ => [F.PPR_CTL_ARMED, F.PPR_CTL_ALLOWED, F.PPR_CTL_DISARM, F.PPR_CTL_ARM]⟩,
  ⟨0x40017004, 0x0, 1, fun _ => [F.PPR_SEED_SEED]⟩,
  ⟨0x40017008, 0x0, 1, fun _ => [F.PPR_STAT_ARM_CNT, F.PPR_STAT_ACT_CNT]⟩,
  ⟨0x40017100, 0x10, 8, fun n => [F.PPR_INJi_PARAM_PARAM n]⟩,
  ⟨0x40017104, 0x10, 8, fun n => [F.PPR_INJi_CFG_EN n, F.PPR_INJi_CFG_MODE n, F.PPR_INJi_CFG_KIND n, F.PPR_INJi_CFG_TARGET n, F.PPR_INJi_CFG_N n]⟩,
  ⟨0x40017108, 0x10, 8, fun n => [F.PPR_INJi_CNT_CNT n]⟩
]
/-- The registers of the block at 0x40018000. -/
def rows18 : List RegRow := [
  ⟨0x40018000, 0x0, 1, fun _ => [F.LCS_ID_PART, F.LCS_ID_STEP, F.LCS_ID_LANE]⟩,
  ⟨0x40018004, 0x0, 1, fun _ => [F.LCS_STATE_SVC, F.LCS_STATE_HOLD, F.LCS_STATE_NONCE_S, F.LCS_STATE_PEND_LC, F.LCS_STATE_LC]⟩,
  ⟨0x40018008, 0x0, 1, fun _ => [F.LCS_SVC_REMAIN_REMAIN]⟩,
  ⟨0x4001800c, 0x0, 1, fun _ => [F.LCS_CTL_LOCK]⟩,
  ⟨0x40018010, 0x0, 1, fun _ => [F.LCS_SERIAL_LO_SERIAL]⟩,
  ⟨0x40018014, 0x0, 1, fun _ => [F.LCS_SERIAL_HI_SERIAL]⟩,
  ⟨0x40018018, 0x0, 1, fun _ => [F.LCS_FW_STAT_REFUSE, F.LCS_FW_STAT_FALLBACK, F.LCS_FW_STAT_PENDING, F.LCS_FW_STAT_PSLOT, F.LCS_FW_STAT_ASLOT]⟩,
  ⟨0x4001801c, 0x0, 1, fun _ => [F.LCS_FW_VER_VERSION]⟩,
  ⟨0x40018020, 0x0, 1, fun _ => [F.LCS_CNT_FW_CNT]⟩,
  ⟨0x40018024, 0x0, 1, fun _ => [F.LCS_CNT_IMG_CNT]⟩,
  ⟨0x40018028, 0x0, 1, fun _ => [F.LCS_CNT_LEFT_FW, F.LCS_CNT_LEFT_IMG]⟩,
  ⟨0x4001802c, 0x0, 1, fun _ => [F.LCS_BOOT_PAIR, F.LCS_BOOT_XTAL_KHZ]⟩,
  ⟨0x40018030, 0x0, 1, fun _ => [F.LCS_ERR_SVCREF_CNT, F.LCS_ERR_DBGDENY_CNT, F.LCS_ERR_TRNG_CNT, F.LCS_ERR_LOCKLATE_CNT]⟩,
  ⟨0x40018034, 0x0, 1, fun _ => [F.LCS_ERR_CLR_CLR]⟩,
  ⟨0x40018040, 0x4, 16, fun n => [F.LCS_IDPUBn_PUB n]⟩,
  ⟨0x40018080, 0x4, 8, fun n => [F.LCS_KEYk_STATE n]⟩
]
/-- The registers of the block at 0x40019000. -/
def rows19 : List RegRow := [
  ⟨0x40019000, 0x0, 1, fun _ => [F.GPIO_DIR_DIR]⟩,
  ⟨0x40019004, 0x0, 1, fun _ => [F.GPIO_OUT_OUT]⟩,
  ⟨0x40019008, 0x0, 1, fun _ => [F.GPIO_IN_IN]⟩,
  ⟨0x4001900c, 0x0, 1, fun _ => [F.GPIO_IRQ_FALL, F.GPIO_IRQ_RISE]⟩,
  ⟨0x40019010, 0x0, 1, fun _ => [F.GPIO_EVSTAT_EV]⟩,
  ⟨0x40019014, 0x0, 1, fun _ => [F.GPIO_TRG_TRG]⟩,
  ⟨0x40019400, 0x0, 1, fun _ => [F.GPIO_SPI_CFG_EN, F.GPIO_SPI_CFG_TRG, F.GPIO_SPI_CFG_CPHA, F.GPIO_SPI_CFG_CPOL, F.GPIO_SPI_CFG_LEN, F.GPIO_SPI_CFG_DIV]⟩,
  ⟨0x40019404, 0x0, 1, fun _ => [F.GPIO_SPI_TX_TX]⟩,
  ⟨0x40019408, 0x0, 1, fun _ => [F.GPIO_SPI_RX_RX]⟩,
  ⟨0x4001940c, 0x0, 1, fun _ => [F.GPIO_SPI_STAT_RXLVL, F.GPIO_SPI_STAT_TXLVL, F.GPIO_SPI_STAT_BUSY, F.GPIO_SPI_STAT_OVR, F.GPIO_SPI_STAT_UND]⟩
]
/-- The registers of the block at 0x4001a000. -/
def rows1A : List RegRow := [
  ⟨0x4001a000, 0x0, 1, fun _ => [F.CHP_CTL_ITHR, F.CHP_CTL_LOCK]⟩,
  ⟨0x4001a004, 0x0, 1, fun _ => [F.CHP_VON_VON]⟩,
  ⟨0x4001a008, 0x0, 1, fun _ => [F.CHP_VOFF_VOFF]⟩,
  ⟨0x4001a00c, 0x0, 1, fun _ => [F.CHP_VREQ_VREQ]⟩,
  ⟨0x4001a010, 0x0, 1, fun _ => [F.CHP_DVLIM_DVLIM]⟩,
  ⟨0x4001a014, 0x0, 1, fun _ => [F.CHP_STAT_GATE, F.CHP_STAT_REQ, F.CHP_STAT_NOCUR, F.CHP_STAT_RISE, F.CHP_STAT_STUCK, F.CHP_STAT_ON_CNT]⟩,
  ⟨0x4001a018, 0x0, 1, fun _ => [F.CHP_ERR_CLR_CLR]⟩
]
end RegMap

/-- The rows of one 4 KiB block (R48), numbered by bits [19:12] of its base. -/
def regRowsOf : Nat → List RegRow
  | 0 => RegMap.rows00
  | 1 => RegMap.rows01
  | 2 => RegMap.rows02
  | 3 => RegMap.rows03
  | 4 => RegMap.rows04
  | 5 => RegMap.rows05
  | 6 => RegMap.rows06
  | 7 => RegMap.rows07
  | 8 => RegMap.rows08
  | 9 => RegMap.rows09
  | 10 => RegMap.rowsMe 0
  | 11 => RegMap.rowsMe 1
  | 12 => RegMap.rows0C
  | 13 => RegMap.rows0D
  | 14 => RegMap.rows0E
  | 15 => RegMap.rows0F
  | 16 => RegMap.rows10
  | 17 => RegMap.rows11
  | 18 => RegMap.rows12
  | 19 => RegMap.rows13
  | 20 => RegMap.rows14
  | 21 => RegMap.rows15
  | 22 => RegMap.rows16
  | 23 => RegMap.rows17
  | 24 => RegMap.rows18
  | 25 => RegMap.rows19
  | 26 => RegMap.rows1A
  | _ => []

/-- The fields of the register at a lane address, or none where the block holds no register there (R47). -/
def fldsAt (addr : Nat) : Option (List Fld) :=
  let rec go : List RegRow → Option (List Fld)
    | [] => none
    | r :: rs =>
      if r.base ≤ addr ∧ (addr - r.base = 0 ∨ (r.stride ≠ 0 ∧ (addr - r.base) % r.stride = 0 ∧
          (addr - r.base) / r.stride < r.count)) then
        some (r.flds (if r.stride = 0 then 0 else (addr - r.base) / r.stride))
      else go rs
  go (regRowsOf ((addr / 4096) % 256))

end Sys2Proof.Machine
end

