-- ==== Sys2Proof/Machine/Base.lean ====
section
/-! DEFINITION. Bit fields, byte order, saturation, CRC-32C and sparse maps: the helpers that every block uses. -/

namespace Sys2Proof.Machine

/-- Bits `[lo + n - 1 : lo]` of a word as a number (R12). -/
def bitsOf (w : Word) (lo n : Nat) : Nat := (w.toNat >>> lo) % 2 ^ n

/-- Bits `[lo + n - 1 : lo]` of a 64-bit word as a number. -/
def bitsOf64 (w : Word64) (lo n : Nat) : Nat := (w.toNat >>> lo) % 2 ^ n

/-- One bit of a word. -/
def bitAt (w : Word) (i : Nat) : Bool := w.getLsbD i

/-- A number as a word. -/
def toW (n : Nat) : Word := BitVec.ofNat 32 n

/-- A number placed at bit `lo`. -/
def at' (lo n : Nat) : Word := BitVec.ofNat 32 (n <<< lo)

/-- A truth value as 0 or 1. -/
def b2n (b : Bool) : Nat := if b then 1 else 0

/-- A word with bit `i` set or cleared. -/
def setBit (w : Word) (i : Nat) (v : Bool) : Word :=
  if v then w ||| BitVec.ofNat 32 (2 ^ i) else w &&& ~~~ BitVec.ofNat 32 (2 ^ i)

/-- The low 16 bits of a number as a signed number. -/
def sext16 (n : Nat) : Int := (BitVec.ofNat 16 n).toInt

/-- An integer limited to the range of a signed 32-bit word. -/
def sat32 (x : Int) : Int := if x < -2147483648 then -2147483648 else if 2147483647 < x then 2147483647 else x

/-- An integer as a word, saturating. -/
def satW (x : Int) : Word := BitVec.ofInt 32 (sat32 x)

/-- The low and high halves of a 64-bit word. -/
def lo32 (w : Word64) : Word := w.setWidth 32
def hi32 (w : Word64) : Word := (w >>> 32).setWidth 32
def cat64 (hi lo : Word) : Word64 := (hi ++ lo : BitVec (32 + 32))

/-- Four bytes, least significant first, as a word (R13). -/
def leWord : List Byte → Word
  | [] => 0
  | b :: bs => (leWord bs) <<< 8 ||| b.setWidth 32

/-- A word as its four bytes, least significant first (R13). -/
def wordBytes (w : Word) : List Byte :=
  [w.setWidth 8, (w >>> 8).setWidth 8, (w >>> 16).setWidth 8, (w >>> 24).setWidth 8]

/-- Words as bytes, each little-endian. -/
def wordsBytes (ws : List Word) : List Byte := ws.flatMap wordBytes

/-- A big-endian number of a list of bytes, as network frames hold it (R13). -/
def beNat : List Byte → Nat
  | bs => bs.foldl (fun a b => a * 256 + b.toNat) 0

/-- A word as four bytes, most significant first. -/
def wordBytesBe (w : Word) : List Byte := (wordBytes w).reverse

/-- A number as `n` bytes, most significant first. -/
def natBytesBe : Nat → Nat → List Byte
  | 0, _ => []
  | n + 1, v => BitVec.ofNat 8 (v >>> (8 * n)) :: natBytesBe n v

/-- A number as `n` bytes, least significant first. -/
def natBytesLe : Nat → Nat → List Byte
  | 0, _ => []
  | n + 1, v => BitVec.ofNat 8 v :: natBytesLe n (v >>> 8)

/-- A little-endian number of a list of bytes. -/
def leNat : List Byte → Nat
  | [] => 0
  | b :: bs => b.toNat + 256 * leNat bs

/-- One bit of the CRC-32C shift register, reflected form of polynomial 0x1EDC6F41 (R316). PRESUMED: log 15. -/
def crcBit (c : Word) : Word := if c.getLsbD 0 then (c >>> 1) ^^^ 0x82F63B78 else c >>> 1

/-- One byte of CRC-32C. -/
def crcByte (c : Word) (b : Byte) : Word :=
  let c0 := c ^^^ b.setWidth 32
  crcBit (crcBit (crcBit (crcBit (crcBit (crcBit (crcBit (crcBit c0)))))))

/-- CRC-32C over bytes: initial value and final inversion all ones (R316). -/
def crc32c (bs : List Byte) : Word := ~~~ (bs.foldl crcByte 0xFFFFFFFF)

/-- CRC-32C over words, each little-endian. -/
def crcWords (ws : List Word) : Word := crc32c (wordsBytes ws)

/-- Signed comparison helpers on words. -/
def sgn (w : Word) : Int := w.toInt

/-- Modular 32-bit order of checkpoint numbers: `a` is before `b` (R459). -/
def modBefore (a b : Word) : Bool := (a - b).msb

/-- The next lane of A is B, of B is C and of C is A (R50, R155). -/
def nextLane : LaneId → LaneId
  | .a => .b
  | .b => .c
  | .c => .a

/-- The previous lane. -/
def prevLane : LaneId → LaneId
  | .a => .c
  | .b => .a
  | .c => .b

/-- The peer of link 0 (next lane) or link 1 (previous lane) (R155). -/
def linkPeer (l : LaneId) (link : Nat) : LaneId := if link = 0 then nextLane l else prevLane l

/-- The number of a lane: 0 A, 1 B, 2 C. -/
def laneNo : LaneId → Nat
  | .a => 0
  | .b => 1
  | .c => 2

/-- The lane of a number; 3 and above name none. -/
def laneOf : Nat → Option LaneId
  | 0 => some .a
  | 1 => some .b
  | 2 => some .c
  | _ => none

/-- The link of lane `l` to another lane `p`, if they differ. -/
def linkTo (l p : LaneId) : Option Nat :=
  if p = nextLane l then some 0 else if p = prevLane l then some 1 else none

/-- A sparse map: pairs of key and value, keys strictly rising; a key that is not listed has a default value. -/
def smFind {α : Type} (m : List (Nat × α)) (k : Nat) : Option α :=
  match m with
  | [] => none
  | (k', v) :: rest => if k' = k then some v else if k < k' then none else smFind rest k

/-- A key removed. -/
def smErase {α : Type} (m : List (Nat × α)) (k : Nat) : List (Nat × α) :=
  match m with
  | [] => []
  | (k', v) :: rest => if k' = k then rest else if k < k' then (k', v) :: rest else (k', v) :: smErase rest k

/-- A key set to a value. -/
def smSet {α : Type} (m : List (Nat × α)) (k : Nat) (v : α) : List (Nat × α) :=
  match m with
  | [] => [(k, v)]
  | (k', v') :: rest =>
    if k' = k then (k, v) :: rest else if k < k' then (k, v) :: (k', v') :: rest else (k', v') :: smSet rest k v

/-- A key set, with the default value `d` of that key left out of the list. -/
def smPut {α : Type} [DecidableEq α] (m : List (Nat × α)) (k : Nat) (d v : α) : List (Nat × α) :=
  if v = d then smErase m k else smSet m k v

/-- The value of a key, or its default. -/
def smGet {α : Type} (m : List (Nat × α)) (k : Nat) (d : α) : α := (smFind m k).getD d

/-- Keys strictly rise from above `lo` on. -/
def smSortedFrom {α : Type} (lo : Nat) (m : List (Nat × α)) : Bool :=
  match m with
  | [] => true
  | (k, _) :: rest => decide (lo ≤ k) && smSortedFrom (k + 1) rest

/-- Keys strictly rise. -/
def smSorted {α : Type} (m : List (Nat × α)) : Bool := smSortedFrom 0 m

/-- A number put into a rising list. -/
def insAsc (x : Nat) : List Nat → List Nat
  | [] => [x]
  | y :: ys => if x ≤ y then x :: y :: ys else y :: insAsc x ys

/-- Numbers in rising order. -/
def sortAsc : List Nat → List Nat
  | [] => []
  | x :: xs => insAsc x (sortAsc xs)

/-- The element of a list at a position, or a default. -/
def nth {α : Type} (xs : List α) (i : Nat) (d : α) : α := xs.getD i d

/-- A list with the element at a position replaced. -/
def setNth {α : Type} (xs : List α) (i : Nat) (v : α) : List α := xs.set i v

/-- A function applied to a state for each number of a list, in order. -/
def forEach {σ : Type} (xs : List Nat) (f : Nat → σ → σ) (s : σ) : σ := xs.foldl (fun a i => f i a) s

end Sys2Proof.Machine
end

