-- ==== Sys2Proof/Machine/State.lean ====
section
/-! DEFINITION. The state of the EK3 as plain data: three lanes, the storage die and the queue of waiting commands. Most
registers are held as the fields of the register map; what the spec gives beside registers stands in named fields. -/

namespace Sys2Proof.Machine

/-- Where a lane is between power-on and Dormant (R399 to R411). -/
inductive Phase where
  /-- no supply -/
  | off
  /-- in reset, waiting for x_PG (R400) -/
  | waitPg
  /-- PG_TMO: held in reset until AOS power-on (R400) -/
  | heldPg
  /-- bring-up (R403) -/
  | bringUp
  /-- a domain failed at bring-up: held in reset until AOS power-on (R403) -/
  | heldDomain
  /-- the Boot ROM check failed: held in reset (R41) -/
  | heldRom
  /-- SCRAPPED: never leaves substate 0x0 (R439) -/
  | scrapped
  /-- released -/
  | run
  /-- in Dormant (R408) -/
  | dormant
  /-- woken from Dormant, before rejoin (R411) -/
  | waking
deriving DecidableEq, Repr, Inhabited

/-- What a latent memory upset is (R37 to R39). -/
inductive UpsetKind where
  | single
  | double
  | address
deriving DecidableEq, Repr, Inhabited

/-- What the latest bus access of a core came to (R39, R46, R31). -/
inductive BusResp where
  | idle
  /-- the access is on its way: to the always-on island (R30), or to a domain that is being woken (R407) -/
  | waiting
  | ok (data : Word)
  | accessFault
  | busError
deriving DecidableEq, Repr, Inhabited

/-- A transfer on crossing 0x10 that is not yet delivered: a posted write to the always-on island, or a read of it by the
core named (R30). DEDUCED: log 29. -/
structure Posted where
  reader : Option Nat
  addr : Word
  val : Word
deriving DecidableEq, Repr, Inhabited

/-- A core access that waits for its domain to wake (R407). -/
structure HeldAcc where
  op : CoreOp
  w : Width
  addr : Word
  data : Word
deriving DecidableEq, Repr, Inhabited

/-- Power, clocks and bring-up of a lane beside the registers of AOS and CLK. -/
structure PwrSt where
  phase : Phase
  /-- the domain that bring-up raises next, 7 when all are ready (R403) -/
  domNext : Nat
  /-- failed attempts at that domain -/
  domTry : Nat
  /-- the crystal: not yet decided, ready, or not ready in time (R404, R405) -/
  xtal : Option Bool
  /-- failed PLL attempts, and the PLL's outcome -/
  pllTry : Nat
  pll : Option Bool
  /-- the Boot ROM check has passed -/
  romOk : Bool
  /-- domains being woken by an access (R407) -/
  waking : BitVec 7
  /-- domains in retention -/
  retained : BitVec 7
  /-- wake events not yet acted on, bit per source code (R410, R413) -/
  wakePend : BitVec 8
  /-- Dormant entry is in step A, B, waiting for C, D or E; 0 when none (R408) -/
  dormStep : Nat
  /-- lane time at which entry was abandoned at AP2: links idle within 10 us of it still matter (R410) -/
  ap2Abandon : Option Nat
  /-- 1/15625 fractions of a tick of the 32.768 kHz clock since AOS_TMR stepped -/
  tmrFrac : Nat
  /-- a lane reset has been applied since power-on of the lane (R166) -/
  everReset : Bool
  /-- x_PG has been seen since AOS power-on (R400) -/
  pgOnce : Bool
  /-- isolations of each star port since power-on of the lane, by place in the list of ports (R346) -/
  isos : List (Nat × Nat)
deriving DecidableEq, Repr, Inhabited

/-- One word of a cache of a core (R37, R39): memory index 8 for an instruction cache and 9 for a data cache, the core, the
physical address of the word, and what upset it. Its data is that of the memory behind it. DESIGN CHOICE: log 104. -/
structure CacheWord where
  m : Nat
  core : Nat
  addr : Nat
  upset : Option UpsetKind
deriving DecidableEq, Repr, Inhabited

/-- One application core as the lane sees it (R54, R55, R209 debug). DESIGN CHOICE: log 31. -/
structure CoreSt where
  stopped : Bool
  halted : Bool
  resp : BusResp
  /-- machine timer interrupt input (R51) -/
  mtip : Bool
  held : Option HeldAcc
deriving DecidableEq, Repr, Inhabited

/-- The interrupt controller beside its registers: pending, claimed and raised again while claimed (R52).
PRESUMED: log 14. -/
structure PlicSt where
  pend : BitVec 128
  served : BitVec 128
  again : BitVec 128
deriving DecidableEq, Repr, Inhabited

/-- The LSM beside its registers: raise counts (R169) and what the next input sample reports (R150, R173).
DESIGN CHOICE: log 31. -/
structure LsmSt where
  cnt : List (Nat × Nat)
  degradeSeen : Bool
  excludeReact : Bool
  safestopReact : Bool
  selfFail : Bool
  /-- a DEGRADE reaction of this lane that the mode sequencer has not seen yet (R78) -/
  degradePend : Bool
  /-- x_ALIVE (R172) -/
  alive : Bool
  /-- the lane's TLS is halted by a cross-lane request (R177) -/
  tlsHalt : Bool
  /-- this lane asserts its cross-lane halt request (R177) -/
  haltOut : Bool
  /-- peers whose cross-lane halt request is seen -/
  haltSeen : BitVec 3
  /-- errors of memory words that were met while a source was being raised and are still to be reported: what was found, memory
  index, address (R38, R39) -/
  eccDue : List (UpsetKind × Nat × Nat)
deriving DecidableEq, Repr, Inhabited

/-- One section of the running image, as its block holds it: type, offset in the image, record count and bytes (R89, R90). -/
structure Section where
  type : Nat
  offset : Nat
  count : Nat
  bytes : List Byte
deriving DecidableEq, Repr, Inhabited

/-- The timeline sequencer and the Image Loader beside their registers. -/
structure TlsSt where
  /-- the running image's sections, and its header -/
  secs : List Section
  hdr : List Byte
  /-- position in the running list: the next entry looked at -/
  pos : Nat
  /-- substate 0x2 has verified an image that is not yet copied: its slot and image -/
  verified : Option Nat
  /-- slots of passed STAGE_VERIFY since the last write (R98), bit per slot -/
  stageOk : BitVec 2
  /-- a voted edge waits for its boundary: edge index, and whether it answers this lane's request (R77) -/
  edgeDue : Option (Nat × Bool)
  /-- triggers of R78 seen and not yet acted on: a lane loss, a network of NETSET down, SAFESTOP_REACT of a member -/
  lossDue : Bool
  netDue : Bool
  safeReact : Bool
  /-- a SAFE edge is due and waits for its bank; its 0x07F has been raised (R81) -/
  safeWait : Bool
  /-- a FAULT edge is due and waits for a bank (R81) -/
  faultWait : Bool
  /-- the agreed LANESTAT shows SVC for a member (R64) -/
  svcAny : Bool
  /-- the bank being loaded and its point (R82) -/
  loading : Option (Nat × Nat)
  /-- targets whose load failed while the current point stays current (R83) -/
  failedPts : List Nat
  /-- the head mode request: its word, stage and age in checkpoints (R71 to R76) -/
  reqWord : Option Word
  /-- 0 waiting for its first sample, 1 sampled, 2 in the guard stage, 3 agreed before and to pass R74 again (R81) -/
  reqStage : Nat
  reqAge : Nat
  /-- the request has ended and its descriptor is still to complete: ERR, STATE, DETAIL and PROGRESS (R80, R84) -/
  reqEnd : Option (Nat × Nat × Nat × Nat)
  /-- request 0xFF accepted: Service hold at the next checkpoint (R74) -/
  svcHoldDue : Bool
  /-- the code of the agreed request that has passed R74, 0 none (R79, R81) -/
  guardCode : Nat
  /-- a late lane follows to this point once its bank is ready (R161) -/
  lateSwitch : Option Nat
deriving DecidableEq, Repr, Inhabited

/-- A descriptor (R120). -/
structure Desc where
  w0 : Word
  w1 : Word
  w2 : Word
  w3 : Word
  w4 : Word
  w5 : Word
  w6 : Word
  w7 : Word
deriving DecidableEq, Repr, Inhabited

/-- A descriptor that an engine has fetched and checked (R131). -/
structure Run where
  ring : Nat
  seq : Nat
  d : Desc
  progress : Nat
  /-- an intermediate status write failed: no further one (R140) -/
  mute : Bool
  /-- an abort is requested and completes at the next boundary (R140) -/
  abort : Bool
  /-- acknowledged or engine-specific progress -/
  aux : Nat
  /-- the part of a message that the crypto unit has taken in (R452) -/
  msg : List Byte
deriving DecidableEq, Repr, Inhabited

/-- One ring engine: the running descriptor, work that waits QUEUED in the order of its fetch, four resume slots, the ring last
served (R134, R135). -/
structure Engine where
  run : Option Run
  queued : List Run
  slot0 : Option Run
  slot1 : Option Run
  slot2 : Option Run
  slot3 : Option Run
  last : Nat
deriving DecidableEq, Repr, Inhabited

/-- A cached translation (R138). -/
structure TlbEnt where
  ctx : Nat
  page : Nat
  entry : Word
  block : Bool
deriving DecidableEq, Repr, Inhabited

/-- Rings and the LMMU beside their registers. -/
structure RingSt where
  /-- nine engines, numbered by role 0x0 to 0x8; role 0x9 is served by engine 7 (R118) -/
  eng : List Engine
  /-- rings whose following descriptors are dependents of a broken chain (R123), bit n for ring n -/
  broken : BitVec 32
  tlb0 : List TlbEnt
  tlb1 : List TlbEnt
  tlb2 : List TlbEnt
  /-- the invalidation in progress: scope, context, page (R138) -/
  inv : Option (Nat × Nat × Nat)
  /-- rings stop fetching for Dormant entry (R408) -/
  noFetch : Bool
  /-- CAN_RECV descriptors that wait for a message (R362) -/
  recv : List Run
deriving DecidableEq, Repr, Inhabited

/-- A peer's sample of the round as it arrives (R151). -/
structure RxSample where
  words : List Word
  done : Bool
  scrc : Word
  ckpt : Word
deriving DecidableEq, Repr, Inhabited

/-- A peer's vote transfers of the round as they arrive (R153, R156). -/
structure RxVote where
  words : List Word
  done : Bool
  agreeCrc : Word
  echo : Word
  flags : BitVec 4
deriving DecidableEq, Repr, Inhabited

/-- What a FORM transfer of the latest round said (R159). -/
structure RxForm where
  payload : Word
  ckpt : Word
deriving DecidableEq, Repr, Inhabited

/-- A CATCHUP transfer set as received (R167). -/
structure RxCatch where
  words : List Word
  done : Bool
deriving DecidableEq, Repr, Inhabited

/-- The mirror words of a round from one peer: the words, and whether the round's set is already discarded (R298). -/
structure RxMirror where
  words : List Word
  bad : Bool
deriving DecidableEq, Repr, Inhabited

/-- The round in progress, and Clove beside its registers. -/
structure ClvSt where
  /-- a round is open: its samples and votes are being exchanged -/
  round : Bool
  /-- the own LANESTAT of the round reports EXCLUDE_REACT or IMMEDIATE -/
  said : Bool
  /-- the frozen sample, none where a word could not be read (R492), and its SCRC -/
  own : Option (List Word)
  ownScrc : Word
  /-- samples, votes and mirror words of the round as they arrive on links 0 and 1 -/
  rxS0 : RxSample
  rxS1 : RxSample
  rxV0 : RxVote
  rxV1 : RxVote
  rxM0 : RxMirror
  rxM1 : RxMirror
  /-- the own vote vector, read once -/
  vote : Option (List Word)
  /-- the provisional vector and its CRC (R152), and the lanes whose samples counted in it -/
  prov : Option (List Word)
  provCrc : Word
  provUse : BitVec 3
  /-- the vector that checkpoint k + 1 writes (R144) -/
  nextAgreed : Option (List Word)
  /-- the vote of the round is complete (step 5) -/
  voteDone : Bool
  /-- the voted words of the round; none where a word has no voted value -/
  voted : List (Option Word)
  /-- too few copies are present for a voted value (R153) -/
  late : Bool
  /-- the voted vector is released -/
  released : Bool
  /-- lanes in the minority of the round -/
  minor : BitVec 3
  /-- the latest voted value of each vote word (R146) -/
  lastVoted : List Word
  /-- AGREE_SPLIT rounds in a row (R152) -/
  splitRun : Nat
  /-- members of the lane set; bit 0 A -/
  members : BitVec 3
  /-- peers whose agreed LANESTAT showed IMMEDIATE (0x073) -/
  peerImm : BitVec 3
  /-- the latest round showed EXCL_YOU from every other member (R154) -/
  exclYou : Bool
  /-- a duplex disagreement of the previous round waits for the SELF_FAIL flags of the next (R174) -/
  disagree : Bool
  /-- this lane has excluded itself and the members do not know it yet -/
  unsaid : Bool
  /-- excluded by IMMEDIATE_SAFE or an unresolved disagreement: no re-integration (R166) -/
  noReint : Bool
  /-- the lane joined late and has had no lane reset since power-on (R166) -/
  lateFree : Bool
  /-- a late lane has not yet reached the members' point (R161) -/
  lateWait : Bool
  /-- the lane had SELF_FAIL = 1 in an unresolved duplex disagreement: it claims no valve group (R174, R293) -/
  barred : Bool
  /-- owned groups of which a mirror word of the round could not be read (R492) -/
  mirBad : BitVec 4
  /-- the mailbox message that is arriving on links 0 and 1: offset of its first word and words so far (R165) -/
  mbx0 : Option (Nat × Nat)
  mbx1 : Option (Nat × Nat)
  /-- checkpoints since the latest reaction stronger than RECORD, up to 128 (R166) -/
  quiet : Nat
  /-- checkpoints spent in the current re-integration step; ready for the next (R167) -/
  reintAge : Nat
  reintReady : Bool
  /-- shadow rounds still to run -/
  shadowLeft : Nat
  rxC0 : RxCatch
  rxC1 : RxCatch
  /-- what a member has seen of a peer's re-integration: 0 nothing, 1 READY, 2 catch-up sent, 3 READY again; hyperperiod
  boundaries since the catch-up set -/
  peerStep : Nat
  peerHp : Nat
  /-- lanes whose agreed LANESTAT shows REINT_READY -/
  agreedReady : BitVec 3
  /-- formation: latest FORM transfers, the own payload of the round, consecutive rounds of one pick (lane-set code, 7 none) -/
  rxF0 : Option RxForm
  rxF1 : Option RxForm
  sentForm : Option Word
  pick : Nat
  pickRun : Nat
  /-- FORM_WAIT has ended; checkpoints since then -/
  formOver : Bool
  formAge : Nat
  /-- lanes heard sending SAMPLE or VOTE transfers while this lane is in substate 0x5, and those sending VOTE (R161) -/
  heard : BitVec 3
  heardVote : BitVec 3
  /-- rejoin after Dormant: the members at entry (R412) -/
  rejoin : Option (BitVec 3)
  /-- a non-member has taken the members' number (R491) -/
  tookNum : Bool
  /-- links: rounds since the latest good SAMPLE, failed training attempts in substate 0x3, digest of the peer, difference
  already reported, given up after three failed attempts -/
  quiet0 : Nat
  quiet1 : Nat
  train0 : Nat
  train1 : Nat
  dig0 : List Word
  dig1 : List Word
  digDiff0 : Bool
  digDiff1 : Bool
  gaveUp0 : Bool
  gaveUp1 : Bool
deriving DecidableEq, Repr, Inhabited

/-- An event that waits in the recorder's queue: record type, payload word, checkpoint number, lane time in ns (R384, R385). -/
structure EvrEvt where
  typ : Nat
  word : Word
  ck : Word
  time : Nat
deriving DecidableEq, Repr, Inhabited

/-- A frozen window of the recorder (R390, R391); `state` 1 open, 2 closed. -/
structure EvrWin where
  win : Nat
  trig : Nat
  state : Nat
  first : Nat
  last : Nat
  sealNo : Nat
  ckpt : Word
  time : Nat
deriving DecidableEq, Repr, Inhabited

/-- A seal that is due: kind, first and last segment of its group (R387). -/
structure SealDue where
  kind : Nat
  first : Nat
  last : Nat
  hlast : List Byte
deriving DecidableEq, Repr, Inhabited

/-- The event recorder beside its registers. -/
structure EvrSt where
  q : List EvrEvt
  /-- events lost since the latest LOSS record -/
  lost : Nat
  /-- a segment is open, in which of the three buffers, and its bytes of records -/
  isOpen : Bool
  buf : Nat
  fill : Nat
  /-- closed segments that wait for programming: buffer and segment number, oldest first -/
  closed : List (Nat × Nat)
  /-- digest of the previous segment, and whether the tail could not be read -/
  prev : List Byte
  brk : Bool
  /-- first segment of the group that the next seal covers -/
  groupFirst : Nat
  sealDue : Option SealDue
  /-- a forced close that cannot be made yet: the kind of its seal (R392, R394) -/
  force : Option Nat
  /-- the segment that carries the next seal closes with it (R408) -/
  endSeg : Bool
  /-- triggers that wait for the tail (R393) -/
  trigs : List Nat
  wins : List EvrWin
  /-- end of the open window, and the trigger that opens another at its closure (R390) -/
  winEnd : Nat
  nextTrig : Option Nat
  /-- closed windows whose audit record is not yet appended -/
  audit : List EvrWin
  /-- segments and the lane time of their first record -/
  hist : List (Nat × Nat)
  /-- checkpoints since the latest CHECKPOINT record -/
  div : Nat
  /-- code of the POWER record that opens recording -/
  power : Word
  /-- the segment whose programming an EVR_SEAL descriptor waits for, and its SEALNO -/
  waitSeal : Option (Nat × Nat)
deriving DecidableEq, Repr, Inhabited

/-- A public key slot in OTP (R442): state 0 EMPTY, 1 VALID, 2 REVOKED. -/
structure KeySlot where
  state : Nat
  pub : List Byte
  ident : List Byte
deriving DecidableEq, Repr, Inhabited

/-- The contents of one valid copy of the boot header (R443). -/
structure BootHdr where
  xtalKhz : Word
  pair : Byte
  fwAct : Byte
  fwPend : Byte
  fwFlag : Byte
  imAct : Byte
  imPend : Byte
  imFlag : Byte
  gen : Word
deriving DecidableEq, Repr, Inhabited

/-- What the lane keeps for life: OTP cells and the boot header store (R435, R440 to R443, R447). -/
structure OtpSt where
  lc : Nat
  pendLc : Nat
  serial : Word64
  /-- the lane identity key is present -/
  idKey : Bool
  /-- in RETURNED and SCRAPPED: key destruction, eMRAM erase and revocation are complete (R439) -/
  returnedDone : Bool
  fwCnt : List Word
  imgCnt : List Word
  keys : List KeySlot
  /-- the two copies of the boot header; none where a copy is not valid -/
  boot0 : Option BootHdr
  boot1 : Option BootHdr
deriving DecidableEq, Repr, Inhabited

/-- The lifecycle controller and the CRU beside their registers. -/
structure LcsSt where
  /-- the held nonce and the lane time of its draw (R449) -/
  nonce : Option (List Byte × Nat)
  /-- SERVICE is in force, and its end on lane time (R451) -/
  svc : Bool
  svcEnd : Nat
  /-- the running firmware slot, once verified (R445) -/
  fwSlot : Option Nat
  /-- slots of passed FW_VERIFY since the last write (R453), bit per slot -/
  fwStageOk : BitVec 2
  /-- firmware has been verified or refused in this start-up -/
  fwDone : Bool
  /-- draws from the TRNG -/
  draws : Nat
  /-- digest of the running firmware (R454) -/
  fwDigest : List Byte
  /-- lifecycle records that wait to be appended to the audit log (R455); kept through lane reset -/
  auditQ : List (List Byte)
deriving DecidableEq, Repr, Inhabited

/-- Pepper beside its registers: the LFSR and the eligible events each injector has counted (R431). -/
structure PprSt where
  lfsr : BitVec 16
  events : List Nat
deriving DecidableEq, Repr, Inhabited

/-- A result in flight in the CDSP: the cycle from which it is seen, where it goes and its value (R195). `view` 0 is a data
register, 1 to 4 the move view of P, M, B and L, 5 the read view of an accumulator. -/
structure DspWr where
  due : Nat
  view : Nat
  reg : Nat
  val : BitVec 72
deriving DecidableEq, Repr, Inhabited

/-- A control transfer whose delay slots are still to issue: kind 0 jump, 1 end of task, 2 end of handler (R195, R215). -/
structure DspRedir where
  left : Nat
  kind : Nat
  target : Nat
deriving DecidableEq, Repr, Inhabited

/-- One register bank of the CDSP (R180). P and M have a view for ALU reads and one for moves, the accumulators one for the
MAC unit and one for reads (R195). -/
structure DspBank where
  d : List Word
  aF : List (BitVec 72)
  aR : List (BitVec 72)
  pF : List (BitVec 18)
  pM : List (BitVec 18)
  mF : List (BitVec 18)
  mM : List (BitVec 18)
  rnd : Bool
  aov : BitVec 4
  sat : Bool
  merr : Bool
  agu : Bool
  pc : Nat
  /-- issue cycles of this bank, and results in flight -/
  cyc : Nat
  fly : List DspWr
  redir : Option DspRedir
deriving DecidableEq, Repr, Inhabited

/-- An active hardware loop: its first and last instruction and the iterations left (R197). -/
structure DspLoop where
  first : Nat
  last : Nat
  cnt : Nat
deriving DecidableEq, Repr, Inhabited

/-- Loops, return stack, repeat and repeat cache of a task or a handler (R197 to R199, R215). -/
structure DspFlow where
  /-- level 0 first -/
  loops : List DspLoop
  stack : List Nat
  /-- iterations of a REP still to issue -/
  rep : Nat
  /-- the repeat cache: first and last instruction held, and whether it is filled -/
  cache : Option (Nat × Nat × Bool)
deriving DecidableEq, Repr, Inhabited

/-- What the master copy of the CDSP gives out and the comparison still holds: bytes for a memory address, or a doorbell code (R207). -/
inductive DspOut where
  | store (addr : Nat) (data : List Byte)
  | bell (code : Byte)
deriving DecidableEq, Repr, Inhabited

/-- The CDSP beside its registers (R180 to R209). -/
structure DspSt where
  main : DspBank
  shadow : DspBank
  bF : List (BitVec 18)
  bM : List (BitVec 18)
  lF : List (BitVec 18)
  lM : List (BitVec 18)
  flow : DspFlow
  /-- the interrupted task's flow, PC and AGU setting while a handler runs -/
  saved : Option (DspFlow × Nat × Bool)
  /-- the handler was entered while no task ran -/
  fromIdle : Bool
  /-- a task that waits for the end of a handler entered from idle, and what is left of its budget (R194) -/
  heldTask : Option (Nat × Nat)
  /-- cycles left of the budget of the task in progress (R192) -/
  budget : Option Nat
  /-- held outputs, oldest first, with the cycles that each is still held (R207) -/
  out : List (DspOut × Nat)
  /-- cycles since the task started -/
  cycles : Nat
  /-- cycles that each pending source has waited (R206) -/
  wait : List Nat
  /-- a debug halt waits for its boundary (R209) -/
  haltReq : Bool
  /-- AGU bit of the current mode point (R202) -/
  aguPoint : Bool
deriving DecidableEq, Repr, Inhabited

/-- The loop engine beside its registers and its memory: conversions of each ADC input seen by each slot (R228); for each valve
group the slots that were enabled as standby when the lane gained it and have not run since; groups with a mirror set installed
since the lane became standby (R235). -/
structure LpeSt where
  conv : List Nat
  seen : List Nat
  gain : List Word64
  mirSet : BitVec 4
deriving DecidableEq, Repr, Inhabited

/-- A period, a prescaler and the compares that load together (R279). -/
structure PwmStage where
  per : Nat
  presc : Nat
  cmp : List Nat
  ch : List Nat
deriving DecidableEq, Repr, Inhabited

/-- A PWM generator beside its registers, which are its shadows (R274 to R284). DEDUCED: log 76. -/
structure PwmGen where
  /-- the committed stage: the latest accepted commit -/
  com : PwmStage
  /-- the channel compares of the latest accepted commit, or as the VDU has written them since (R281, R288) -/
  refCh : List Nat
  /-- the active values; the active channel compares are those of `VDU_CHk_STAT` -/
  act : PwmStage
  /-- the length of the current period, and of the next where an alignment changes it (R282) -/
  curPer : Nat
  nextPer : Option Nat
  /-- motor-island cycles since the counter took its present count (R274) -/
  sub : Nat
  /-- sides of the pairs that were on at the end of the previous period, bit by output index (R275) -/
  endOn : BitVec 8
  /-- consecutive actions out of tolerance while aligned -/
  alignRun : Nat
  /-- a halt has put the outputs at SAFE until a commit is consumed (R284) -/
  hold : Bool
deriving DecidableEq, Repr, Inhabited

/-- A valve group of the drive-enable interlock beside its registers (R292 to R296). -/
structure DeiGrp where
  /-- attempts of the current loss -/
  tries : Nat
  /-- the lane gains the group by succession -/
  succ : Bool
  /-- an attempt is to start when no other claim is in the way -/
  want : Bool
  /-- the lane waits as second successor -/
  second : Bool
deriving DecidableEq, Repr, Inhabited

/-- PWM, valves, interlock, chopper and gate-driver SPI beside their registers. -/
structure OutSt where
  pwm : List PwmGen
  /-- the motor-island clock is stopped (R286) -/
  motStopped : Bool
  /-- ns that the motor-island clock has counted since lane reset (R300) -/
  motTime : Nat
  /-- consecutive codes above ILIM of each channel, and its duty (R288, R289) -/
  ocRun : List Nat
  duty : List Word
  grp : List DeiGrp
  /-- the chopper's voltage at the latest conversion, its motor-island time, and consecutive rises above the limit (R300) -/
  chpV : Option (Word × Nat)
  chpRise : Nat
  /-- motor-island time at which the gate switched on -/
  chpOnAt : Nat
  spiTx : List Word
  spiRx : List Word
  /-- the selected trigger line has pulsed for the waiting frame (R303) -/
  spiTrig : Bool
  /-- output pins that drive the opposite of their level for a trigger pulse (R302) -/
  pulse : BitVec 8
deriving DecidableEq, Repr, Inhabited

/-- A converter pair and its running sequence (R246): the input bytes of the steps, whether completion raises interrupts. -/
structure AdcPair where
  ins : List Nat
  irq : Bool
deriving DecidableEq, Repr, Inhabited

/-- A motor engine beside its registers (R247 to R271). -/
structure MeSt where
  /-- the vectors formed by the latest step and the one before -/
  v1Al : Word
  v1Be : Word
  v2Al : Word
  v2Be : Word
  /-- the signs of the injections formed by the same steps: 1, -1 or 0 -/
  inj1 : Int
  inj2 : Int
  ihAl : Word
  ihBe : Word
  ehAl : Word
  ehBe : Word
  idPrev : Word
  iqPrev : Word
  iD : Word
  iQ : Word
  iqR : Word
  /-- consecutive steps in which each debounced condition of R257 has held: to OBS, to HFI, to PA, from PA, from FW -/
  deb : List Nat
  /-- consecutive steps with overcurrent, with observer error, with a low link, and whether each episode was reported -/
  ocRun : Nat
  obsRun : Nat
  vlowRun : Nat
  obsSaid : Bool
  vlowSaid : Bool
  /-- capture: steps, low steps, recorded samples, latest angle, sum of differences, signs seen, R263 step 3 reported -/
  capStep : Nat
  capLow : Nat
  capN : Nat
  capAng : Word
  capSum : Int
  capPos : Bool
  capNeg : Bool
  capSaid : Bool
  /-- CAP_HFI: injection steps, and phase 0 injection, 1 positive, 2 negative pulse; largest responses -/
  hfiStep : Nat
  hfiPhase : Nat
  polP : Int
  polN : Int
  /-- conversions of IA and IB seen by the latest step -/
  seenA : Nat
  seenB : Nat
  /-- in ASC from the ladder; the fourth entry holds it -/
  ladder : Bool
  exhausted : Bool
  /-- ARITH of the current loop (R220, R242) -/
  arith : Bool
  /-- overcurrent persisted in ASC, which is then impossible (R266) -/
  ascLost : Bool
  /-- ASC_BLOCKED is still to be raised -/
  blockDue : Bool
  /-- events whose CDSP source is still to be raised, bit per event -/
  due : Nat
deriving DecidableEq, Repr, Inhabited

/-- A frame that a port is receiving after its admission: slot record, type, LEN and NODE_ID of its header, lane time and network
time in ns of its start (R326, R351). -/
structure Cur where
  slot : Nat
  typ : Nat
  len : Nat
  reason : Nat
  node : Nat
  time : Nat
  nt : Int
deriving DecidableEq, Repr, Inhabited

/-- A star port beside its registers; the last of the thirteen is the internal port 15 (R306, R343 to R346). -/
structure PortSt where
  cur : Option Cur
  /-- violations and isolation of port 15, which has no register (R330) -/
  bab : Nat
  iso : Bool
  /-- this cycle: measured, measured within 0.5 us, failed under R326 -/
  meas : Bool
  measOk : Bool
  failed : Bool
  /-- consecutive measured cycles above and at most 0.75 us, and consecutive good cycles for probation -/
  hiRun : Nat
  loRun : Nat
  goodRun : Nat
  /-- isolated a fourth time: until lane reset -/
  hold : Bool
deriving DecidableEq, Repr, Inhabited

/-- A frame that NET_TX has prepared: the reason of the NULL frame that is sent instead, 0 none; whether a signal is new; the
signals with FRESH and data; the cycle and the time in it, in ns, at which NET_TX came (R321, R322). -/
structure Prep where
  reason : Nat
  fresh : Bool
  sigs : List (Nat × Nat × List Byte)
  /-- LEN of its DATA frame -/
  len : Nat
  cyc : Nat
  pos : Int
deriving DecidableEq, Repr, Inhabited

/-- A claim of spare slots: node, port and slot; and a grant or release that waits for its hyperperiod (R354, R355). -/
structure Claim where
  node : Nat
  port : Nat
  slot : Nat
deriving DecidableEq, Repr, Inhabited
structure ClaimDue where
  grant : Bool
  claim : Claim
  hp : Nat
deriving DecidableEq, Repr, Inhabited

/-- The time exchange on a link (R336, R337): own send stamps of the previous and the latest TIME transfer, whether this cycle's
has been sent, cycle and receive stamp of the peer's latest, the offset formed in this cycle, and what the peer reports. -/
structure PeerTime where
  sPrev : Int
  sLast : Int
  sent : Bool
  rx : Option (Nat × Int)
  d : Option Int
  synced : Bool
  lead : Bool
  ready : Bool
  src : Nat
  heard : Nat
  e : Int
  /-- SRC_PORT of the peer -/
  port : Nat
deriving DecidableEq, Repr, Inhabited

/-- The star and the network engine beside their registers. -/
structure NteSt where
  /-- NT_OFS in ns, whether it has been set, and the number of the cycle in progress (R334) -/
  ofs : Int
  held : Bool
  cyc : Nat
  /-- standing correction and carry in ns per cycle; the gain of lane time over this cycle and the part already added (R337) -/
  rate : Int
  carry : Int
  gain : Int
  gained : Int
  /-- ticks since the cycle start -/
  ticks : Nat
  ports : List PortSt
  /-- slots in which a frame has been admitted in this cycle -/
  adm : List Nat
  prep : List (Nat × Prep)
  /-- the voted vector has been released since lane reset; slots with a NET_TX since its latest release (R321) -/
  rel : Bool
  relSeen : List Nat
  /-- FRESH and data of the latest value taken of each sent signal (R317, R321) -/
  sent : List (Nat × Nat × List Byte)
  /-- signals of which a value has been sent since lane reset (R317) -/
  onAir : List Nat
  /-- REASON of the latest NULL frame received in a slot (R323) -/
  nulls : List (Nat × Nat)
  claims : List Claim
  due : List ClaimDue
  /-- best COLDSTART heard: NODE_ID, and its port or the lane that reported it (R348) -/
  bestNode : Nat
  bestPort : Option Nat
  bestLane : Option LaneId
  /-- what the lane integrates from: a port or another lane; good frames or exchanges so far, the frame cycle of the last (R351,
  R352) -/
  folPort : Option Nat
  folLane : Option LaneId
  conf : Nat
  confCyc : Nat
  /-- the device abandoned its cold start (R349) -/
  abandoned : Bool
  /-- this lane leads the cold start (R348) -/
  lead : Bool
  /-- lower lanes are treated as not ready (R348) -/
  alone : Bool
  /-- the latest admitted COLDSTART start before RUN: port, time in ns as measured, lane time (R349) -/
  csLast : Option (Nat × Int × Nat)
  /-- source 0x0D6 raised since E (R350) -/
  late : Bool
  peer0 : PeerTime
  peer1 : PeerTime
  /-- consecutive cycles with |d| above 1 us to every other member (R338) -/
  lostRun : Nat
  /-- cycles without a SYNC frame of the followed trunk (R353), and since GO was set (R356) -/
  trunkMiss : Nat
  claimAge : Nat
  /-- the CLAIM frame of GO has been sent (R356) -/
  claimSent : Bool
deriving DecidableEq, Repr, Inhabited

/-- A CAN frame or message that waits on a channel: mapping, 2048 for CAN_SEND; arbitration key; whether it takes a transport
session; its data (R360, R362). -/
structure CanItem where
  map : Nat
  key : Nat
  big : Bool
  /-- destination address of an ISO 11783 message -/
  da : Nat
  data : List Byte
deriving DecidableEq, Repr, Inhabited

/-- A receive session of an ISO 11783 channel: source and destination address, priority and PGN, bytes (R357). -/
structure CanRx where
  sa : Nat
  da : Nat
  id : Nat
  size : Nat
deriving DecidableEq, Repr, Inhabited

/-- A CAN channel beside its registers: queued frames, the one being sent, receive sessions, the address being claimed, the next one to try, and
whether no address was found (R360, R361). -/
structure CanCh where
  q : List CanItem
  cur : Option CanItem
  rx : List CanRx
  claiming : Option Nat
  tryNext : Nat
  lost : Bool
deriving DecidableEq, Repr, Inhabited

/-- The CAN gateway: its channels, and cycles since the latest delivery of each receive mapping that has not timed out (R359). -/
structure CgwSt where
  ch : List CanCh
  age : List (Nat × Nat)
deriving DecidableEq, Repr, Inhabited

/-- An open self-test window of a class: time left in ns, what is left of a starved run, and whether a request has aborted it
(R423, R426, R427). -/
structure BistWin where
  left : Nat
  burst : Nat
  aborted : Bool
deriving DecidableEq, Repr, Inhabited

/-- The BIST slice controller beside its registers: windows by class; hyperperiod boundaries since the start of each running
pass; slices whose pass is already late; slices that have completed a pass since the plan began afresh (R423, R425, R167). -/
structure BscSt where
  wins : List (Nat × BistWin)
  age : List (Nat × Nat)
  late : List Nat
  done : List Nat
deriving DecidableEq, Repr, Inhabited

/-- One lane of the module (R18). DESIGN CHOICE: log 4. -/
structure Lane where
  /-- the lane's letter, as its site on the module gives it (R18, R440) -/
  id : LaneId
  /-- fields of registers that differ from their value after lane reset, by `Fld.key` -/
  regs : List (Nat × Word)
  /-- bytes of memory that differ from what an unlisted address reads as -/
  mem : List Host.Cell
  /-- latent upsets: byte address of the ECC word, and kind -/
  upsets : List (Nat × UpsetKind)
  /-- the words that the caches of the cores hold, the oldest of each cache first (R37) -/
  cache : List CacheWord
  /-- lane time in ns (R333) -/
  time : Nat
  /-- the machine timer (R51) -/
  mtime : Word64
  mtimecmp0 : Word64
  mtimecmp1 : Word64
  /-- the model's own counter of free values -/
  free : Nat
  pwr : PwrSt
  core0 : CoreSt
  core1 : CoreSt
  plic : PlicSt
  posted : List Posted
  /-- answers on crossing 0x11 that are not yet delivered: core and data (R30) -/
  aosRet : List (Nat × Word)
  lsm : LsmSt
  tls : TlsSt
  ring : RingSt
  clv : ClvSt
  evr : EvrSt
  otp : OtpSt
  lcs : LcsSt
  ppr : PprSt
  dsp : DspSt
  lpe : LpeSt
  out : OutSt
  adc : List AdcPair
  me : List MeSt
  nte : NteSt
  cgw : CgwSt
  bsc : BscSt
deriving DecidableEq, Repr, Inhabited

/-- What the storage die holds for one lane (R375 to R379, R391, R393). -/
structure StoLane where
  /-- bytes of partitions 0 to 5 that are not zero, at part * 2^32 + byte offset -/
  data : List (Nat × Byte)
  /-- unreadable sectors, at part * 2^20 + sector (R367) -/
  bad : List Nat
  /-- bytes of the staging buffer that are not zero (R379) -/
  staging : List (Nat × Byte)
  /-- bytes of the staging buffer that its SEC-DED cannot correct (R379) -/
  stagBad : List Nat
  audWp : Nat
  wins : List EvrWin
  /-- segments programmed: segment number and lane time of the first record, oldest first (R389) -/
  segs : List (Nat × Nat)
  /-- where each of them stands in the ring of partition 2: segment number and place -/
  place : List (Nat × Nat)
  /-- the next SEALNO and the first segment of the open group, as the programmed segments tell them (R393) -/
  nextSeal : Nat
  groupFirst : Nat
deriving DecidableEq, Repr, Inhabited

/-- The storage die (R366 to R379). -/
structure StorageDie where
  powered : Bool
  mounted : Bool
  /-- links that are up, bit 0 lane A -/
  links : BitVec 3
  stoA : StoLane
  stoB : StoLane
  stoC : StoLane
  /-- bytes of the shared partitions 6 and 7 that are not zero, and their unreadable sectors -/
  shared : List (Nat × Byte)
  sharedBad : List Nat
  spare : Nat
  grown : Nat
  factory : Nat
  wearHigh : Nat
  wearLow : Nat
  /-- blocks retired (R368) -/
  retired : List Nat
  /-- reads of a block since its erase, where not 0 (R370) -/
  reads : List (Nat × Nat)
  passes : Nat
  patrolPos : Nat
  patrolLate : Bool
  /-- powered time in us (R371) -/
  poweredUs : Nat
  /-- entries written to the storage engine log (R377) -/
  logCount : Nat
  /-- a NAND die that does not respond (R383) -/
  dieFault : Bool
deriving DecidableEq, Repr, Inhabited

/-- The module: three lanes, the storage die, and the commands that wait, first in, first out. DESIGN CHOICE: log 103. -/
structure State where
  laneA : Lane
  laneB : Lane
  laneC : Lane
  sto : StorageDie
  pending : List Instr
deriving DecidableEq, Repr, Inhabited

/-- Why a command stops with a fault. DESIGN CHOICE: log 102. -/
inductive Fault where
  /-- Raised by no meaning: every access that the spec says does not exist ends in a state of the machine (an access
  fault, a bus error, an error status). Kept so that the type is not empty; safe. -/
  | none
deriving DecidableEq, Repr, Inhabited

/-- Why a command is turned away. -/
inductive Refusal where
  /-- The command has no meaning in this model yet. Raised by its arm in Dispatch; safe. -/
  | notModelled (mnemonic : String)
deriving DecidableEq, Repr, Inhabited

/-- The key slots of a lane: all EMPTY (R442). -/
def keysInit : List KeySlot := List.replicate 8 ⟨0, List.replicate 64 0, List.replicate 16 0⟩

/-- OTP and boot store as the lane is shipped: MANUFACTURING (R11), the identity key generated (R441), no header copy valid
(R443). DESIGN CHOICE: log 10. -/
def otpInit : OtpSt :=
  { lc := 1, pendLc := 1, serial := 0, idKey := true, returnedDone := false, fwCnt := [], imgCnt := [], keys := keysInit,
    boot0 := none, boot1 := none }

/-- A register bank of the CDSP with every register 0 (R183). DESIGN CHOICE: log 12. -/
def bankZero : DspBank :=
  { (default : DspBank) with
    d := List.replicate 16 0, aF := List.replicate 4 0, aR := List.replicate 4 0, pF := List.replicate 8 0
    pM := List.replicate 8 0, mF := List.replicate 8 0, mM := List.replicate 8 0 }

/-- The CDSP idle, both banks 0. -/
def dspInit : DspSt :=
  { (default : DspSt) with
    main := bankZero, shadow := bankZero, bF := List.replicate 8 0, bM := List.replicate 8 0, lF := List.replicate 8 0
    lM := List.replicate 8 0, wait := List.replicate 8 0 }

/-- A PWM generator after lane reset: disabled, every compare 0 (PWM registers). -/
def stageZero : PwmStage := ⟨0x1388, 0, List.replicate 6 0, List.replicate 8 0⟩
def pwmInit : PwmGen :=
  { com := stageZero, refCh := List.replicate 8 0, act := stageZero, curPer := 0x1388, nextPer := none, sub := 0, endOn := 0
    alignRun := 0, hold := false }
/-- DESIGN CHOICE: log 12. -/
def outInit : OutSt :=
  { (default : OutSt) with
    pwm := List.replicate 3 pwmInit, ocRun := List.replicate 8 0, duty := List.replicate 8 0
    grp := List.replicate 4 default }

/-- A motor engine after lane reset: OFF, all switches off. -/
def meInit : MeSt := { (default : MeSt) with deb := List.replicate 5 0 }

/-- A peer that has reported nothing. -/
def peerInit : PeerTime := { (default : PeerTime) with heard := 0xFFFF }

/-- A lane as lane reset leaves what is not a register: `keep` gives what the reset does not touch (R16, R40, R401).
DESIGN CHOICE: log 12. -/
def laneFresh (id : LaneId) (otp : OtpSt) (lcs : LcsSt) (pwr : PwrSt) (free : Nat) : Lane :=
  { (default : Lane) with
    id := id
    otp := otp
    lcs := { (default : LcsSt) with draws := lcs.draws, auditQ := lcs.auditQ }
    pwr := pwr
    free := free
    mtimecmp0 := 0xFFFFFFFFFFFFFFFF
    mtimecmp1 := 0xFFFFFFFFFFFFFFFF
    ring := { (default : RingSt) with eng := List.replicate 9 default }
    clv := { (default : ClvSt) with pick := 7, quiet := 128 }
    ppr := { lfsr := 0xACE1, events := List.replicate 8 0 }
    evr := { (default : EvrSt) with power := 1 }
    dsp := dspInit
    lpe := { (default : LpeSt) with conv := List.replicate 33 0, seen := List.replicate 64 0, gain := List.replicate 4 0 }
    out := outInit
    adc := List.replicate 2 default
    me := List.replicate 2 meInit
    nte := { (default : NteSt) with ports := List.replicate 13 default, peer0 := peerInit, peer1 := peerInit }
    cgw := { (default : CgwSt) with ch := List.replicate 2 default } }

/-- The lane waits for x_PG: what bring-up has to do is still to be done (R400, R403). -/
def pwrWait : PwrSt := { (default : PwrSt) with phase := .waitPg }

/-- A lane just after AOS power-on (R399). -/
def lanePowered (id : LaneId) (otp : OtpSt) : Lane := laneFresh id otp default pwrWait 0

/-- The storage die without supply, as shipped (R366 to R368). DESIGN CHOICE: log 11. -/
def stoInit : StorageDie := { (default : StorageDie) with spare := 1824, factory := 160 }

/-- The machine right after power-on of every lane: each waits for x_PG, the storage die has no supply yet, no command
waits. DESIGN CHOICE: log 9, 10, 11. -/
def State.reset : State :=
  { laneA := lanePowered .a otpInit
    laneB := lanePowered .b otpInit
    laneC := lanePowered .c otpInit
    sto := stoInit
    pending := [] }

end Sys2Proof.Machine
end

