-- ==== Sys2Proof/Machine/Ops.lean ====
section
/-! DEFINITION. The named operations over registers and memory: one home for each field, one byte order, one canonical
form of memory (R12 to R16, R37, R45). -/

namespace Sys2Proof.Machine

/-- The value of a field, its reset value where nothing has changed it. DESIGN CHOICE: log 13. -/
def Lane.fld (L : Lane) (f : Fld) : Word := smGet L.regs f.key (toW f.rst)

/-- A field's value as a number. -/
def Lane.n (L : Lane) (f : Fld) : Nat := (L.fld f).toNat

/-- A one-bit field as a truth value. -/
def Lane.b (L : Lane) (f : Fld) : Bool := decide (L.fld f ≠ 0)

/-- A field set to a value; the value is cut to the field's width. -/
def Lane.put (L : Lane) (f : Fld) (v : Word) : Lane :=
  { L with regs := smPut L.regs f.key (toW f.rst) (toW (v.toNat % 2 ^ f.w)) }

/-- A field set to a number. -/
def Lane.putN (L : Lane) (f : Fld) (n : Nat) : Lane := L.put f (toW n)

/-- A one-bit field set or cleared. -/
def Lane.setB (L : Lane) (f : Fld) (v : Bool) : Lane := L.put f (if v then 1 else 0)

/-- A counting field stepped by `k`, stopping at its maximum (R459). -/
def Lane.incBy (L : Lane) (f : Fld) (k : Nat) : Lane := L.putN f (min (L.n f + k) (2 ^ f.w - 1))

/-- A counting field stepped by one, stopping at its maximum (R459). -/
def Lane.inc (L : Lane) (f : Fld) : Lane := L.incBy f 1

/-- A counting field stepped by one, modulo its width (R459). -/
def Lane.incMod (L : Lane) (f : Fld) : Lane := L.putN f ((L.n f + 1) % 2 ^ f.w)

/-- Bits of a field set. -/
def Lane.orF (L : Lane) (f : Fld) (v : Word) : Lane := L.put f (L.fld f ||| v)

/-- Bits of a field cleared. -/
def Lane.clrF (L : Lane) (f : Fld) (v : Word) : Lane := L.put f (L.fld f &&& ~~~ v)

/-- One bit of a field set or cleared. -/
def Lane.setBit (L : Lane) (f : Fld) (i : Nat) (v : Bool) : Lane := L.put f (Machine.setBit (L.fld f) i v)

/-- One bit of a field. -/
def Lane.bit (L : Lane) (f : Fld) (i : Nat) : Bool := bitAt (L.fld f) i

/-- Every field of a list set to 0, as the write-1 clear registers do. -/
def Lane.zero (L : Lane) (fs : List Fld) : Lane := fs.foldl (fun a f => a.put f 0) L

/-- Addresses of registers that lane reset keeps: the AOS block (R16). -/
def keptAddr (a : Nat) : Bool := decide (0x40000000 ≤ a ∧ a < 0x40001000)

/-- Fields that lane reset keeps: every AOS field, REINT_USED and REC_CNT of each engine (R16, R166, R267). -/
def keptKey (k : Nat) : Bool :=
  keptAddr (k / 32) || decide (k = F.CLV_STAT_REINT_USED.key) || decide (k = (F.MEe_STAT_REC_CNT 0).key) ||
    decide (k = (F.MEe_STAT_REC_CNT 1).key)

/-- The word of a register from its fields, without the registers that compute their value. -/
def Lane.regWord (L : Lane) (fs : List Fld) : Word :=
  fs.foldl (fun w f => if f.acc = .wo then w else w ||| (L.fld f) <<< f.lo) 0

/-- The part of a written word that belongs to a field. -/
def fldOf (f : Fld) (w : Word) : Word := toW (bitsOf w f.lo f.w)

/-- What a write of a word does to one field by its access code (R14); `locked` says that the block's lock bit is set. -/
def Lane.wrFld (L : Lane) (locked : Bool) (w : Word) (f : Fld) : Lane :=
  match f.acc with
  | .rw => L.put f (fldOf f w)
  | .ro => L
  | .wo => L
  | .w1c => L.clrF f (fldOf f w)
  | .w1s => L.orF f (fldOf f w)
  | .rwl => if locked then L else L.put f (fldOf f w)

/-- What an address that memory does not list reads as: eMRAM erased bytes, the Boot ROM's content, else zero (R40, R41,
R98). DESIGN CHOICE: log 7, 9. -/
def memDefault (a : Nat) : Byte :=
  if a < 0x10000 then Config.bootRom a
  else if 0x08000000 ≤ a ∧ a < 0x08800000 then 0xFF
  else 0

/-- A byte of memory. -/
def Lane.rdB (L : Lane) (a : Nat) : Byte := smGet L.mem a (memDefault a)

/-- A byte of memory written. -/
def Lane.wrB (L : Lane) (a : Nat) (v : Byte) : Lane := { L with mem := smPut L.mem a (memDefault a) v }

/-- `n` bytes of memory from an address on. -/
def Lane.rdBytes (L : Lane) (a : Nat) : Nat → List Byte
  | 0 => []
  | n + 1 => L.rdB a :: L.rdBytes (a + 1) n

/-- Bytes written from an address on. -/
def Lane.wrBytes (L : Lane) (a : Nat) : List Byte → Lane
  | [] => L
  | v :: vs => (L.wrB a v).wrBytes (a + 1) vs

/-- A little-endian word of memory (R13). -/
def Lane.rdW (L : Lane) (a : Nat) : Word := leWord (L.rdBytes a 4)

/-- A little-endian word written. -/
def Lane.wrW (L : Lane) (a : Nat) (v : Word) : Lane := L.wrBytes a (wordBytes v)

/-- `n` words of memory. -/
def Lane.rdWords (L : Lane) (a : Nat) : Nat → List Word
  | 0 => []
  | n + 1 => L.rdW a :: L.rdWords (a + 4) n

/-- Words written from an address on. -/
def Lane.wrWords (L : Lane) (a : Nat) : List Word → Lane
  | [] => L
  | v :: vs => (L.wrW a v).wrWords (a + 4) vs

/-- A 64-bit word of memory. -/
def Lane.rdD (L : Lane) (a : Nat) : Word64 := cat64 (L.rdW (a + 4)) (L.rdW a)

/-- A 64-bit word written. -/
def Lane.wrD (L : Lane) (a : Nat) (v : Word64) : Lane := (L.wrW a (lo32 v)).wrW (a + 4) (hi32 v)

/-- The memory's canonical form: addresses strictly rising, no entry equal to what an unlisted address reads as. -/
def memWf (m : List Host.Cell) : Bool := smSorted m && m.all (fun c => decide (c.2 ≠ memDefault c.1))

/-- Bases of the memories of a lane (R45). -/
def sramBase : Nat := 0x10000000
def pBase : Nat := 0x20000000
def xBase : Nat := 0x20100000
def yBase : Nat := 0x20180000
def netBase : Nat := 0x28000000
def tlBase : Nat := 0x30000000
def lpeBase : Nat := 0x30100000
def mbxBase : Nat := 0x60000000
def emramBase : Nat := 0x08000000

/-- An address lies in `size` bytes from `base` on. -/
def inRange (a base size : Nat) : Bool := decide (base ≤ a ∧ a < base + size)

/-- The Boot ROM's place among the ECC memories: R37 gives it no index, R42 no sources of its own, and the LSM no counts. -/
def romMem : Nat := 10

/-- The memory index m of an address (R37), none outside the ECC memories; the caches, 8 and 9, have no addresses of their
own. -/
def memIndex (a : Nat) : Option Nat :=
  if a < 0x10000 then some romMem
  else if inRange a sramBase 0x800000 then some 0
  else if inRange a emramBase 0x800000 then some 1
  else if inRange a pBase 0x100000 then some 2
  else if inRange a xBase 0x80000 then some 3
  else if inRange a yBase 0x80000 then some 4
  else if inRange a netBase 0x400000 then some 5
  else if inRange a tlBase 0x100000 then some 6
  else if inRange a lpeBase 0x10000 then some 7
  else none

/-- The width of the ECC word in bytes (R37). -/
def eccBytes (m : Nat) : Nat := if m = 0 ∨ m = 5 ∨ m = 7 ∨ m = 9 then 4 else 8

/-- The base of the ECC word that holds an address. -/
def eccWord (a : Nat) : Nat :=
  match memIndex a with
  | some m => a - a % eccBytes m
  | none => a

/-- The memories that hardware zeroes after power-on and lane reset: all but eMRAM and Boot ROM (R40).
DESIGN CHOICE: log 9. -/
def memKept (a : Nat) : Bool := inRange a emramBase 0x800000 || decide (a < 0x10000)

/-- A fresh free word, and the counter stepped. DESIGN CHOICE: log 4. -/
def Lane.freeW (L : Lane) : Word × Lane := (Config.freeWord L.free, { L with free := L.free + 1 })

/-- The lane is released and its cores run: after release, and after a wake from Dormant once domain 0 is up (R411).
DEDUCED: log 57. -/
def Lane.live (L : Lane) : Bool :=
  decide (L.pwr.phase = .run) || (decide (L.pwr.phase = .waking) && L.bit F.AOS_STAT_ON 0)

/-- An effect that happens only in a live lane. DESIGN CHOICE: log 3. -/
def whenLive (f : Lane → Lane) (L : Lane) : Lane := if L.live then f L else L

/-- The number of a lane's checkpoint (R114). -/
def Lane.ckpt (L : Lane) : Word := L.fld F.TLS_CKPT_NUM_CKPT

/-- Lane of a state. -/
def State.lane (s : State) : LaneId → Lane
  | .a => s.laneA
  | .b => s.laneB
  | .c => s.laneC

/-- A lane of a state replaced. -/
def State.setLane (s : State) (l : LaneId) (L : Lane) : State :=
  match l with
  | .a => { s with laneA := L }
  | .b => { s with laneB := L }
  | .c => { s with laneC := L }

/-- An effect on one lane. -/
def State.onLane (s : State) (l : LaneId) (f : Lane → Lane) : State := s.setLane l (f (s.lane l))

/-- An effect on one lane and the storage die. -/
def State.onLaneDie (s : State) (l : LaneId) (f : Lane → StorageDie → Lane × StorageDie) : State :=
  let r := f (s.lane l) s.sto
  { s.setLane l r.1 with sto := r.2 }

end Sys2Proof.Machine
end

