-- ==== Sys2Proof/Machine/Flags.lean ====
section
/-! DEFINITION. Interrupt sources, recorder events and fault sources: what raising one does (R52, R53, R169 to R173,
R384, R385, R390), and the reactions of the Lane Safety Manager. -/

namespace Sys2Proof.Machine

/-- PLIC source `n` raised: pending, or held to the completion of the claim that is being served (R52). -/
def plicRaise (n : Nat) (L : Lane) : Lane :=
  if L.plic.served.getLsbD n then
    { L with plic := { L.plic with again := L.plic.again ||| BitVec.ofNat 128 (2 ^ n) } }
  else { L with plic := { L.plic with pend := L.plic.pend ||| BitVec.ofNat 128 (2 ^ n) } }

/-- The LFSR of MODE 3, x^16 + x^14 + x^13 + x^11 + 1, stepped once (R431). DESIGN CHOICE: log 34. -/
def lfsrStep (s : BitVec 16) : BitVec 16 :=
  let bit := (s.getLsbD 0 ^^ s.getLsbD 2 ^^ s.getLsbD 3 ^^ s.getLsbD 5)
  (s >>> 1) ||| (if bit then 0x8000 else 0)

/-- An injector has acted: its count, the count of all actions, EN cleared in MODE 0 and 4 to 7, PLIC source 81 (R53,
R431). DESIGN CHOICE: log 34. -/
def pprActed (i : Nat) (L : Lane) : Lane :=
  let L1 := (L.inc (F.PPR_INJi_CNT_CNT i)).inc F.PPR_STAT_ACT_CNT
  let mode := L.n (F.PPR_INJi_CFG_MODE i)
  plicRaise 81 (if mode = 0 ∨ 4 ≤ mode then L1.setB (F.PPR_INJi_CFG_EN i) false else L1)

/-- Injector `i` meets an eligible event: whether it acts (R431). DESIGN CHOICE: log 34. -/
def pprMeets (i : Nat) (L : Lane) : Bool × Lane :=
  let nn := L.n (F.PPR_INJi_CFG_N i)
  let c := nth L.ppr.events i 0 + 1
  let L1 := { L with ppr := { L.ppr with events := setNth L.ppr.events i c } }
  match L.n (F.PPR_INJi_CFG_MODE i) with
  | 1 => (true, pprActed i L1)
  | 2 => if c % max 1 nn = 0 then (true, pprActed i L1) else (false, L1)
  | 3 =>
    let s := lfsrStep L.ppr.lfsr
    let L2 := { L1 with ppr := { L1.ppr with lfsr := s } }
    if s.toNat % 256 ≤ nn % 256 then (true, pprActed i L2) else (false, L2)
  | _ => (true, pprActed i L1)

/-- An eligible event of a kind and target: the PARAM of the lowest injector that acts on it. `ok` tells by PARAM whether the
event is eligible for an injector (R431). DESIGN CHOICE: log 34. -/
def pepper (kind target : Nat) (ok : Word → Bool) (L : Lane) : Option Word × Lane :=
  if L.b F.PPR_CTL_ARMED then
    (List.range 8).foldl (fun (r : Option Word × Lane) i =>
      let a := r.2
      let p := a.fld (F.PPR_INJi_PARAM_PARAM i)
      if a.b (F.PPR_INJi_CFG_EN i) && decide (a.n (F.PPR_INJi_CFG_KIND i) = kind) &&
          decide (a.n (F.PPR_INJi_CFG_TARGET i) = target) && ok p then
        let m := pprMeets i a
        (if m.1 then (match r.1 with | some q => some q | none => some p) else r.1, m.2)
      else r) (none, L)
  else (none, L)

/-- The upset of the ECC word that starts at `a`, if one is latent there. DEDUCED: log 16. -/
def upsetAt (L : Lane) (a : Nat) : Option UpsetKind := smFind L.upsets a

/-- The error that an injector's PARAM asks for (R431). -/
def injKind (prm : Word) : Option UpsetKind :=
  match bitsOf prm 0 2 with
  | 1 => some .single
  | 2 => some .double
  | _ => none

/-- What a read finds where a latent upset and an injected error meet in one word: two single-bit errors are two bits. -/
def upsetOf (latent inj : Option UpsetKind) : Option UpsetKind :=
  match latent, inj with
  | some .double, _ => some .double
  | some .address, _ => some .address
  | some .single, some .single => some .double
  | _, some k => some k
  | some .single, none => some .single
  | none, none => none

/-- An injected error of memory `m` at word `a`, and the lane after the injectors have met the read (R431). -/
def eccInject (m a : Nat) (L : Lane) : Option UpsetKind × Lane :=
  let p := pepper 6 m (fun prm => decide (eccWord (prm.toNat / 4 * 4) = a)) L
  (p.1.bind injKind, p.2)

/-- What the read of one ECC word of memory `m` finds; only `single` delivers data. An injected error leaves the stored data as
it is (R431); a corrected word is written back, but for eMRAM and Boot ROM (R38). DEDUCED: log 16. -/
def eccLook (m a : Nat) (L : Lane) : Option UpsetKind × Lane :=
  let p := eccInject m a L
  let k := upsetOf (upsetAt p.2 a) p.1
  (k, if k = some .single ∧ m ≠ 1 ∧ m ≠ romMem then { p.2 with upsets := smErase p.2.upsets a } else p.2)

/-- The count and the address record of an error of memory `m` at word `a` (R38, R43, R44): a correctable error does not
replace the address of an uncorrectable one. The Boot ROM has neither. -/
def eccNote (k : UpsetKind) (m a : Nat) (L : Lane) : Lane :=
  if 9 < m then L
  else if k = .single then
    let L1 := L.inc (F.LSM_ECCm_CNT_CE_CNT m)
    if L.b (F.LSM_ECCm_ADDR_UE m) then L1
    else (L1.putN (F.LSM_ECCm_ADDR_ADDR m) (a / 4)).setB (F.LSM_ECCm_ADDR_VALID m) true
  else
    (((L.inc (F.LSM_ECCm_CNT_UE_CNT m)).putN (F.LSM_ECCm_ADDR_ADDR m) (a / 4)).setB (F.LSM_ECCm_ADDR_UE m) true).setB
      (F.LSM_ECCm_ADDR_VALID m) true

/-- The fault source of an error of memory `m`; the Boot ROM has only that of an address mismatch (R42). -/
def eccSource (k : UpsetKind) (m : Nat) : Option Nat :=
  match k with
  | .address => some 0x055
  | .single => if 9 < m then none else some (0x040 + 2 * m)
  | .double => if 9 < m then none else some (0x041 + 2 * m)

/-- The read of one ECC word where a source is just being raised: what it finds is reported after that source. -/
def eccLater (m a : Nat) (L : Lane) : Bool × Lane :=
  match eccLook m a L with
  | (none, L1) => (true, L1)
  | (some k, L1) => (decide (k = .single), { L1 with lsm := { L1.lsm with eccDue := L1.lsm.eccDue ++ [(k, m, a)] } })

/-- A word of LPE memory as the loop engine reads it while a source is being raised (R39). -/
def lpeLater (a : Nat) (L : Lane) : Option Word × Lane :=
  let r := eccLater 7 a L
  (if r.1 then some (r.2.rdW a) else none, r.2)

/-- Bits of a block's event register set; the PLIC sources of the bits that are enabled are raised. `map` gives the PLIC
source of each bit, if it has one. -/
def eventBits (stat : Fld) (en : Word) (map : Nat → Option Nat) (bits : Word) (L : Lane) : Lane :=
  (List.range stat.w).foldl (fun a i =>
    if bitAt bits i && bitAt en i then
      match map i with
      | some n => plicRaise n a
      | none => a
    else a) (L.orF stat bits)

/-- A recorder event of type 0x02 to 0x04 or 0x06 enters the queue; where it finds no place it is counted as lost. The
answer says whether it was lost to a full queue (R385), and with EN = 0 every event counts as lost (R393).
DEDUCED: log 64. -/
def evrQueue (typ : Nat) (w : Word) (L : Lane) : Lane × Bool :=
  if L.b F.EVR_CTL_EN then
    if L.evr.q.length < 4096 then
      ({ (L.putN F.EVR_STAT_QLVL (L.evr.q.length + 1)) with
          evr := { L.evr with q := L.evr.q ++ [⟨typ, w, L.ckpt, L.time⟩] } }, false)
    else ({ (L.inc F.EVR_ERR_QLOSS_CNT) with evr := { L.evr with lost := min (L.evr.lost + 1) 0xFFFFFFFF } }, true)
  else ({ (L.inc F.EVR_ERR_QLOSS_CNT) with evr := { L.evr with lost := min (L.evr.lost + 1) 0xFFFFFFFF } }, false)

/-- The raise count of a source (R169). -/
def raiseCount (L : Lane) (src : Nat) : Nat := smGet L.lsm.cnt src 0

/-- THRESH and CLASS of a source in the reaction table; classes 5 to 7 act as 4 (R169). -/
def lsmThresh (L : Lane) (src : Nat) : Nat :=
  L.n (match src % 4 with
    | 0 => F.LSM_RTn_THRESH0 (src / 4)
    | 1 => F.LSM_RTn_THRESH1 (src / 4)
    | 2 => F.LSM_RTn_THRESH2 (src / 4)
    | _ => F.LSM_RTn_THRESH3 (src / 4))
def lsmClass (L : Lane) (src : Nat) : Nat :=
  min 4 (L.n (match src % 4 with
    | 0 => F.LSM_RTn_CLASS0 (src / 4)
    | 1 => F.LSM_RTn_CLASS1 (src / 4)
    | 2 => F.LSM_RTn_CLASS2 (src / 4)
    | _ => F.LSM_RTn_CLASS3 (src / 4)))

/-- The forced class of a source, if it has one (R171). -/
def forcedClass (src : Nat) : Option Nat :=
  if src = 0x003 ∨ src = 0x060 ∨ src = 0x062 then some 2 else if src = 0x065 then some 3 else none

/-- An engine's part beside its registers, and its replacement. -/
def meOf (L : Lane) (e : Nat) : MeSt := nth L.me e default
def setMe (e : Nat) (m : MeSt) (L : Lane) : Lane := { L with me := setNth L.me e m }

/-- ASC is impossible for engine `e`: SAFE is ALLOFF, the bank that the pattern turns on is marked bad, or overcurrent persisted in
ASC (R266). SAFE is 0 ASC_LOW, 1 ASC_HIGH, 2 ALLOFF (R249). -/
def ascBlocked (e : Nat) (L : Lane) : Bool :=
  (meOf L e).ascLost ||
    match L.n (F.MEe_STAT_SAFE e) with
    | 0 => L.b (F.MEe_GDF_LS_BAD e)
    | 1 => L.b (F.MEe_GDF_HS_BAD e)
    | _ => true

/-- AVAIL of an engine: it holds its tables, is not forced and is in a regime from 0x0 to 0x6 (R269). -/
def meAvail (e : Nat) (L : Lane) : Lane :=
  L.setB (F.MEe_STAT_AVAIL e)
    (L.b (F.MEe_STAT_LOADED e) && !L.b (F.MEe_STAT_FORCED e) && decide (L.n (F.MEe_STAT_REGIME e) ≤ 6))

/-- Event `v` of engine `e`: EVSTAT, PLIC source 58 + e as selected, CDSP source 3 + e as selected and still to be raised
(MEe_EVSEL). -/
def meEvent (e v : Nat) (L : Lane) : Lane :=
  let L1 := L.setBit (F.MEe_EVSTAT_EV e) v true
  let L2 := if L.bit (F.MEe_EVSEL_PLIC e) v then plicRaise (58 + e) L1 else L1
  if L.bit (F.MEe_EVSEL_CDSP e) v then setMe e { meOf L2 e with due := (meOf L2 e).due ||| 2 ^ v } L2 else L2

/-- A regime is entered; a change is event 0 (R256). -/
def setRegime (e r : Nat) (L : Lane) : Lane :=
  if L.n (F.MEe_STAT_REGIME e) = r then meAvail e L else meEvent e 0 (meAvail e (L.putN (F.MEe_STAT_REGIME e) r))

/-- Engine `e` enters its safe state and holds it with FORCED = 1: ASC, or SAFE_OFF with ASC_BLOCKED where ASC is impossible (R266,
R268). -/
def forceEngine (e : Nat) (L : Lane) : Lane :=
  let L1 := (L.setB (F.MEe_STAT_FORCED e) true).setB (F.MEe_STAT_CHOP_REQ e) false
  let was := L.n (F.MEe_STAT_REGIME e)
  if ascBlocked e L then
    let L2 := setRegime e 8 L1
    if L.b (F.MEe_STAT_FORCED e) && decide (was = 8) then L2 else setMe e { meOf L2 e with blockDue := true } L2
  else
    let L2 := setRegime e 7 L1
    if was = 7 then L2 else meEvent e 3 L2

/-- A group's part beside its registers, and its replacement. -/
def grpOf (L : Lane) (g : Nat) : DeiGrp := nth L.out.grp g default
def setGrp (g : Nat) (x : DeiGrp) (L : Lane) : Lane := { L with out := { L.out with grp := setNth L.out.grp g x } }

/-- Events of the interlock: PLIC source 64 as enabled (DEI_EVSTAT, DEI_EVEN). -/
def deiEvent (g m : Nat) (L : Lane) : Lane :=
  eventBits F.DEI_EVSTAT_EV (L.fld F.DEI_EVEN_EV) (fun _ => some 64) (toW (2 ^ (g + 4 * m))) L

/-- DRIVE: some channel of the group is enabled. -/
def showDrive (g : Nat) (L : Lane) : Lane :=
  L.setB (F.DEI_GRPg_STAT_DRIVE g)
    ((List.range 8).any (fun k => L.bit (F.DEI_GRPg_CTL_CHMASK g) k && L.b (F.VDU_CHk_STAT_EN k)))

/-- An owner gives up group `g`: its channels go off and its claim falls; an attempt is withdrawn (R295). -/
def giveUp (g : Nat) (L : Lane) : Lane :=
  let L0 := ((setGrp g default (L.setBit (F.DEI_GRPg_STAT_CLAIMS g) (laneNo L.id) false)).putN (F.DEI_GRPg_STAT_STATE g)
    0).setB (F.DEI_GRPg_STAT_MIR_VALID g) false
  if L.b (F.DEI_GRPg_STAT_OWN g) then
    let L1 := (List.range 8).foldl (fun a k =>
      if L.bit (F.DEI_GRPg_CTL_CHMASK g) k then a.setB (F.VDU_CHk_STAT_EN k) false else a) L0
    let L2 := { L1 with lpe := { L1.lpe with mirSet := L1.lpe.mirSet &&& ~~~ BitVec.ofNat 4 (2 ^ g) } }
    deiEvent g 1 (((L2.setB (F.DEI_GRPg_STAT_OWN g) false).setB (F.DEI_GRPg_STAT_DRIVE g) false).putN
      (F.DEI_GRPg_STAT_OWNER g) 3)
  else L0

/-- The windows the lane holds, 0 to 64. -/
def winHeld (L : Lane) : Nat := L.evr.wins.length

/-- The open window, if one is open. -/
def winOpen (L : Lane) : Option EvrWin := L.evr.wins.find? (fun w => decide (w.state = 1))

/-- The lowest window number that is free. -/
def winFree (L : Lane) : Option Nat :=
  (List.range 64).find? (fun k => L.evr.wins.all (fun w => decide (w.win ≠ k)))

/-- The segment that holds lane time `t`: the latest segment whose first record is not later, else the oldest present. -/
def segAt (L : Lane) (t : Nat) : Nat :=
  match (L.evr.hist.filter (fun p => decide (p.2 ≤ t))).getLast? with
  | some p => p.1
  | none => match L.evr.hist.head? with
    | some p => p.1
    | none => L.n F.EVR_SEGNO_SEGNO

/-- A trigger of code `trig` while no window is open: a new one opens, if one is free; the answer is its number. -/
def winStart (trig : Nat) (L : Lane) : Lane × Option Nat :=
  match winFree L with
  | none => (L, none)
  | some k =>
    let w : EvrWin := ⟨k, trig, 1, segAt L (L.time - 30000000000), 0, 0, L.ckpt, L.time⟩
    ((({ L with evr := { L.evr with wins := L.evr.wins ++ [w], winEnd := L.time + 30000000000 } }).putN F.EVR_STAT_WIN
      (winHeld L + 1)), some k)

/-- A trigger freezes a window (R390). The answer is the window's number; none where a 65th is refused. A FREEZE record is
queued and PLIC source 76 is raised. Before the tail has arrived a trigger waits for it; with EN = 0 there is no trigger
(R393). -/
def winTrigger (trig : Nat) (L : Lane) : Lane × Option Nat :=
  if !L.b F.EVR_CTL_EN then (L, some 0)
  else if !L.b F.EVR_STAT_RUN then
    ({ L with evr := { L.evr with trigs := if L.evr.trigs.contains trig then L.evr.trigs else L.evr.trigs ++ [trig] } }, some 0)
  else
  let r : Lane × Option Nat :=
    match winOpen L with
    | some w =>
      if L.time + 30000000000 - (w.time - 30000000000) ≤ 120000000000 then
        ({ L with evr := { L.evr with winEnd := L.time + 30000000000 } }, some w.win)
      else if winFree L = none then (L, none)
      else ({ L with evr := { L.evr with nextTrig := some trig } }, some w.win)
    | none => winStart trig L
  match r.2 with
  | some k => (plicRaise 76 (evrQueue 6 (at' 0 k ||| at' 8 trig) r.1).1, some k)
  | none => ((r.1.inc F.EVR_ERR_FRZREF_CNT), none)

/-- The lane-set code of a set of lanes, bit 0 A, bit 1 B, bit 2 C (R67). -/
def laneSetCode (m : BitVec 3) : Nat :=
  match m.toNat with
  | 7 => 0
  | 3 => 1
  | 6 => 2
  | 5 => 3
  | 1 => 4
  | 2 => 5
  | 4 => 6
  | _ => 7

/-- The bit of a lane in a set of lanes. -/
def laneBit (l : LaneId) : BitVec 3 := BitVec.ofNat 3 (2 ^ laneNo l)

/-- A lane belongs to a set of lanes. -/
def inSet (m : BitVec 3) (l : LaneId) : Bool := m.getLsbD (laneNo l)

/-- The lane set as Clove holds it, shown in CLV_STAT and TLS_MS_STAT (R67). -/
def setMembers (m : BitVec 3) (L : Lane) : Lane :=
  (({ L with clv := { L.clv with members := m } }).putN F.CLV_STAT_LANESET (laneSetCode m)).putN
    F.TLS_MS_STAT_LANESET (laneSetCode m)

/-- The safe states that an excluded lane holds: motor engines safe, valve groups given up (R163, R169, R170). -/
def safeOutputs (L : Lane) : Lane := forEach (List.range 4) giveUp (forceEngine 1 (forceEngine 0 L))

/-- A lane that is a member is excluded: it leaves the set as it sees it and reports EXCL; a lane loss for R78, PLIC source
51. The members do not know of it yet (R79, R162, R163). -/
def excludeSelf (L : Lane) : Lane :=
  if inSet L.clv.members L.id then
    let L1 := ((setMembers (L.clv.members &&& ~~~ laneBit L.id) L).setB F.CLV_STAT_EXCL true).setB F.TLS_MS_STAT_EXCL true
    plicRaise 51 { L1 with clv := { L1.clv with unsaid := true }, tls := { L1.tls with lossDue := true } }
  else L

/-- Offsets in LPE memory of slot `s`: its configuration and its state record (R221). -/
def slotCfg (s : Nat) : Nat := lpeBase + 16 * s
def slotSt (s : Nat) : Nat := lpeBase + 0x400 + 32 * s

/-- ACTIVE of a slot as LPE_ENLO and LPE_ENHI show it. -/
def slotAct (s : Nat) (L : Lane) : Bool := if s < 32 then L.bit F.LPE_ENLO_ACT s else L.bit F.LPE_ENHI_ACT (s - 32)
def setSlotAct (s : Nat) (v : Bool) (L : Lane) : Lane :=
  if s < 32 then L.setBit F.LPE_ENLO_ACT s v else L.setBit F.LPE_ENHI_ACT (s - 32) v

/-- OUT of a slot goes to the VDU channel or the motor engine reference that word 0 of its configuration names (R231).
DEDUCED: log 72. -/
def outDeliver (w0 v : Word) (L : Lane) : Lane :=
  match bitsOf w0 20 3 with
  | 1 => if bitsOf w0 23 5 < 8 then L.put (F.VDU_CHk_SP_SP (bitsOf w0 23 5)) v else L
  | 2 => L.put (F.MEe_REFr_VALUE 0 (bitsOf w0 23 5)) v
  | 3 => L.put (F.MEe_REFr_VALUE 1 (bitsOf w0 23 5)) v
  | _ => L

/-- A whole word of LPE memory written: what upset it is gone (R38). -/
def lpePut (a : Nat) (v : Word) (L : Lane) : Lane := { (L.wrW a v) with upsets := smErase L.upsets a }

/-- A slot is not active: OUT reads 0, ACTIVE clears, a model slot disarms; a slot that was active delivers 0 once (R230 to
R232). A STATUS word that cannot be read stays as it is, and a configuration that cannot be read names no destination
(R39). -/
def slotStop (s : Nat) (L : Lane) : Lane :=
  let st := slotSt s
  let c := lpeLater (slotCfg s) L
  let r := lpeLater (st + 24) c.2
  let model : Bool := match c.1 with
    | some w0 => decide (bitsOf w0 0 4 = 6 ∨ bitsOf w0 0 4 = 7)
    | none => false
  let L1 := setSlotAct s false (lpePut st 0 r.2)
  let L2 := if model then lpePut (st + 20) 0 (lpePut (st + 16) 0 L1) else L1
  let L3 := match r.1 with
    | some w => lpePut (st + 24) (Machine.setBit w 5 false &&& (if model then 0xFFFF00BF else 0xFFFFFFFF)) L2
    | none => L2
  match c.1 with
  | some w0 => if slotAct s L then outDeliver w0 0 L3 else L3
  | none => L3

/-- Every slot of the loop engine is forced off (R236). DEDUCED: log 72. -/
def lpeForceOff (L : Lane) : Lane :=
  (forEach (List.range 64) (fun s a => if slotAct s a then slotStop s a else a) L).setB F.LPE_STAT_FORCED_OFF true

/-- Sources whose event makes the lane's self-check fail: a lockstep mismatch, an uncorrectable ECC error or address
mismatch, a crossed LPE residual threshold, a failed BIST slice (R173, R492). -/
def selfFailSource (src : Nat) : Bool :=
  decide (src = 0x020 ∨ src = 0x028 ∨ (0x030 ≤ src ∧ src ≤ 0x033) ∨ src = 0x055 ∨ src = 0x0F0 ∨
    (0x041 ≤ src ∧ src ≤ 0x053 ∧ src % 2 = 1))

/-- What a reaction of class `cls` does beyond RECORD (R169). -/
def reactClass (cls : Nat) (L : Lane) : Lane :=
  match cls with
  | 0 => L
  | 1 => { L with lsm := { L.lsm with degradeSeen := true, degradePend := true } }
  | 3 => { L with lsm := { L.lsm with safestopReact := true } }
  | _ =>
    let L2 := excludeSelf (safeOutputs L)
    let L4 := lpeForceOff (L2.setB F.LSM_STAT_SAFE true)
    if cls = 2 then { (L4.setB F.LSM_STAT_EXCL true) with lsm := { L4.lsm with excludeReact := true } }
    else { (L4.setB F.LSM_STAT_IMM true) with clv := { L4.clv with noReint := true } }

/-- A reaction of class `cls` to source `src` is taken: recorded in LSM_LAST and LSM_STAT, PLIC source 3 + class, a window
trigger of code 1 where the class reaches MINCLASS (R169, R390). DEDUCED: log 64. -/
def takeReaction (src cls : Nat) (L : Lane) : Lane :=
  let L1 := ((L.putN F.LSM_LAST_CKPT_LO (L.ckpt.toNat % 256)).putN F.LSM_LAST_CLASS cls).putN F.LSM_LAST_SOURCE src
  let L2 := L1.putN F.LSM_STAT_MAXCLS (max cls (L1.n F.LSM_STAT_MAXCLS))
  let L3 := if 0 < cls then { (L2.setB F.LSM_STAT_ANY true) with clv := { L2.clv with quiet := 0 } } else L2
  let L4 := reactClass cls (plicRaise (3 + cls) L3)
  if L4.n F.EVR_FRZCFG_MINCLASS ≤ cls then (winTrigger 1 L4).1 else L4

/-- A source is raised: RAW bit; once the table is locked, the forced class and, past its threshold, the table's class; the
count then steps, stopping at 15 (R169, R171). The answer is the class taken, 7 for recording only. DEDUCED: log 64. -/
def raiseCore (src : Nat) (L : Lane) : Lane × Nat :=
  let L0 := L.setBit (F.LSM_RAWn_RAW (src / 32)) (src % 32) true
  let L1 := if selfFailSource src then { L0 with lsm := { L0.lsm with selfFail := true } } else L0
  if L.b F.LSM_CTL_LOCK then
    let hit := decide (lsmThresh L src ≤ raiseCount L src)
    let tc := if hit then some (lsmClass L src) else none
    let cls : Option Nat :=
      match forcedClass src, tc with
      | some f, some c => some (max f c)
      | some f, none => some f
      | none, c => c
    let both : Option Nat :=
      match forcedClass src, tc with
      | some f, some c => if f < c then some f else none
      | _, _ => none
    let L2 := { L1 with lsm := { L1.lsm with cnt := smPut L1.lsm.cnt src 0 (min 15 (raiseCount L src + 1)) } }
    let L3 := match both with
      | some f => takeReaction src f L2
      | none => L2
    match cls with
    | some c => (takeReaction src c L3, c)
    | none => (L3, 7)
  else (L1, 7)

/-- A fault source is raised, with its FAULT record: source, raise count after this raising, class taken (R169, R384). A
full queue raises source 0x0E8, whose own record is then lost with it (R385). DEDUCED: log 64. -/
def raiseRec (src : Nat) (L : Lane) : Lane :=
  let r := raiseCore src L
  let q := evrQueue 2 (at' 0 src ||| at' 12 (raiseCount r.1 src) ||| at' 16 r.2) r.1
  if q.2 then (raiseCore 0x0E8 q.1).1 else q.1

/-- CDSP interrupt source `n` becomes pending; a source that is still pending loses the second raising (R203). -/
def cdspPend (n : Nat) (L : Lane) : Lane :=
  if L.bit F.CDSP_STAT_IRQ_PEND n then raiseRec 0x02D (L.inc F.CDSP_ERR_IRQ_LOST_CNT)
  else { (L.setBit F.CDSP_STAT_IRQ_PEND n true) with dsp := { L.dsp with wait := setNth L.dsp.wait n 0 } }

/-- The CDSP sources of motor engine events that have just been recorded are raised, one for each event.
DEDUCED: log 64. -/
def meFlush (L : Lane) : Lane :=
  forEach [0, 1] (fun e a =>
    forEach (List.range 7) (fun v b =>
      if (meOf b e).due.testBit v then
        cdspPend (3 + e) (setMe e { meOf b e with due := (meOf b e).due - 2 ^ v } b)
      else b) a) L

/-- Errors of memory words that were met while a source was being raised are counted and raise their sources (R38, R39). -/
def eccFlush (L : Lane) : Lane :=
  L.lsm.eccDue.foldl (fun a e =>
    match eccSource e.1 e.2.1 with
    | some src => raiseRec src (eccNote e.1 e.2.1 e.2.2 a)
    | none => eccNote e.1 e.2.1 e.2.2 a) { L with lsm := { L.lsm with eccDue := [] } }

/-- ASC_BLOCKED of an engine whose forcing found ASC impossible is raised: source 0x089 or 0x099, and event 5 (R266, R271). -/
def blockFlush (L : Lane) : Lane :=
  forEach [0, 1] (fun e a =>
    if (meOf a e).blockDue then
      meEvent e 5 (raiseRec (0x089 + 0x10 * e) (setMe e { meOf a e with blockDue := false } a))
    else a) L

/-- What still follows from a source that has just been raised. -/
def settle (L : Lane) : Lane := meFlush (blockFlush (eccFlush (blockFlush (meFlush L))))

/-- A fault source is raised, with everything that follows from it. -/
def raise (src : Nat) (L : Lane) : Lane := settle (raiseRec src L)

/-- An error of a memory word is reported: its count, its address, its source (R38, R39, R42, R43). DEDUCED: log 16. -/
def eccRaise (k : UpsetKind) (m a : Nat) (L : Lane) : Lane :=
  match eccSource k m with
  | some src => raise src (eccNote k m a L)
  | none => eccNote k m a L

/-- The recorder takes an event, with source 0x0E8 where the queue is full (R385). DEDUCED: log 65. -/
def evrEvent (typ : Nat) (w : Word) (L : Lane) : Lane :=
  let q := evrQueue typ w L
  if q.2 then raise 0x0E8 q.1 else q.1

/-- A trigger other than a reaction; a refused one raises source 0x0EA (R390). -/
def freezeTrigger (trig : Nat) (L : Lane) : Lane × Option Nat :=
  let r := winTrigger trig L
  match r.2 with
  | some k => (r.1, some k)
  | none => (raise 0x0EA r.1, none)

/-- x_FAULT: the lane has taken EXCLUDE_LANE or IMMEDIATE_SAFE, or is held in reset or Hold, or has no supply (R172, R475). -/
def ballFault (L : Lane) : Bool :=
  L.b F.LSM_STAT_EXCL || L.b F.LSM_STAT_IMM || L.b F.PWM_MON_CLKSTOP ||
    (match L.pwr.phase with
     | .off => true
     | .run => decide (L.n F.TLS_MS_STAT_SUBSTATE = 7)
     | .dormant => false
     | .waking => false
     | _ => true)

/-- CDSP interrupt source `n` is raised (R203). -/
def cdspIrq (n : Nat) (L : Lane) : Lane := meFlush (cdspPend n L)

/-- A fault of a motor engine: source 0x080 + k or 0x090 + k, and event 5 (R271). -/
def meFault (e k : Nat) (L : Lane) : Lane := meFlush (meEvent e 5 (raise (0x080 + 0x10 * e + k) L))

/-- A debug halt puts the outputs of every generator at SAFE until a commit is consumed (R283, R284). -/
def pwmHalt (L : Lane) : Lane :=
  { L with out := { L.out with pwm := L.out.pwm.map (fun g => { g with hold := true }) } }

end Sys2Proof.Machine
end

