-- ==== Sys2Proof/Machine/Operands.lean ====
section
/-! DEFINITION. Reads and writes of memory as the masters of a lane make them: error correction, the outcome of an
uncorrectable error (R37 to R44). -/

namespace Sys2Proof.Machine

/-- The read of one ECC word of memory `m`: whether its data is delivered, with the count, the address record and the source
of what it meets (R38, R39). -/
def eccRead (m a : Nat) (L : Lane) : Bool × Lane :=
  match eccLook m a L with
  | (none, L1) => (true, L1)
  | (some k, L1) => (decide (k = .single), eccRaise k m a L1)

/-- ECC words of a byte range in which a read can meet an error: latent upsets and words that injectors name. -/
def eccSuspects (L : Lane) (a n : Nat) : List Nat :=
  let ups := (L.upsets.map Prod.fst).filter (fun w => decide (eccWord a ≤ w ∧ w < a + n))
  let inj := if L.b F.PPR_CTL_ARMED then
      ((List.range 8).filter (fun i => L.b (F.PPR_INJi_CFG_EN i) && decide (L.n (F.PPR_INJi_CFG_KIND i) = 6))).map
        (fun i => eccWord ((L.fld (F.PPR_INJi_PARAM_PARAM i)).toNat / 4 * 4))
    else []
  let extra := inj.filter (fun w => decide (eccWord a ≤ w ∧ w < a + n) && !ups.contains w)
  sortAsc (ups ++ extra.eraseDups)

/-- A read of `n` bytes from `a` on: the ECC words are read in rising order up to the first that cannot be delivered. The
answer is the address of that word, or none when all are delivered. DEDUCED: log 16, 17. -/
def eccScan (L : Lane) : List Nat → Option Nat × Lane
  | [] => (none, L)
  | w :: ws =>
    match memIndex w with
    | none => eccScan L ws
    | some m =>
      let r := eccRead m w L
      if r.1 then eccScan r.2 ws else (some w, r.2)

/-- Bytes of memory as a master reads them; none where an error keeps them back. DEDUCED: log 17. -/
def readBytes (a n : Nat) (L : Lane) : Option (List Byte) × Lane :=
  let r := eccScan L (eccSuspects L a n)
  match r.1 with
  | none => (some (L.rdBytes a n), r.2)
  | some _ => (none, r.2)

/-- A word of memory as a master reads it. -/
def readW (a : Nat) (L : Lane) : Option Word × Lane :=
  let r := eccScan L (eccSuspects L a 4)
  match r.1 with
  | none => (some (L.rdW a), r.2)
  | some _ => (none, r.2)

/-- A 64-bit word of memory as a master reads it. -/
def readD (a : Nat) (L : Lane) : Option Word64 × Lane :=
  let r := eccScan L (eccSuspects L a 8)
  match r.1 with
  | none => (some (L.rdD a), r.2)
  | some _ => (none, r.2)

/-- Words of memory as a master reads them. DEDUCED: log 17. -/
def readWords (a n : Nat) (L : Lane) : Option (List Word) × Lane :=
  let r := eccScan L (eccSuspects L a (4 * n))
  match r.1 with
  | none => (some (L.rdWords a n), r.2)
  | some _ => (none, r.2)

/-- ECC words that a write of `n` bytes at `a` covers only in part: they are read first (R38). -/
def partWords (a n : Nat) : List Nat :=
  if n = 0 then [] else
  match memIndex a with
  | none => []
  | some m =>
    let k := eccBytes m
    let fst := if a % k = 0 ∧ k ≤ n then [] else [a - a % k]
    let e := a + n
    let lst := if e % k = 0 ∨ e - e % k < a then [] else [e - e % k]
    (fst ++ lst).eraseDups

/-- Bytes written as a master writes them. A word covered in part is read first; where that read fails, the write is not
performed (R38). Words written whole lose what upset them. -/
def writeBytes (a : Nat) (bs : List Byte) (L : Lane) : Bool × Lane :=
  let n := bs.length
  let parts := (partWords a n).filter (fun w => (eccSuspects L w 1).contains w)
  let r := eccScan L parts
  match r.1 with
  | some _ => (false, r.2)
  | none =>
    let L1 := r.2.wrBytes a bs
    (true, { L1 with upsets := L1.upsets.filter (fun u => !(decide (a ≤ u.1 ∧ u.1 < a + n))) })

/-- A word written as a master writes it. -/
def writeW (a : Nat) (v : Word) (L : Lane) : Bool × Lane := writeBytes a (wordBytes v) L

/-- Words written as a master writes them. -/
def writeWords (a : Nat) (ws : List Word) (L : Lane) : Bool × Lane := writeBytes a (wordsBytes ws) L

end Sys2Proof.Machine
end

