-- ==== Sys2Proof/Machine/Power.lean ====
section
/-! DEFINITION. Supplies, resets, bring-up and clocks (R398 to R406, R39 to R41). -/

namespace Sys2Proof.Machine

/-- The boot header in force: of two valid copies the one with the higher GEN, modulo 2^32; with no valid copy XTAL_KHZ
25,000, Locked, active slots 0 and nothing pending (R443). -/
def bootBlank : BootHdr := ⟨25000, 0, 0, 0, 0, 0, 0, 0, 0⟩
/-- DEDUCED: log 50. -/
def bootHdr (L : Lane) : BootHdr :=
  match L.otp.boot0, L.otp.boot1 with
  | some a, some b => if modBefore a.gen b.gen then b else a
  | some a, none => a
  | none, some b => b
  | none, none => bootBlank

/-- A write of the boot header replaces the copy not in use, with GEN incremented (R443). -/
def bootWrite (f : BootHdr → BootHdr) (L : Lane) : Lane :=
  let h := bootHdr L
  let n := { f h with gen := h.gen + 1 }
  let useSecond : Bool := match L.otp.boot0, L.otp.boot1 with
    | some a, some b => !modBefore a.gen b.gen
    | some _, none => true
    | _, _ => false
  if useSecond then { L with otp := { L.otp with boot1 := some n } } else { L with otp := { L.otp with boot0 := some n } }

/-- XTAL_KHZ in use: a blank or out-of-range value means 25,000 (R404). -/
def xtalKhz (L : Lane) : Nat :=
  let v := (bootHdr L).xtalKhz.toNat
  if 20000 ≤ v ∧ v ≤ 40000 then v else 25000

/-- This lane's pairing (R65). -/
def isSplit (L : Lane) : Bool := decide ((bootHdr L).pair = 1)

/-- The power state that lane reset leaves: what bring-up did is undone, what the always-on domain counts is kept. -/
def pwrReset (ph : Phase) (p : PwrSt) : PwrSt := { pwrWait with phase := ph, tmrFrac := p.tmrFrac, everReset := true, pgOnce := p.pgOnce, isos := p.isos }

/-- A lifecycle record of 64 bytes waits to be appended: EVENT, FROM, TO, CAUSE and the digest of the token concerned, where
there is one; a ninth unwritten record is dropped (R455). -/
def lcRecordTok (event frm dst cause : Nat) (dig : List Byte) (L : Lane) : Lane :=
  let r := natBytesLe 4 0x5645434C ++ [BitVec.ofNat 8 event, BitVec.ofNat 8 frm, BitVec.ofNat 8 dst, BitVec.ofNat 8 cause] ++
    natBytesLe 8 L.otp.serial.toNat ++ natBytesLe 8 L.time ++ natBytesLe 4 L.ckpt.toNat ++ List.replicate 4 0 ++ dig
  if L.lcs.auditQ.length < 8 then { L with lcs := { L.lcs with auditQ := L.lcs.auditQ ++ [r] } } else L
def lcRecord (event frm dst cause : Nat) (L : Lane) : Lane := lcRecordTok event frm dst cause (List.replicate 32 0) L

/-- Lane reset (R16, R401): every register but the kept ones takes its reset value, every block its reset state; OTP, the
always-on domain and eMRAM stay, and a Dormant entry is over; a pending lifecycle state takes effect (R438). SERVICE ends with the reset (R451).
DEDUCED: log 25. -/
def applyReset (ph : Phase) (L : Lane) : Lane :=
  let L0 := if L.lcs.svc then lcRecord 3 L.otp.lc L.otp.lc 4 L else L
  let F0 := laneFresh L.id { L.otp with lc := L.otp.pendLc } L0.lcs (pwrReset ph L.pwr) L.free
  { F0 with
    regs := (L.setB F.AOS_DORM_ENTRY false).regs.filter (fun r => keptKey r.1)
    mem := L.mem.filter (fun c => memKept c.1)
    upsets := L.upsets.filter (fun u => memKept u.1) }

/-- Lane reset by a cause of R401; a lane that is held until AOS power-on only records the cause, one without supply nothing.
DEDUCED: log 25. -/
def laneReset (cause : Nat) (L : Lane) : Lane :=
  match L.pwr.phase with
  | .off => L
  | .heldPg => L.setBit F.AOS_RSTCAUSE_CAUSE cause true
  | .heldDomain => L.setBit F.AOS_RSTCAUSE_CAUSE cause true
  | _ => (applyReset .waitPg L).setBit F.AOS_RSTCAUSE_CAUSE cause true

/-- CLOCK_DEGRADED: the islands run on the RC, the PHYs are down (R405, R406, R335). What is left of SERVICE is counted 3 %
fast from then on (R451). DEDUCED: log 27. -/
def clockDegraded (cause : Nat) (L0 : Lane) : Lane :=
  let L := { L0 with lcs := { L0.lcs with svcEnd := L0.time + (L0.lcs.svcEnd - L0.time) * 100 / 103 } }
  (((((L.setB F.CLK_STAT_DEGRADED true).putN F.CLK_STAT_CAUSE cause).setB F.CLK_STAT_ON_PLL false).setB
    F.AOS_STAT_CLKDEG true).setBit F.AOS_STAT_ON 6 false).setB F.NTE_TIME_STAT_SYNCED false

/-- What the Boot ROM does before release in RETURNED and SCRAPPED: the identity key is destroyed, the eMRAM slots are
erased, every key slot is marked REVOKED (R439). -/
def returnedDestruction (L : Lane) : Lane :=
  if (L.otp.lc = 3 ∨ L.otp.lc = 4) ∧ ¬ L.otp.returnedDone then
    { L with
      otp := { L.otp with idKey := false, returnedDone := true, keys := L.otp.keys.map (fun k => { k with state := 2 }) }
      mem := L.mem.filter (fun c => !inRange c.1 emramBase 0x800000) }
  else L

/-- The lane is released when every step of R403 is complete: substate 0x0 ends, a CLOCK_DEGRADED lane goes to Hold, the PHY
domain goes OFF until network training (R402, R405). In SCRAPPED it never leaves substate 0x0 (R439). DEDUCED: log 26. -/
def tryRelease (L : Lane) : Lane :=
  let p := L.pwr
  let clk : Bool := match p.xtal, p.pll with
    | some false, _ => true
    | some true, some _ => true
    | _, _ => false
  if p.phase = .bringUp ∧ p.domNext = 7 ∧ clk ∧ p.romOk then
    if L.otp.lc = 4 then { L with pwr := { p with phase := .scrapped } }
    else
      let L1 := { L with pwr := { p with phase := .run } }
      let L2 := L1.setBit F.AOS_STAT_ON 6 false
      let L3 := L2.setB F.TLS_MS_CFG_PAIR (isSplit L)
      L3.putN F.TLS_MS_STAT_SUBSTATE (if L3.b F.CLK_STAT_DEGRADED then 7 else 1)
  else L

/-- AOS power-on (R399, R401): every register takes its reset value, RSTCAUSE is 1, the lane waits for x_PG. -/
def powerOn (L : Lane) : Lane :=
  let F0 := laneFresh L.id { L.otp with lc := L.otp.pendLc } L.lcs pwrWait L.free
  { F0 with
    mem := L.mem.filter (fun c => memKept c.1)
    upsets := L.upsets.filter (fun u => memKept u.1) }

def execAosPowerOn (l : LaneId) (s : State) : Host.Outcome State Fault Refusal := .next (s.onLane l powerOn)

/-- The lane's blocks run far enough to record a source: from bring-up on. -/
def powered (L : Lane) : Bool := decide (L.pwr.phase ≠ .off)
def outOfReset (L : Lane) : Bool :=
  match L.pwr.phase with
  | .bringUp => true
  | .run => true
  | .dormant => true
  | .waking => true
  | _ => false

/-- SUPPLY_WARN (R398): the SUP bit, its count, and source 0x005 where the LSM is out of reset. DEDUCED: log 24. -/
def supplyWarn (sup : Nat) (L : Lane) : Lane :=
  if powered L then
    let L1 := (L.setBit F.AOS_STAT_SUP sup true).inc F.AOS_ERR_SUPWARN_CNT
    if outOfReset L then raise 0x005 L1 else L1
  else L
def execSupplyWarn (l : LaneId) (sup : Fin 5) (s : State) : Host.Outcome State Fault Refusal :=
  .next (s.onLane l (supplyWarn sup.val))

def execSupplyBelowReset (l : LaneId) (_sup : Fin 5) (s : State) : Host.Outcome State Fault Refusal :=
  .next (s.onLane l (laneReset 3))

/-- x_PG seen (R400, R403): memories are zeroed with valid check bits and both caches invalidated (R40), XTAL_KHZ is read from the boot header, the
domains are to be raised. -/
def pgSeen (L : Lane) : Lane :=
  if L.pwr.phase = .waitPg then
    let L1 := { L with
      pwr := { pwrWait with phase := .bringUp, tmrFrac := L.pwr.tmrFrac, everReset := L.pwr.everReset, pgOnce := true, isos := L.pwr.isos }
      mem := L.mem.filter (fun c => memKept c.1)
      upsets := L.upsets.filter (fun u => memKept u.1)
      cache := [] }
    ((L1.putN F.AOS_STAT_ON 0).setB F.AOS_STAT_CLKDEG false).putN F.AOS_STAT_FAIL 0 |>.putN F.CLK_STAT_XTAL_KHZ (xtalKhz L)
  else L
def execPgSeen (l : LaneId) (s : State) : Host.Outcome State Fault Refusal := .next (s.onLane l pgSeen)

/-- x_PG not seen within 20 ms of power-on: held in reset until the next one (R400, R401). -/
def pgTmo (L : Lane) : Lane :=
  if L.pwr.phase = .waitPg ∧ ¬ L.pwr.pgOnce then (applyReset .heldPg L).setBit F.AOS_RSTCAUSE_CAUSE 6 true else L
def execPgTmo (l : LaneId) (s : State) : Host.Outcome State Fault Refusal := .next (s.onLane l pgTmo)

/-- x_PG low after release (R400). -/
def pgFall (L : Lane) : Lane :=
  match L.pwr.phase with
  | .run => laneReset 2 L
  | .dormant => laneReset 2 L
  | .waking => laneReset 2 L
  | _ => L
def execPgFall (l : LaneId) (s : State) : Host.Outcome State Fault Refusal := .next (s.onLane l pgFall)

def execRstNLow (l : LaneId) (s : State) : Host.Outcome State Fault Refusal := .next (s.onLane l (laneReset 1))

/-- AOS_SWRST: only the value 0x0000_A55A applies lane reset. -/
def swrst (val : Word) (L : Lane) : Lane := if val = 0x0000A55A ∧ L.live then laneReset 5 L else L
def execAosSwrst (l : LaneId) (val : Word) (s : State) : Host.Outcome State Fault Refusal := .next (s.onLane l (swrst val))

/-- A domain reports ready at bring-up, in the order 0 to 6; a retry that succeeds raises 0x000 (R403). DEDUCED: log 26. -/
def domainReady (d : Nat) (L : Lane) : Lane :=
  if L.pwr.phase = .bringUp ∧ L.pwr.domNext = d then
    let L1 := L.setBit F.AOS_STAT_ON d true
    let L2 := if 0 < L.pwr.domTry then raise 0x000 L1 else L1
    tryRelease { L2 with pwr := { L2.pwr with domNext := d + 1, domTry := 0 } }
  else L
def execDomainReady (l : LaneId) (d : Fin 7) (s : State) : Host.Outcome State Fault Refusal :=
  .next (s.onLane l (domainReady d.val))

/-- A domain attempt fails: a retry, up to three attempts; then the lane is held with DOMAIN recorded (R403).
DEDUCED: log 26. -/
def domainFail (d : Nat) (L : Lane) : Lane :=
  if L.pwr.phase = .bringUp ∧ L.pwr.domNext = d then
    if L.pwr.domTry < 2 then
      { (L.inc F.AOS_ERR_DOMRETRY_CNT) with pwr := { L.pwr with domTry := L.pwr.domTry + 1 } }
    else (applyReset .heldDomain L).setBit F.AOS_RSTCAUSE_CAUSE 7 true
  else L
def execDomainAttemptTimeout (l : LaneId) (d : Fin 7) (s : State) : Host.Outcome State Fault Refusal :=
  .next (s.onLane l (domainFail d.val))

/-- The crystal is ready where its measured frequency lies within 5 % of XTAL_KHZ (R404). -/
def crystalReady (khz : BitVec 16) (L : Lane) : Lane :=
  if (L.pwr.phase = .bringUp ∨ L.pwr.phase = .waking) ∧ L.pwr.xtal = none then
    let L1 := L.putN F.CLK_MEAS_KHZ khz.toNat
    let x := L.n F.CLK_STAT_XTAL_KHZ
    if 95 * x ≤ 100 * khz.toNat ∧ 100 * khz.toNat ≤ 105 * x then
      tryRelease { (L1.setB F.CLK_STAT_XTAL_OK true) with pwr := { L1.pwr with xtal := some true } }
    else L1
  else L
def execCrystalReady (l : LaneId) (khz : BitVec 16) (s : State) : Host.Outcome State Fault Refusal :=
  .next (s.onLane l (crystalReady khz))

/-- The crystal is not ready in time: CLOCK_DEGRADED, source 0x002 (R405). -/
def crystalTimeout (L : Lane) : Lane :=
  if (L.pwr.phase = .bringUp ∨ L.pwr.phase = .waking) ∧ L.pwr.xtal = none then
    let L1 := raise 0x002 (clockDegraded 1 L)
    tryRelease { L1 with pwr := { L1.pwr with xtal := some false } }
  else L
def execCrystalTimeout (l : LaneId) (s : State) : Host.Outcome State Fault Refusal := .next (s.onLane l crystalTimeout)

/-- The PLL locks and the islands move to their PLL clocks; after a retry source 0x004 (R403). -/
def pllLocked (L : Lane) : Lane :=
  if (L.pwr.phase = .bringUp ∨ L.pwr.phase = .waking) ∧ L.pwr.xtal = some true ∧ L.pwr.pll = none then
    let L1 := (L.setB F.CLK_STAT_PLL_LOCK true).setB F.CLK_STAT_ON_PLL true
    let L2 := if 0 < L.pwr.pllTry then raise 0x004 L1 else L1
    tryRelease { L2 with pwr := { L2.pwr with pll := some true } }
  else L
def execPllLocked (l : LaneId) (s : State) : Host.Outcome State Fault Refusal := .next (s.onLane l pllLocked)

/-- A PLL attempt fails: a retry, up to three attempts, then CLOCK_DEGRADED (R403, R405). -/
def pllFail (L : Lane) : Lane :=
  if (L.pwr.phase = .bringUp ∨ L.pwr.phase = .waking) ∧ L.pwr.xtal = some true ∧ L.pwr.pll = none then
    if L.pwr.pllTry < 2 then { (L.inc F.AOS_ERR_PLLRETRY_CNT) with pwr := { L.pwr with pllTry := L.pwr.pllTry + 1 } }
    else
      let L1 := raise 0x002 (clockDegraded 2 L)
      tryRelease { L1 with pwr := { L1.pwr with pll := some false } }
  else L
def execPllAttemptTimeout (l : LaneId) (s : State) : Host.Outcome State Fault Refusal := .next (s.onLane l pllFail)

/-- The Boot ROM check ends: a match lets bring-up go on, and in RETURNED and SCRAPPED the destruction of R439 follows; a
mismatch raises 0x054 and holds the lane in reset (R41). It needs the core domain ready. -/
def romCheck (ok : Bool) (L : Lane) : Lane :=
  if L.pwr.phase = .bringUp ∧ L.bit F.AOS_STAT_ON 0 ∧ ¬ L.pwr.romOk then
    if ok then
      let L1 := returnedDestruction L
      tryRelease { L1 with pwr := { L1.pwr with romOk := true } }
    else
      let L1 := raise 0x054 L
      { L1 with pwr := { L1.pwr with phase := .heldRom } }
  else L
def execBootRomDigestCheck (l : LaneId) (ok : Bool) (s : State) : Host.Outcome State Fault Refusal :=
  .next (s.onLane l (romCheck ok))

end Sys2Proof.Machine
end

