-- ==== Sys2Proof/Machine/RingCore.lean ====
section
/-! DEFINITION. What every ring engine shares: translation through the LMMU, reads and writes of translated ranges, status
words, the fetch of a descriptor, its end, pre-emption and resume (R118 to R143). -/

namespace Sys2Proof.Machine

/-- A lane and the storage die together, as the engines reach them. -/
abbrev LD := Lane × StorageDie

/-- The die's holdings of a lane. -/
def stoOf (d : StorageDie) : LaneId → StoLane
  | .a => d.stoA
  | .b => d.stoB
  | .c => d.stoC
def setStoOf (d : StorageDie) (l : LaneId) (x : StoLane) : StorageDie :=
  match l with
  | .a => { d with stoA := x }
  | .b => { d with stoB := x }
  | .c => { d with stoC := x }

/-- A lane's storage link is up (R22, R373). -/
def linkUp (L : Lane) (d : StorageDie) : Bool := L.b F.STE_STAT_LINK && d.mounted && inSet d.links L.id

/-- An effect on the lane of a pair. -/
def onL (f : Lane → Lane) (ld : LD) : LD := (f ld.1, ld.2)

/-- The engine that serves a role: roles 0x7 and 0x9 share one (R118). -/
def engineOf (role : Nat) : Nat := if role = 9 then 7 else role

/-- The state of a role's engine, and its replacement; RUN, RING and SLOT show it (RING_ENGe_STAT). -/
def getEng (L : Lane) (role : Nat) : Engine := nth L.ring.eng (engineOf role) default
def slotBits (e : Engine) : Nat :=
  b2n e.slot0.isSome + 2 * b2n e.slot1.isSome + 4 * b2n e.slot2.isSome + 8 * b2n e.slot3.isSome
def showEng (role : Nat) (e : Engine) (L : Lane) : Lane :=
  ((L.putN (F.RING_ENGe_STAT_SLOT role) (slotBits e)).setB (F.RING_ENGe_STAT_RUN role) e.run.isSome).putN
    (F.RING_ENGe_STAT_RING role) (match e.run with | some r => r.ring | none => 0)
def setEng (role : Nat) (e : Engine) (L : Lane) : Lane :=
  let L1 := { L with ring := { L.ring with eng := setNth L.ring.eng (engineOf role) e } }
  if engineOf role = 7 then showEng 9 e (showEng 7 e L1) else showEng role e L1

/-- The slot of a priority, and its replacement (R135). -/
def getSlot (e : Engine) : Nat → Option Run
  | 0 => e.slot0
  | 1 => e.slot1
  | 2 => e.slot2
  | _ => e.slot3
def setSlot (e : Engine) (p : Nat) (r : Option Run) : Engine :=
  match p with
  | 0 => { e with slot0 := r }
  | 1 => { e with slot1 := r }
  | 2 => { e with slot2 := r }
  | _ => { e with slot3 := r }

/-- Fields of a descriptor (R120). -/
def Desc.ctx (d : Desc) : Nat := bitsOf d.w0 16 6
def Desc.preemptible (d : Desc) : Bool := bitAt d.w0 11
def Desc.chain (d : Desc) : Bool := bitAt d.w0 10
def Desc.fence (d : Desc) : Bool := bitAt d.w0 9
def Desc.irq (d : Desc) : Bool := bitAt d.w0 8
def Desc.opcode (d : Desc) : Nat := bitsOf d.w0 0 8
def Desc.length (d : Desc) : Nat := bitsOf d.w1 0 24
def Desc.src (d : Desc) : Nat := d.w2.toNat
def Desc.dst (d : Desc) : Nat := d.w3.toNat
def Desc.status (d : Desc) : Nat := d.w6.toNat

/-- The role and priority of a ring. -/
def ringRole (L : Lane) (n : Nat) : Nat := L.n (F.RINGn_CFG_ROLE n)
def ringPrio (L : Lane) (n : Nat) : Nat := L.n (F.RINGn_CFG_PRIO n)

/-- Descriptors a ring holds (R128). -/
def ringFill (L : Lane) (n : Nat) : Nat := (L.n (F.RINGn_PI_PI n) + 65536 - L.n (F.RINGn_CI_CI n)) % 65536

/-- The extent of a context in bytes (R136). -/
def ctxExtent (L : Lane) (c : Nat) : Nat := (L.n (F.LMMU_CTXc_LIMIT_LIMIT c) + 1) * 4096

/-- The TLB cluster of a role (R118), and its entries. -/
def tlbOf (role : Nat) : Nat := if role = 0 ∨ role = 2 then 0 else if role = 1 ∨ role = 4 ∨ role = 7 ∨ role = 9 then 1 else 2
def getTlb (L : Lane) : Nat → List TlbEnt
  | 0 => L.ring.tlb0
  | 1 => L.ring.tlb1
  | _ => L.ring.tlb2
def setTlb (k : Nat) (t : List TlbEnt) (L : Lane) : Lane :=
  match k with
  | 0 => { L with ring := { L.ring with tlb0 := t } }
  | 1 => { L with ring := { L.ring with tlb1 := t } }
  | _ => { L with ring := { L.ring with tlb2 := t } }

/-- A table entry is malformed: a bit set that R136 gives as 0. -/
def badL1 (e : Word) : Bool :=
  if bitAt e 4 then decide (bitsOf e 12 10 ≠ 0 ∨ bitsOf e 5 7 ≠ 0) else decide (bitsOf e 5 7 ≠ 0 ∨ bitsOf e 1 3 ≠ 0)
def badL2 (e : Word) : Bool := decide (bitsOf e 4 8 ≠ 0)

/-- A table lies in system SRAM (R136). -/
def tableOk (a : Nat) : Bool := inRange a sramBase 0x800000

/-- ERR codes of R126. -/
def errParam : Nat := 1
def errBounds : Nat := 2
def errCtx : Nat := 3
def errTranslate : Nat := 4
def errPerm : Nat := 5
def errSafety : Nat := 6
def errWalk : Nat := 7
def errEcc : Nat := 8
def errLink : Nat := 9
def errEngine : Nat := 10

/-- The last `n` entries of a list. -/
def lastN {α : Type} (n : Nat) (xs : List α) : List α := xs.drop (xs.length - n)

/-- A page's entry: cached, or walked and then cached (R136, R138). -/
def lookup (role ctx page : Nat) (L : Lane) : Except Nat (Word × Bool) × Lane :=
  let k := tlbOf role
  match (getTlb L k).find? (fun t => decide (t.ctx = ctx) && decide (if t.block then t.page / 1024 = page / 1024 else t.page = page)) with
  | some t => (.ok (t.entry, t.block), L)
  | none =>
    let a1 := L.n (F.LMMU_CTXc_ROOT_ROOT ctx) * 4096 + 4 * (page / 1024)
    if !tableOk a1 then (.error errWalk, L) else
    match readW a1 L with
    | (none, L1) => (.error errWalk, L1)
    | (some e1, L1) =>
      if !bitAt e1 0 || badL1 e1 then (.error errTranslate, L1)
      else if bitAt e1 4 then
        (.ok (e1, true), setTlb k (lastN 64 (getTlb L1 k ++ [(⟨ctx, page, e1, true⟩ : TlbEnt)])) L1)
      else
        let a2 := bitsOf e1 12 20 * 4096 + 4 * (page % 1024)
        if !tableOk a2 then (.error errWalk, L1) else
        match readW a2 L1 with
        | (none, L2) => (.error errWalk, L2)
        | (some e2, L2) =>
          if !bitAt e2 0 || badL2 e2 then (.error errTranslate, L2)
          else (.ok (e2, false), setTlb k (lastN 64 (getTlb L2 k ++ [(⟨ctx, page, e2, false⟩ : TlbEnt)])) L2)

/-- A ring engine reaches an address in a direction (R49, R50). -/
def reachable (role a : Nat) (wr : Bool) : Bool :=
  inRange a sramBase 0x800000 || inRange a netBase 0x400000 || inRange a xBase 0x80000 || inRange a yBase 0x80000 ||
  inRange a 0x70000000 0x1000000 ||
  (inRange a mbxBase 0x8000) || (inRange a (mbxBase + 0x8000) 0x8000 && !wr) ||
  (wr && (decide (role = 7 ∨ role = 9)) && (inRange a emramBase 0x800000 || inRange a tlBase 0x100000))

/-- The physical address of one IOVA; ERR_WALK, ERR_TRANSLATE, ERR_SAFETY, ERR_PERM, ERR_BOUNDS in this order (R137). -/
def translate (role ctx iova : Nat) (wr : Bool) (L : Lane) : Except Nat Nat × Lane :=
  match lookup role ctx (iova / 4096) L with
  | (.error e, L1) => (.error e, L1)
  | (.ok (e, blk), L1) =>
    let cls := L.b (F.LMMU_CTXc_ROOT_CLASS ctx)
    let sbit := bitAt e 3
    if (cls && !sbit) || (!cls && sbit && wr) then (.error errSafety, L1)
    else if (wr && !bitAt e 2) || (!wr && !bitAt e 1) then (.error errPerm, L1)
    else
      let pa := if blk then bitsOf e 22 10 * 0x400000 + iova % 0x400000 else bitsOf e 12 20 * 4096 + iova % 4096
      if reachable role pa wr then (.ok pa, L1) else (.error errBounds, L1)

/-- KIND of LMMU_FLT_STAT and the fault source of an LMMU fault (R139). -/
def lmmuKind (e : Nat) : Nat :=
  if e = errBounds then 1 else if e = errPerm then 2 else if e = errSafety then 3 else if e = errWalk then 4 else 0
def lmmuSource (e : Nat) : Nat :=
  if e = errPerm then 0x039 else if e = errSafety then 0x03A else if e = errWalk then 0x03B else 0x038

/-- An LMMU fault is recorded, unless one is recorded already, counted, and raises PLIC source 8 and its source (R139). -/
def lmmuFault (role ctx iova e : Nat) (wr status : Bool) (L : Lane) : Lane :=
  let L1 := L.inc F.LMMU_FLT_STAT_FLT_CNT
  let L2 := if L.b F.LMMU_FLT_STAT_VALID then L1
    else (((((((L1.setB F.LMMU_FLT_STAT_VALID true).putN F.LMMU_FLT_STAT_KIND (lmmuKind e)).setB F.LMMU_FLT_STAT_STATUS
      status).setB F.LMMU_FLT_STAT_WRITE wr).putN F.LMMU_FLT_STAT_ROLE role).putN F.LMMU_FLT_STAT_CTX ctx).putN
      F.LMMU_FLT_IOVA_IOVA iova)
  raise (lmmuSource e) (plicRaise 8 L2)

/-- The domain that holds an address (R402). -/
def domainOf (a : Nat) : Nat :=
  if inRange a 0x20000000 0x200000 then 1
  else if inRange a 0x30000000 0x110000 then 2
  else if inRange a netBase 0x400000 ∨ inRange a mbxBase 0x10000 then 3
  else if inRange a 0x70000000 0x1000000 then 4
  else 0

/-- A failure of an access: its ERR code, and the IOVA and direction where it is an LMMU fault (R127). -/
structure AccErr where
  code : Nat
  iova : Nat
  wr : Bool
  lmmu : Bool
deriving DecidableEq, Repr

/-- The access waits for a retained domain; no ERR code of R126. DEDUCED: log 28. -/
def errWait : Nat := 255

/-- A retained domain starts to wake (R407). -/
def wakeDomain (d : Nat) (L : Lane) : Lane := { L with pwr := { L.pwr with waking := L.pwr.waking ||| BitVec.ofNat 7 (2 ^ d) } }

/-- What keeps an access from a domain: it has failed, or it is in retention, which the access ends (R407). -/
def domainBars (d : Nat) (L : Lane) : Option (Nat × Lane) :=
  if L.bit F.AOS_STAT_FAIL d then some (errEngine, L)
  else if L.pwr.retained.getLsbD d then some (errWait, wakeDomain d L)
  else none

/-- Bytes of the staging buffer; none where the SEC-DED of one of them cannot correct it (R379). -/
def stagRead (o n : Nat) (x : StoLane) : Option (List Byte) :=
  if x.stagBad.any (fun b => decide (o ≤ b ∧ b < o + n)) then none
  else some ((List.range n).map (fun i => smGet x.staging (o + i) 0))

/-- Bytes of one physical range within a page, as an engine reads them (R379, R407). -/
def physRead (pa n : Nat) (ld : LD) : Except Nat (List Byte) × LD :=
  match domainBars (domainOf pa) ld.1 with
  | some b => (.error b.1, (b.2, ld.2))
  | none =>
  if inRange pa 0x70000000 0x1000000 then
    if linkUp ld.1 ld.2 then
      match stagRead (pa - 0x70000000) n (stoOf ld.2 ld.1.id) with
      | some bs => (.ok bs, ld)
      | none => (.error errEcc, ld)
    else (.error errLink, ld)
  else
    let r := readBytes pa n ld.1
    match r.1 with
    | some bs => (.ok bs, (r.2, ld.2))
    | none => (.error errEcc, (r.2, ld.2))

/-- Bytes set in a sparse map of bytes whose default is zero. -/
def smPutBytes (m : List (Nat × Byte)) (a : Nat) : List Byte → List (Nat × Byte)
  | [] => m
  | b :: bs => smPutBytes (smPut m a 0 b) (a + 1) bs

/-- Bytes written to the staging buffer; what SEC-DED could not correct of them is gone. DESIGN CHOICE: log 16. -/
def stagWrite (o : Nat) (bs : List Byte) (x : StoLane) : StoLane :=
  { x with
    staging := smPutBytes x.staging o bs
    stagBad := x.stagBad.filter (fun b => !decide (o ≤ b ∧ b < o + bs.length)) }

/-- Bytes written to one physical range within a page of a domain that is up. -/
def physPut (pa : Nat) (bs : List Byte) (ld : LD) : Except Nat Unit × LD :=
  if inRange pa 0x70000000 0x1000000 then
    if linkUp ld.1 ld.2 then
      (.ok (), (ld.1, setStoOf ld.2 ld.1.id (stagWrite (pa - 0x70000000) bs (stoOf ld.2 ld.1.id))))
    else (.error errLink, ld)
  else
    let r := writeBytes pa bs ld.1
    if r.1 then (.ok (), (r.2, ld.2)) else (.error errEcc, (r.2, ld.2))

/-- Bytes written to one physical range within a page (R407). -/
def physWrite (pa : Nat) (bs : List Byte) (ld : LD) : Except Nat Unit × LD :=
  match domainBars (domainOf pa) ld.1 with
  | some b => (.error b.1, (b.2, ld.2))
  | none => physPut pa bs ld

/-- The chunks of an IOVA range, each within one page: IOVA and length. `fuel` bounds their number. -/
def chunks : Nat → Nat → Nat → List (Nat × Nat)
  | 0, _, _ => []
  | fuel + 1, iova, n =>
    if n = 0 then [] else
    let k := min n (4096 - iova % 4096)
    (iova, k) :: chunks fuel (iova + k) (n - k)

/-- An IOVA range read through the LMMU by a descriptor of a role and context. -/
def iovaRead (role ctx : Nat) : List (Nat × Nat) → LD → Except AccErr (List Byte) × LD
  | [], ld => (.ok [], ld)
  | (iova, k) :: rest, ld =>
    match translate role ctx iova false ld.1 with
    | (.error e, L1) => (.error ⟨e, iova, false, true⟩, (lmmuFault role ctx iova e false false L1, ld.2))
    | (.ok pa, L1) =>
      match physRead pa k (L1, ld.2) with
      | (.error e, ld1) => (.error ⟨e, iova, false, false⟩, ld1)
      | (.ok bs, ld1) =>
        match iovaRead role ctx rest ld1 with
        | (.ok more, ld2) => (.ok (bs ++ more), ld2)
        | (.error e, ld2) => (.error e, ld2)

/-- An IOVA range written through the LMMU. Of what precedes a failing page in the same unit, a free value says whether it
was written (R140). -/
def iovaWriteGo (role ctx : Nat) (keep : Bool) : List (Nat × Nat) → List Byte → LD → Except AccErr Unit × LD
  | [], _, ld => (.ok (), ld)
  | (iova, k) :: rest, bs, ld =>
    match translate role ctx iova true ld.1 with
    | (.error e, L1) => (.error ⟨e, iova, true, true⟩, (lmmuFault role ctx iova e true false L1, ld.2))
    | (.ok pa, L1) =>
      match physWrite pa (bs.take k) (L1, ld.2) with
      | (.error e, ld1) => (.error ⟨e, iova, true, false⟩, ld1)
      | (.ok _, ld1) =>
        match iovaWriteGo role ctx keep rest (bs.drop k) ld1 with
        | (.ok u, ld2) => (.ok u, ld2)
        | (.error e, ld2) =>
          if keep then (.error e, ld2)
          else (.error e, ({ ld2.1 with mem := ld.1.mem, upsets := ld.1.upsets }, { ld.2 with powered := ld.2.powered }))

def iovaWrite (role ctx iova : Nat) (bs : List Byte) (ld : LD) : Except AccErr Unit × LD :=
  let f := ld.1.freeW
  iovaWriteGo role ctx (bitAt f.1 0) (chunks (bs.length / 4096 + 2) iova bs.length) bs (f.2, ld.2)

/-- A range read through the LMMU. -/
def iovaReadN (role ctx iova n : Nat) (ld : LD) : Except AccErr (List Byte) × LD :=
  iovaRead role ctx (chunks (n / 4096 + 2) iova n) ld

/-- DETAIL of a FAULT (R127). -/
def faultDetail (e : AccErr) : Word := at' 12 (e.iova / 4096) ||| (if e.wr then 1 else 0)

/-- Word 0 of a status word (R124). -/
def statusWord0 (seq role err st : Nat) : Word := at' 16 seq ||| at' 12 role ||| at' 4 err ||| at' 0 st

/-- A status word written at the descriptor's STATUS IOVA; the answer says whether it was written. A failing write raises
source 0x03C and, for a translation failure, its LMMU fault with STATUS = 1 (R125, R139, R140). One that wakes its domain is
written at once. DEDUCED: log 28. -/
def statusWrite (role : Nat) (r : Run) (err st : Nat) (detail : Word) (ld : LD) : Bool × LD :=
  match translate role r.d.ctx r.d.status true ld.1 with
  | (.error e, L1) => (false, (raise 0x03C (lmmuFault role r.d.ctx r.d.status e true true L1), ld.2))
  | (.ok pa, L1) =>
    let bs := wordsBytes [statusWord0 r.seq role err st, toW r.progress, detail, r.d.w7]
    let w := match domainBars (domainOf pa) L1 with
      | some b => if b.1 = errWait then physPut pa bs (b.2, ld.2) else (.error b.1, (b.2, ld.2))
      | none => physPut pa bs (L1, ld.2)
    match w.1 with
    | .ok _ => (true, w.2)
    | .error _ => (false, onL (raise 0x03C) w.2)

/-- An intermediate status write; after one that failed none follows for this descriptor (R140). -/
def statusMid (role : Nat) (r : Run) (st : Nat) (ld : LD) : Run × LD :=
  if r.mute then (r, ld)
  else
    let w := statusWrite role r 0 st 0 ld
    if w.1 then (r, w.2) else ({ r with mute := true }, onL (fun L => L.setB (F.RINGn_STAT_STWB_ERR r.ring) true) w.2)

/-- Ring `n` halts with a cause; PLIC source 9 + n (R132, R140). -/
def ringHalt (n cause : Nat) (L : Lane) : Lane :=
  plicRaise (9 + n) ((L.setB (F.RINGn_STAT_HALTED n) true).putN (F.RINGn_STAT_CAUSE n) cause)

/-- RINGn_LAST holds the final status word 0 formed. -/
def ringLast (n seq role err st : Nat) (L : Lane) : Lane :=
  (((L.putN (F.RINGn_LAST_SEQ n) seq).putN (F.RINGn_LAST_ENGINE n) role).putN (F.RINGn_LAST_ERR n) err).putN
    (F.RINGn_LAST_STATE n) st

/-- The boundary of a role in bytes; 0 where the role has none (R118). -/
def roleBoundary (role : Nat) : Nat := if role = 0 ∨ role = 2 then 4096 else if role = 1 then 16384 else 0

/-- The final states (R124). -/
def stDone : Nat := 8
def stFault : Nat := 9
def stAborted : Nat := 10
def stRejected : Nat := 11

/-- PLIC source 78 is raised at the end of each SM2_SIGN and ATTEST (R452). DEDUCED: log 100. -/
def cryptoEnd (role : Nat) (r : Run) (L : Lane) : Lane :=
  if role = 2 ∧ (r.d.opcode = 0x03 ∨ r.d.opcode = 0x04) then plicRaise 78 L else L

/-- The final status of a descriptor of ring `r.ring` is formed and written; CI advances; the chain breaks on a state other
than DONE; a requested abort, or a failed write, halts the ring (R123, R131, R140). The engine's slots are not touched. -/
def endStatus (role : Nat) (r : Run) (err st : Nat) (detail : Word) (ld : LD) : LD :=
  let n := r.ring
  let w := statusWrite role r err st detail (onL (fun L => cryptoEnd role r (ringLast n r.seq role err st L)) ld)
  let f (L : Lane) : Lane :=
    let L1 := (L.incMod (F.RINGn_CI_CI n)).setB (F.RINGn_STAT_BUSY n) false
    let L2 := if r.d.chain ∧ st ≠ stDone then
        { L1 with ring := { L1.ring with broken := L1.ring.broken ||| BitVec.ofNat 32 (2 ^ n) } } else L1
    let L3 := if w.1 then (if r.d.irq then plicRaise (9 + n) L2 else L2)
      else ringHalt n 2 (L2.setB (F.RINGn_STAT_STWB_ERR n) true)
    if r.abort then (ringHalt n 1 L3).setB (F.RINGn_CTL_ABORT n) false else L3
  onL f w.2

/-- The best resume slot that is held: the lowest priority number. -/
def bestSlot (e : Engine) : Option Nat := (List.range 4).find? (fun p => (getSlot e p).isSome)

/-- A ring has a descriptor that its engine may fetch (R128, R130, R132, R408). -/
def ringReady (L : Lane) (n : Nat) : Bool :=
  L.b (F.RINGn_CFG_ENABLE n) && !L.b (F.RINGn_STAT_HALTED n) && !L.b (F.RINGn_STAT_BUSY n) && decide (ringFill L n ≠ 0) &&
    !L.ring.noFetch

/-- Rings of an engine that have work of a priority, in the order of service: those after the one last served first (R134). -/
def ringsWaiting (L : Lane) (eng p : Nat) : List Nat :=
  let last := (nth L.ring.eng eng default).last
  let order := (List.range 32).map (fun k => (last + 1 + k) % 32)
  order.filter (fun n => ringReady L n && decide (engineOf (ringRole L n) = eng) && decide (ringPrio L n = p))

/-- The ring that the engine takes next among rings of equal rank (R134). -/
def nextRing (L : Lane) (eng : Nat) : Option Nat :=
  match (List.range 4).filterMap (fun p => (ringsWaiting L eng p).head?) with
  | [] => none
  | n :: _ => some n

/-- Pepper's back-pressure meets the start or a boundary of a role's descriptor: it only takes time (R133, R431). -/
def backpress (role : Nat) (L : Lane) : Lane := (pepper 2 role (fun _ => true) L).2

/-- The base of EVR_BUF, and of segment buffer `b` (R395). -/
def evrBase (L : Lane) : Nat := L.n F.EVR_BUF_BUF * 262144
def segBase (L : Lane) (b : Nat) : Nat := evrBase L + 0x10000 + 65536 * b

/-- EVR_BUF lies in system SRAM. -/
def evrBufOk (L : Lane) : Bool := inRange (evrBase L) sramBase 0x800000

/-- A segment is pinned by a window (R390). -/
def pinned (wins : List EvrWin) (n : Nat) : Bool :=
  wins.any (fun w => decide (w.first ≤ n ∧ (w.state = 1 ∨ n ≤ w.last)))

/-- The place in partition 2 for a new segment, and the segment that it overwrites: the oldest that is not pinned (R389). -/
def ringPlace (x : StoLane) (wins : List EvrWin) : Option (Nat × Option Nat) :=
  if x.segs.length < 40960 then some (x.segs.length, none)
  else
    match x.segs.find? (fun p => !pinned wins p.1) with
    | some p => some (smGet x.place p.1 0, some p.1)
    | none => none

/-- A recorder capture waits for a role's engine: a seal for CRYPTO, a closed segment that can be programmed for STORAGE
(R134, R388). DEDUCED: log 94. -/
def captureWaits (role : Nat) (ld : LD) : Bool :=
  match role, ld.1.evr.closed with
  | 1, (b, _) :: _ =>
    linkUp ld.1 ld.2 && decide (8 ≤ ld.2.spare) && !ld.2.dieFault && (ringPlace (stoOf ld.2 ld.1.id) ld.1.evr.wins).isSome &&
      (readBytes (segBase ld.1 b) 65536 ld.1).1.isSome
  | 2, _ => ld.1.evr.sealDue.isSome && evrBufOk ld.1
  | _, _ => false

/-- The QUEUED descriptor that starts first: by priority, and no FENCE while a descriptor is held (R122, R134). -/
def bestQueued (L : Lane) (e : Engine) : Option Run :=
  (List.range 4).findSome? (fun p =>
    e.queued.find? (fun q => decide (ringPrio L q.ring = p) && !(q.d.fence && (bestSlot e).isSome)))

/-- Work of priority `p` ranks above all that an engine has QUEUED; nothing else starts while a FENCE waits (R122). -/
def overQueued (L : Lane) (e : Engine) (p : Nat) : Bool := e.queued.all (fun q => decide (p < ringPrio L q.ring))

/-- A ring has work, not yet fetched, that ranks above priority `p` and all that is QUEUED (R134). -/
def fresher (role p : Nat) (L : Lane) : Bool :=
  (List.range p).any (fun k => overQueued L (getEng L role) k && !(ringsWaiting L (engineOf role) k).isEmpty)

/-- What a free engine takes of the work that it holds: the best QUEUED descriptor, or the best held one, which ranks before new
work of its priority; neither while fetched work would rank behind a ring's (R134, R135). The slot is none for QUEUED work. -/
def nextHeld (role : Nat) (L : Lane) : Option (Option Nat × Run) :=
  let e := getEng L role
  let held (p : Nat) : Option (Option Nat × Run) :=
    if fresher role p L then none else (getSlot e p).map (fun r => (some p, r))
  let fetched (q : Run) : Option (Option Nat × Run) := if fresher role (ringPrio L q.ring) L then none else some (none, q)
  match bestQueued L e, bestSlot e with
  | some q, some p => if p ≤ ringPrio L q.ring then held p else fetched q
  | some q, none => fetched q
  | none, some p => held p
  | none, none => none

/-- A free engine takes the next of the work that it holds, unless fetching has stopped or a recorder capture comes first (R122,
R134, R135, R408). -/
def engineNext (role : Nat) (ld : LD) : LD :=
  let e := getEng ld.1 role
  if ld.1.ring.noFetch ∨ e.run.isSome ∨ captureWaits role ld then ld
  else
    match nextHeld role ld.1 with
    | none => ld
    | some (some p, r) =>
      let s := statusMid (ringRole ld.1 r.ring) r 2 ld
      onL (setEng role { setSlot e p none with run := some s.1, last := r.ring }) s.2
    | some (none, q) =>
      let s := statusMid (ringRole ld.1 q.ring) q 2 (onL (backpress (ringRole ld.1 q.ring)) ld)
      onL (setEng role { e with run := some s.1, queued := e.queued.filter (fun x => decide (x.ring ≠ q.ring)), last := q.ring })
        s.2

/-- The running descriptor of a role's engine ends; the engine then takes the next work. -/
def finish (role : Nat) (r : Run) (err st : Nat) (detail : Word) (ld : LD) : LD :=
  let rl := ringRole ld.1 r.ring
  let ld1 := onL (fun L => setEng role { getEng L role with run := none } L) ld
  engineNext role (endStatus rl r err st detail ld1)

/-- The running descriptor ends with an access fault (R126, R127, R140); where its access waits for a domain it stays, and goes on
when the domain is up (R407). DEDUCED: log 28. -/
def finishErr (role : Nat) (r : Run) (e : AccErr) (ld : LD) : LD :=
  if e.code = errWait then ld else finish role r e.code stFault (if e.lmmu ∨ e.code = errEcc then faultDetail e else 0) ld

/-- What an opcode of a role asks of its descriptor: whether it needs LENGTH 0, whether LENGTH 0 is a no-op, and the bytes
read from SRC and written to DST (R121, R132). -/
structure OpInfo where
  lenZero : Bool
  counting : Bool
  src : Nat
  dst : Nat
deriving DecidableEq, Repr

/-- The opcodes of the roles (R98, R119, R165, R362, R380, R392, R429, R452, R453). -/
def opInfo (role op len : Nat) : Option OpInfo :=
  match role, op with
  | 0, 0x01 => some ⟨false, true, len, len⟩
  | 0, 0x02 => some ⟨false, true, 0, len⟩
  | 1, 0x01 => some ⟨false, true, 0, len⟩
  | 1, 0x02 => some ⟨false, true, len, 0⟩
  | 1, 0x03 => some ⟨true, false, 0, 0⟩
  | 1, 0x04 => some ⟨true, false, 0, 0⟩
  | 2, 0x01 => some ⟨false, true, len, 32⟩
  | 2, 0x02 => some ⟨false, true, 160, 0⟩
  | 2, 0x03 => some ⟨false, true, len, 64⟩
  | 2, 0x04 => some ⟨false, true, 32, 256⟩
  | 2, 0x05 => some ⟨false, true, 0, len⟩
  | 3, 0x01 => some ⟨false, true, len, 0⟩
  | 4, 0x01 => some ⟨false, true, len, 0⟩
  | 4, 0x02 => some ⟨true, false, 0, 0⟩
  | 4, 0x03 => some ⟨false, true, 0, len⟩
  | 4, 0x04 => some ⟨true, false, 0, 0⟩
  | 4, 0x05 => some ⟨false, true, 0, len⟩
  | 4, 0x06 => some ⟨true, false, 0, 0⟩
  | 5, 0x01 => some ⟨true, false, 0, 0⟩
  | 5, 0x02 => some ⟨true, false, 0, 0⟩
  | 5, 0x03 => some ⟨false, true, 0, len⟩
  | 6, 0x01 => some ⟨false, true, 4, 0⟩
  | 7, 0x20 => some ⟨false, false, 0, 0⟩
  | 7, 0x21 => some ⟨false, true, len, 0⟩
  | 7, 0x22 => some ⟨true, false, 0, 0⟩
  | 7, 0x23 => some ⟨true, false, 0, 0⟩
  | 8, 0x01 => some ⟨false, true, len, 0⟩
  | 8, 0x02 => some ⟨false, true, 0, len⟩
  | 9, 0x30 => some ⟨false, false, 0, 0⟩
  | 9, 0x31 => some ⟨false, true, len, 0⟩
  | 9, 0x32 => some ⟨true, false, 0, 0⟩
  | 9, 0x33 => some ⟨true, false, 0, 0⟩
  | 9, 0x34 => some ⟨false, true, 16, 0⟩
  | 9, 0x35 => some ⟨false, true, 0, 32⟩
  | 9, 0x36 => some ⟨false, true, 128, 0⟩
  | 9, 0x37 => some ⟨true, false, 0, 0⟩
  | 9, 0x38 => some ⟨false, false, len, 0⟩
  | 9, 0x39 => some ⟨false, true, 80, 0⟩
  | 9, 0x3A => some ⟨true, false, 0, 0⟩
  | _, _ => none

/-- Lengths that an opcode allows, where its chapter fixes them (step 7 of R132). -/
def lenOk (role op len : Nat) : Bool :=
  match role, op with
  | 2, 0x02 => decide (len = 160)
  | 2, 0x04 => decide (len = 32)
  | 2, 0x05 => decide (len ≤ 4096)
  | 3, 0x01 => decide (4 ≤ len ∧ len ≤ 16384 ∧ len % 4 = 0)
  | 4, 0x01 => decide (4 ≤ len ∧ len ≤ 1020 ∧ len % 4 = 0)
  | 4, 0x05 => decide (len = 2048)
  | 5, 0x03 => decide (len = 1024)
  | 6, 0x01 => decide (len = 4)
  | 7, 0x20 => decide (len = 0 ∨ len = 2097152)
  | 7, 0x21 => decide (len ≤ 2097152)
  | 9, 0x30 => decide (len = 0 ∨ len = 2097152)
  | 9, 0x31 => decide (len ≤ 2097152)
  | 9, 0x34 => decide (len = 16)
  | 9, 0x35 => decide (len = 32)
  | 9, 0x36 => decide (len = 128)
  | 9, 0x38 => decide (len = 0 ∨ len = 128)
  | 9, 0x39 => decide (len = 80)
  | _, _ => true

/-- A range lies in a context's extent, without wrap (R132). DEDUCED: log 55. -/
def rangeOk (L : Lane) (c a n : Nat) : Bool := decide (n = 0 ∨ (a + n ≤ ctxExtent L c ∧ a + n ≤ 0x100000000))

/-- Reserved bits of a descriptor are 0 (R120). DEDUCED: log 55. -/
def reservedOk (d : Desc) : Bool :=
  decide (bitsOf d.w0 22 10 = 0 ∧ bitsOf d.w0 12 4 = 0 ∧ bitsOf d.w1 24 8 = 0)

/-- A context is enabled and permitted for a ring (R132). -/
def ctxOk (L : Lane) (n c : Nat) : Bool :=
  L.b (F.LMMU_CTXc_ROOT_EN c) && (if c < 32 then L.bit (F.RINGn_CTXLO_MASK n) c else L.bit (F.RINGn_CTXHI_MASK n) (c - 32))

/-- Ring `n` has dependents to abort, or none. -/
def setBroken (n : Nat) (v : Bool) (L : Lane) : Lane :=
  let bit := BitVec.ofNat 32 (2 ^ n)
  { L with ring := { L.ring with broken := if v then L.ring.broken ||| bit else L.ring.broken &&& ~~~ bit } }

/-- The ring halts on a descriptor at fetch: CI passes it. One with CHAIN breaks the chain; one without ends it, where it was the
last dependent (R123, R131). -/
def haltAtFetch (n cause : Nat) (chain : Bool) (L : Lane) : Lane :=
  ringHalt n cause (setBroken n chain (L.incMod (F.RINGn_CI_CI n)))

/-- A rejected mode request is recorded in TLS_MS_REJ (R84). -/
def msRejected (code reason : Nat) (L : Lane) : Lane :=
  (((L.inc F.TLS_MS_REJ_COUNT).putN F.TLS_MS_REJ_POINT (L.n F.TLS_MS_STAT_POINT)).putN F.TLS_MS_REJ_REQ_CODE code).putN
    F.TLS_MS_REJ_REASON reason

/-- A descriptor that ends at fetch without ever starting; a mailbox FAULT raises 0x071 (R178). The ring does not count as served:
the order of R134 goes on from the ring whose descriptor last started (DESIGN CHOICE: log 52). -/
def endAtFetch (role : Nat) (r : Run) (err st : Nat) (detail : Word) (ld : LD) : LD :=
  let ld1 := endStatus role r err st detail (if role = 6 ∧ st = stRejected then onL (msRejected 0 err) ld else ld)
  if role = 3 ∧ st = stFault then onL (raise 0x071) ld1 else ld1

/-- A fetched and checked descriptor starts on a free engine, or waits QUEUED (R122, R124, R135). -/
def startRun (role : Nat) (r : Run) (ld : LD) : LD :=
  let ld0 := onL (fun L => L.setB (F.RINGn_STAT_BUSY r.ring) true) ld
  let e := getEng ld0.1 role
  if e.run.isSome ∨ (r.d.fence ∧ (bestSlot e).isSome) then
    let s := statusMid role r 1 ld0
    onL (fun L => setEng role { getEng L role with queued := (getEng L role).queued ++ [s.1] } L) s.2
  else
    let s := statusMid role r 2 (onL (backpress role) ld0)
    onL (fun L => setEng role { getEng L role with run := some s.1, last := r.ring } L) s.2

/-- The engine's own checks of a descriptor's parameters come with its chapter: `parms` answers the end they give, or none
(step 7 of R132). -/
abbrev ParmCheck := Nat → Run → LD → Option (Nat × Nat × Word)

/-- The fetch of ring `n`'s head descriptor with the checks of R132 in order. A STATUS that is misaligned or beyond the extent shows
ERR_BOUNDS in RINGn_LAST, R132 naming only the LMMU's codes (DESIGN CHOICE: log 52). A dependent of a broken chain is aborted after
steps 1 to 3, which find where its status goes, and may halt the ring in them; the mark of the chain outlasts ENABLE = 0 and
new indices (DESIGN CHOICE: log 52). -/
def fetchRing (parms : ParmCheck) (n : Nat) (ld : LD) : LD :=
  let L := ld.1
  let role := ringRole L n
  let ci := L.n (F.RINGn_CI_CI n)
  let a := L.n (F.RINGn_BASE_BASE n) * 512 + 32 * (ci % 2 ^ L.n (F.RINGn_CFG_LOG2SIZE n))
  match readWords a 8 L with
  | (none, L1) => (haltAtFetch n 3 true (raise 0x03D L1), ld.2)
  | (some ws, L1) =>
    let d : Desc := ⟨nth ws 0 0, nth ws 1 0, nth ws 2 0, nth ws 3 0, nth ws 4 0, nth ws 5 0, nth ws 6 0, nth ws 7 0⟩
    let r : Run := ⟨n, ci, d, 0, false, false, 0, []⟩
    if !ctxOk L1 n d.ctx then
      (haltAtFetch n 4 d.chain (raise 0x03F (ringLast n ci role errCtx stFault L1)), ld.2)
    else if d.status % 16 ≠ 0 ∨ !rangeOk L1 d.ctx d.status 16 then
      (haltAtFetch n 2 d.chain (raise 0x03C (ringLast n ci role errBounds stFault L1)), ld.2)
    else
      match translate role d.ctx d.status true L1 with
      | (.error e, L2) =>
        (haltAtFetch n 2 d.chain (raise 0x03C (lmmuFault role d.ctx d.status e true true (ringLast n ci role e stFault L2))),
          ld.2)
      | (.ok _, L2) =>
        let ld2 : LD := (L2, ld.2)
        if L2.ring.broken.getLsbD n then
          let ld3 := endAtFetch role { r with d := { d with w0 := d.w0 &&& ~~~ 0x400 } } 2 stAborted 0 ld2
          if d.chain then ld3 else onL (setBroken n false) ld3
        else
        let bad : Nat × Nat := if role = 6 then (1, stRejected) else (errParam, stFault)
        match opInfo role d.opcode d.length with
        | none => endAtFetch role r bad.1 bad.2 (if role = 6 then 0x100 else 0) ld2
        | some o =>
          if !reservedOk d || (o.lenZero && decide (d.length ≠ 0)) then
            endAtFetch role r bad.1 bad.2 (if role = 6 then 0x100 else 0) ld2
          else if o.counting ∧ d.length = 0 then endAtFetch role r 0 stDone 0 ld2
          else if !rangeOk L2 d.ctx d.src o.src then
            endAtFetch role r errBounds stFault (faultDetail ⟨errBounds, d.src, false, false⟩) ld2
          else if !rangeOk L2 d.ctx d.dst o.dst then
            endAtFetch role r errBounds stFault (faultDetail ⟨errBounds, d.dst, true, false⟩) ld2
          else if !lenOk role d.opcode d.length then
            endAtFetch role r bad.1 bad.2 (if role = 6 then 0x100 else 0) ld2
          else
            match parms role r ld2 with
            | some (err, st, det) => endAtFetch role r err st det ld2
            | none => startRun role r ld2

/-- The running descriptor passes a boundary: PARTIAL, or PREEMPTED where outranking work is QUEUED or a recorder capture waits, and
the descriptor is PREEMPTIBLE and no FENCE; or ABORTED where an abort is requested (R122, R134, R135, R140). -/
def atBoundary (role : Nat) (r : Run) (ld0 : LD) : LD :=
  let rl := ringRole ld0.1 r.ring
  let ld := onL (backpress rl) ld0
  if r.abort then finish role r 1 stAborted 0 ld
  else
    let e := getEng ld.1 role
    let outranked : Bool := ld.1.ring.noFetch || captureWaits role ld ||
      e.queued.any (fun q => !q.d.fence && decide (ringPrio ld.1 q.ring < ringPrio ld.1 r.ring))
    if outranked ∧ r.d.preemptible ∧ ¬ r.d.fence then
      let s := statusMid rl r 3 ld
      engineNext role
        (onL (fun L => setEng role (setSlot { getEng L role with run := none } (ringPrio L r.ring) (some s.1)) L) s.2)
    else
      let s := statusMid rl r 4 ld
      onL (fun L => setEng role { getEng L role with run := some s.1 } L) s.2

/-- The running descriptor of an engine, if it is one of a role and opcode. -/
def runningOp (L : Lane) (role op : Nat) : Option Run :=
  match (getEng L role).run with
  | some r => if ringRole L r.ring = role ∧ r.d.opcode = op then some r else none
  | none => none

end Sys2Proof.Machine
end

