-- ==== Sys2Proof/Machine/Rings.lean ====
section
/-! DEFINITION. Doorbells, ring configuration, aborts, the COPY engine and the LMMU's own commands (R118, R119, R128 to R130,
R138 to R143). -/

namespace Sys2Proof.Machine

/-- An effect on a live lane and the die. -/
def onDie (l : LaneId) (f : LD → LD) (s : State) : State :=
  s.onLaneDie l (fun L d => if L.live then f (L, d) else (L, d))

/-- The sources of a refused doorbell (R129). -/
def dbRefuse (n : Nat) (flag : Fld) (L : Lane) : Lane :=
  plicRaise (9 + n) (raise 0x03E ((L.setB flag true).inc (F.RINGn_STAT_DB_REF_CNT n)))

/-- A write to RINGn_PI: a doorbell while ENABLE = 1, else both indices are set (R129, R130). -/
def doorbell (n : Nat) (val : Word) (L : Lane) : Lane :=
  let v := val.toNat % 65536
  if L.b (F.RINGn_CFG_ENABLE n) then
    let ci := L.n (F.RINGn_CI_CI n)
    let dOld := ringFill L n
    let dNew := (v + 65536 - ci) % 65536
    if 2 ^ L.n (F.RINGn_CFG_LOG2SIZE n) < dNew then dbRefuse n (F.RINGn_STAT_DB_OVER n) L
    else if dNew < dOld then dbRefuse n (F.RINGn_STAT_DB_BACK n) L
    else L.putN (F.RINGn_PI_PI n) v
  else (L.putN (F.RINGn_PI_PI n) v).putN (F.RINGn_CI_CI n) v
def execDoorbell (l : LaneId) (n : Fin 32) (val : Word) (s : State) : Host.Outcome State Fault Refusal :=
  .next (s.onLane l (whenLive (doorbell n.val val)))

/-- Another ring serves a role that is limited to one ring (R118). -/
def roleTaken (L : Lane) (n role : Nat) : Bool :=
  (decide (role = 6 ∨ role = 7 ∨ role = 9)) &&
    (List.range 32).any (fun k => decide (k ≠ n) && L.b (F.RINGn_CFG_ENABLE k) && decide (ringRole L k = role))

/-- What R118 and R130 ask of a ring that is to be enabled. -/
def enableOk (L : Lane) (n : Nat) : Bool :=
  let role := ringRole L n
  let lg := L.n (F.RINGn_CFG_LOG2SIZE n)
  let base := L.n (F.RINGn_BASE_BASE n) * 512
  decide (role ≤ 9) && !roleTaken L n role && decide (4 ≤ lg ∧ lg ≤ 12) && decide (base % (2 ^ lg * 32) = 0) &&
    decide (sramBase ≤ base ∧ base + 2 ^ lg * 32 ≤ sramBase + 0x800000)

/-- A write to RINGn_CFG (R118, R130). -/
def ringCfg (n : Nat) (val : Word) (L : Lane) : Lane :=
  let en := bitAt val 31
  let L0 := if bitAt val 30 then L.setB (F.RINGn_CFG_CFG_ERR n) false else L
  let role := bitsOf val 20 4
  let prio := bitsOf val 16 2
  let lg := bitsOf val 0 4
  if L.b (F.RINGn_CFG_ENABLE n) then
    let L1 := if role ≠ ringRole L n ∨ prio ≠ ringPrio L n ∨ lg ≠ L.n (F.RINGn_CFG_LOG2SIZE n) then
        L0.setB (F.RINGn_CFG_CFG_ERR n) true else L0
    if en ∨ L.b (F.RINGn_STAT_BUSY n) then L1 else L1.setB (F.RINGn_CFG_ENABLE n) false
  else
    let L1 := if L.b F.RING_CTL_LOCK then L0
      else ((L0.putN (F.RINGn_CFG_ROLE n) role).putN (F.RINGn_CFG_PRIO n) prio).putN (F.RINGn_CFG_LOG2SIZE n) lg
    if en then
      if enableOk L1 n then L1.setB (F.RINGn_CFG_ENABLE n) true else L1.setB (F.RINGn_CFG_CFG_ERR n) true
    else L1

/-- A ring that is no longer served leaves its engine to other work (R130, R134). -/
def ringLeft (n : Nat) (was : Bool) (ld : LD) : LD :=
  if was && !ld.1.b (F.RINGn_CFG_ENABLE n) then engineNext (ringRole ld.1 n) ld else ld
def execRingEnable (l : LaneId) (n : Fin 32) (val : Word) (s : State) : Host.Outcome State Fault Refusal :=
  .next (onDie l (fun ld => ringLeft n.val (ld.1.b (F.RINGn_CFG_ENABLE n.val)) (onL (ringCfg n.val val) ld)) s)

/-- A write to RINGn_BASE; while ENABLE = 1 the field stays and CFG_ERR is set (R130). -/
def ringBase (n : Nat) (val : Word) (L : Lane) : Lane :=
  if L.b (F.RINGn_CFG_ENABLE n) then L.setB (F.RINGn_CFG_CFG_ERR n) true
  else L.wrFld (L.b F.RING_CTL_LOCK) val (F.RINGn_BASE_BASE n)

/-- The slot in which a ring's descriptor is held. -/
def heldSlot (e : Engine) (n : Nat) : Option (Nat × Run) :=
  (List.range 4).findSome? (fun p => match getSlot e p with
    | some r => if r.ring = n then some (p, r) else none
    | none => none)

/-- ABORT of ring `n` (R140): a running descriptor ends at its next boundary or completion, a held or queued one ends at
once, an idle ring halts at once and its engine goes on with other work. DEDUCED: log 53. -/
def ringAbort (n : Nat) (ld : LD) : LD :=
  let L := ld.1
  let role := ringRole L n
  let e := getEng L role
  match e.run with
  | some r =>
    if r.ring = n then
      (setEng role { e with run := some { r with abort := true } } (L.setB (F.RINGn_CTL_ABORT n) true), ld.2)
    else ringAbortIdle n role e ld
  | none => ringAbortIdle n role e ld
where
  /-- the ring's descriptor is not running -/
  ringAbortIdle (n role : Nat) (e : Engine) (ld : LD) : LD :=
    match heldSlot e n with
    | some (p, r) =>
      let ld1 := endStatus role { r with abort := true } 1 stAborted 0 (onL (setEng role (setSlot e p none)) ld)
      engineNext role ld1
    | none =>
      match e.queued.find? (fun q => decide (q.ring = n)), ld.1.ring.recv.find? (fun q => decide (q.ring = n)) with
      | some q, _ =>
        engineNext role (endStatus role { q with abort := true } 1 stAborted 0
          (onL (setEng role { e with queued := e.queued.filter (fun x => decide (x.ring ≠ n)) }) ld))
      | none, some q =>
        endStatus role { q with abort := true } 1 stAborted 0 (onL (fun L => { L with ring := { L.ring with
          recv := L.ring.recv.filter (fun x => decide (x.ring ≠ n)) } }) ld)
      | none, none => engineNext role (onL (ringHalt n 1) ld)
def execRingAbort (l : LaneId) (n : Fin 32) (s : State) : Host.Outcome State Fault Refusal :=
  .next (onDie l (ringAbort n.val) s)

/-- RESUME of ring `n`: HALTED, CAUSE and DB_REF_CNT clear (R132). -/
def ringResume (n : Nat) (L : Lane) : Lane :=
  ((L.setB (F.RINGn_STAT_HALTED n) false).putN (F.RINGn_STAT_CAUSE n) 0).putN (F.RINGn_STAT_DB_REF_CNT n) 0
def execRingResume (l : LaneId) (n : Fin 32) (s : State) : Host.Outcome State Fault Refusal :=
  .next (s.onLane l (whenLive (ringResume n.val)))

/-- Free bytes: content that the spec leaves unspecified. DESIGN CHOICE: log 18. -/
def freeBytes : Nat → Lane → List Byte × Lane
  | 0, L => ([], L)
  | n + 1, L =>
    let f := L.freeW
    let r := freeBytes n f.2
    (f.1.setWidth 8 :: r.1, r.2)

/-- Physical ranges of an IOVA range, where it translates, without effect on the state. -/
def physRanges (L : Lane) (ctx iova n : Nat) (wr : Bool) : List (Nat × Nat) :=
  (chunks (n / 4096 + 2) iova n).filterMap (fun c => match (translate 0 ctx c.1 wr L).1 with
    | .ok pa => some (pa, c.2)
    | .error _ => none)

/-- Two IOVA ranges map to common bytes (R119). DESIGN CHOICE: log 18. -/
def aliased (L : Lane) (d : Desc) : Bool :=
  let rs := physRanges L d.ctx d.src d.length false
  let ws := physRanges L d.ctx d.dst d.length true
  rs.any (fun a => ws.any (fun b => decide (a.1 < b.1 + b.2 ∧ b.1 < a.1 + a.2)))

/-- One unit of the running COPY or FILL, up to the next boundary or the end (R119, R135, R140). The unit is read whole before it is
written: where a source read of it faults, none of its destination bytes is written, which R140 leaves open. DESIGN CHOICE: log 18. -/
def copyUnit (r : Run) (ld : LD) : LD :=
  let k := min 4096 (r.d.length - r.progress)
  let done (ld1 : LD) : LD :=
    let r1 := { r with progress := r.progress + k }
    if r1.progress = r.d.length then finish 0 r1 0 stDone 0 ld1 else atBoundary 0 r1 ld1
  let put (bs : List Byte) (ld1 : LD) : LD :=
    match iovaWrite 0 r.d.ctx (r.d.dst + r.progress) bs ld1 with
    | (.error e, ld2) => finishErr 0 r e ld2
    | (.ok _, ld2) => done ld2
  if r.d.opcode = 0x02 then
    put ((List.range k).map (fun i => nth (wordBytes r.d.w4) ((r.progress + i) % 4) 0)) ld
  else
    match iovaReadN 0 r.d.ctx (r.d.src + r.progress) k ld with
    | (.error e, ld1) => finishErr 0 r e ld1
    | (.ok bs, ld1) =>
      if aliased ld1.1 r.d then
        let f := freeBytes k ld1.1
        put f.1 (f.2, ld1.2)
      else put bs ld1

/-- Units of the same descriptor until it ends, or leaves the engine at a boundary. DESIGN CHOICE: log 19. -/
def unitLoop (unit : Run → LD → LD) (role : Nat) (r0 : Run) : Nat → LD → LD
  | 0, ld => ld
  | f + 1, ld =>
    match (getEng ld.1 role).run with
    | some r => if r.ring = r0.ring ∧ r.seq = r0.seq then unitLoop unit role r0 f (unit r ld) else ld
    | none => ld

/-- The running COPY completes (R119). -/
def copyRun (op : Nat) (ld : LD) : LD :=
  match runningOp ld.1 0 op with
  | some r => unitLoop copyUnit 0 r (r.d.length / 4096 + 2) ld
  | none => ld

/-- Ranges of a COPY overlap: ERR_PARAM at fetch (R119). DEDUCED: log 56. -/
def parmCopy (r : Run) : Option (Nat × Nat × Word) :=
  if r.d.opcode = 0x01 ∧ r.d.src < r.d.dst + r.d.length ∧ r.d.dst < r.d.src + r.d.length then some (errParam, stFault, 0)
  else none

def execCopy (l : LaneId) (s : State) : Host.Outcome State Fault Refusal := .next (onDie l (copyRun 0x01) s)
def execFill (l : LaneId) (s : State) : Host.Outcome State Fault Refusal := .next (onDie l (copyRun 0x02) s)

/-- A write to LMMU_INV starts an invalidation; ignored while BUSY = 1 (R138, R142). -/
def lmmuInv (val : Word) (L : Lane) : Lane :=
  if L.b F.LMMU_INV_BUSY then L
  else
    { (L.setB F.LMMU_INV_BUSY true) with
      ring := { L.ring with inv := some (bitsOf val 16 2, bitsOf val 8 6, L.n F.LMMU_INV_IOVA_IOVA_PAGE) } }
def execLmmuInv (l : LaneId) (val : Word) (s : State) : Host.Outcome State Fault Refusal :=
  .next (s.onLane l (whenLive (lmmuInv val)))

/-- A cached translation survives an invalidation. DEDUCED: log 54. -/
def tlbKeeps (inv : Nat × Nat × Nat) (t : TlbEnt) : Bool :=
  match inv.1 with
  | 1 => decide (t.ctx ≠ inv.2.1)
  | 2 => decide (t.ctx ≠ inv.2.1) || decide (if t.block then t.page / 1024 ≠ inv.2.2 / 1024 else t.page ≠ inv.2.2)
  | _ => false

/-- The invalidation completes: no engine uses a translation that it covered (R138). DEDUCED: log 54. -/
def lmmuInvDone (L : Lane) : Lane :=
  match L.ring.inv with
  | none => L
  | some v =>
    { (L.setB F.LMMU_INV_BUSY false) with
      ring := { L.ring with inv := none, tlb0 := L.ring.tlb0.filter (tlbKeeps v), tlb1 := L.ring.tlb1.filter (tlbKeeps v),
                            tlb2 := L.ring.tlb2.filter (tlbKeeps v) } }
def execLmmuInvComplete (l : LaneId) (s : State) : Host.Outcome State Fault Refusal :=
  .next (s.onLane l (whenLive lmmuInvDone))

/-- A write-1 clear register: bit 0 of the value sets the fields to 0. -/
def clearBy (fs : List Fld) (val : Word) (L : Lane) : Lane := if bitAt val 0 then L.zero fs else L

/-- The fault record (R143). -/
def lmmuFltFlds : List Fld :=
  [F.LMMU_FLT_STAT_VALID, F.LMMU_FLT_STAT_KIND, F.LMMU_FLT_STAT_STATUS, F.LMMU_FLT_STAT_WRITE, F.LMMU_FLT_STAT_ROLE,
   F.LMMU_FLT_STAT_CTX, F.LMMU_FLT_STAT_FLT_CNT, F.LMMU_FLT_IOVA_IOVA]
def execLmmuFltClr (l : LaneId) (val : Word) (s : State) : Host.Outcome State Fault Refusal :=
  .next (s.onLane l (whenLive (clearBy lmmuFltFlds val)))

end Sys2Proof.Machine
end

