-- ==== Sys2Proof/Machine/Crossing.lean ====
section
/-! DEFINITION. Crossings between the islands, error-count clears of the memories, the machine timer's interrupt and the
lockstep comparison of the cores (R27 to R34, R44, R51, R54, R55). -/

namespace Sys2Proof.Machine

/-- The crossing IDs of R29. -/
def xingId (id : Nat) : Bool := decide (1 ≤ id ∧ id ≤ 0x14)

/-- A core's part of the lane, and its replacement. -/
def coreOf (L : Lane) (c : Nat) : CoreSt := if c = 0 then L.core0 else L.core1
def setCore (c : Nat) (x : CoreSt) (L : Lane) : Lane := if c = 0 then { L with core0 := x } else { L with core1 := x }

/-- A core's bus access ends. -/
def coreResp (c : Nat) (r : BusResp) (L : Lane) : Lane := setCore c { coreOf L c with resp := r, held := none } L

/-- A waiting core access ends in a bus error. -/
def respError (c : Nat) (L : Lane) : Lane := if (coreOf L c).resp = .waiting then coreResp c .busError L else L

/-- The transfer at the front of crossing 0x10 or 0x11 is lost: a discarded write is not retried, a bus read on it ends in a
bus error (R31, R32). -/
def xingDrop (id : Nat) (L : Lane) : Lane :=
  if id = 0x10 then
    match L.posted with
    | [] => L
    | p :: rest =>
      let L1 := { L with posted := rest }
      match p.reader with
      | some c => respError c L1
      | none => L1
  else if id = 0x11 then
    match L.aosRet with
    | [] => L
    | p :: rest => respError p.1 { L with aosRet := rest }
  else L

/-- A parity error on a crossing is counted and recorded, and raises source 0x011 (R32). -/
def xingSpoilt (id : Nat) (L : Lane) : Lane :=
  plicRaise 2 (raise 0x011 ((L.inc F.CLK_XING_STAT_PAR_CNT).putN F.CLK_XING_STAT_LAST_ID id))

/-- A parity error on crossing 0x10 or 0x11 beside: the transfer is discarded (R32). -/
def xingParity (id : Nat) (L : Lane) : Lane := xingDrop id (xingSpoilt id L)

/-- The domain of the island in which a crossing ends (R29, R402); none for the always-on island. -/
def xingDomain (id : Nat) : Option Nat :=
  match id with
  | 0x01 => some 1
  | 0x02 => some 0
  | 0x03 => some 2
  | 0x04 => some 0
  | 0x05 => some 2
  | 0x06 => some 1
  | 0x07 => some 3
  | 0x08 => some 0
  | 0x09 => some 3
  | 0x0A => some 1
  | 0x0B => some 3
  | 0x0C => some 2
  | 0x0D => some 4
  | 0x0E => some 0
  | 0x0F => some 4
  | 0x11 => some 0
  | 0x13 => some 4
  | 0x14 => some 1
  | _ => none

/-- The crossing leads into a domain that is being woken: the 500 us rule of R407 stands in place of the timeout (R31). -/
def xingWakes (id : Nat) (L : Lane) : Bool :=
  match xingDomain id with
  | some d => L.pwr.waking.getLsbD d
  | none => false

/-- A crossing is abandoned for lack of acknowledge: counted, recorded, source 0x010, and what it carried on crossing 0x10 or 0x11
is lost (R31). DEDUCED: log 29. -/
def xingTimeout (id : Nat) (L : Lane) : Lane :=
  if outOfReset L ∧ xingId id ∧ ¬ xingWakes id L then
    xingDrop id (plicRaise 2 (raise 0x010 ((L.inc F.CLK_XING_STAT_TMO_CNT).putN F.CLK_XING_STAT_LAST_ID id)))
  else L

def xingFlds : List Fld := [F.CLK_XING_STAT_PAR_CNT, F.CLK_XING_STAT_TMO_CNT, F.CLK_XING_STAT_LAST_ID]
def execClkXingClr (l : LaneId) (val : Word) (s : State) : Host.Outcome State Fault Refusal :=
  .next (s.onLane l (whenLive (clearBy xingFlds val)))

/-- The ECC count and address fields of memory `m`. -/
def eccFlds (m : Nat) : List Fld :=
  [F.LSM_ECCm_CNT_UE_CNT m, F.LSM_ECCm_CNT_CE_CNT m, F.LSM_ECCm_ADDR_ADDR m, F.LSM_ECCm_ADDR_UE m,
   F.LSM_ECCm_ADDR_VALID m]

/-- A write to LSM_ECC_CLR: bit m clears the counts and the address of memory m (R44). -/
def eccClr (val : Word) (L : Lane) : Lane :=
  forEach (List.range 10) (fun m a => if bitAt val m then a.zero (eccFlds m) else a) L
def execLsmEccClr (l : LaneId) (val : Word) (s : State) : Host.Outcome State Fault Refusal :=
  .next (s.onLane l (whenLive (eccClr val)))

/-- MTIMECMP of a core; core 1 has none in Locked pairing (R51). -/
def mtimecmpOf (L : Lane) (c : Nat) : Option Word64 :=
  if c = 0 then some L.mtimecmp0 else if L.b F.TLS_MS_CFG_PAIR then some L.mtimecmp1 else none

/-- The timer interrupt inputs of the cores: asserted while MTIME has reached MTIMECMP. -/
def timerInputs (c : Nat) (L : Lane) : Lane :=
  match mtimecmpOf L c with
  | some v => setCore c { coreOf L c with mtip := decide (v.toNat ≤ L.mtime.toNat) } L
  | none => L
def execMachineTimerInterrupt (l : LaneId) (core : Fin 2) (s : State) : Host.Outcome State Fault Refusal :=
  .next (s.onLane l (whenLive (timerInputs core.val)))

/-- The Locked cores differ: both stop until lane reset, what core 0 holds is discarded, source 0x020 (R55). In Split pairing
there is no comparison. DEDUCED: log 33. -/
def coreLockstep (L : Lane) : Lane :=
  if L.b F.TLS_MS_CFG_PAIR then L
  else
    raise 0x020 { L with
      core0 := { L.core0 with stopped := true, held := none }
      core1 := { L.core1 with stopped := true, held := none } }
def execCoreLockstep (l : LaneId) (s : State) : Host.Outcome State Fault Refusal :=
  .next (s.onLane l (whenLive coreLockstep))

end Sys2Proof.Machine
end

