-- ==== Sys2Proof/Machine/Image.lean ====
section
/-! DEFINITION. The running image as its blocks hold it: sections, mode points, edges and table sets (R68, R69, R88 to R90,
R191). -/

namespace Sys2Proof.Machine

/-- A little-endian word, half word and byte of a list of bytes. -/
def wAt (bs : List Byte) (off : Nat) : Word := leWord ((bs.drop off).take 4)
def hAt (bs : List Byte) (off : Nat) : Nat := leNat ((bs.drop off).take 2)
def bAt (bs : List Byte) (off : Nat) : Nat := (nth bs off 0).toNat
def dAt (bs : List Byte) (off : Nat) : Word64 := cat64 (wAt bs (off + 4)) (wAt bs off)

/-- The section of a type in the running image; empty where the image has none. -/
def secOf (L : Lane) (t : Nat) : Section :=
  match L.tls.secs.find? (fun s => decide (s.type = t)) with
  | some s => s
  | none => default

/-- A word of the running image at a byte offset from the image's start, within the sections. -/
def imgWord (L : Lane) (off : Nat) : Word :=
  match L.tls.secs.find? (fun s => decide (s.offset ≤ off ∧ off < s.offset + s.bytes.length)) with
  | some s => wAt s.bytes (off - s.offset)
  | none => 0

/-- A mode point record (R68). -/
structure Point where
  auth : Nat
  impl : Nat
  netset : Nat
  laneset : Nat
  mode : Nat
  agu : Bool
  id : Nat
  ckptUs : Nat
  edgeCnt : Nat
  driveSet : Nat
  edgeOff : Nat
  tlEntries : Nat
  tlOff : Nat
  tableOff : Nat
  limitOff : Nat
deriving DecidableEq, Repr, Inhabited

/-- A mode point from its eight words. -/
def pointOf (bs : List Byte) : Point :=
  let w0 := wAt bs 0
  let w1 := wAt bs 4
  { impl := bitsOf w0 23 5, auth := bitsOf w0 21 2, netset := bitsOf w0 18 3, laneset := bitsOf w0 11 7
    mode := bitsOf w0 8 3, agu := bitAt w0 7, id := bitsOf w0 0 7, ckptUs := bitsOf w1 16 16, edgeCnt := bitsOf w1 8 3
    driveSet := bitsOf w1 0 6, edgeOff := (wAt bs 8).toNat, tlEntries := bitsOf (wAt bs 12) 0 15
    tlOff := (wAt bs 16).toNat, tableOff := (wAt bs 20).toNat, limitOff := (wAt bs 24).toNat }

/-- Mode point `p` of the running image. -/
def pointRec (L : Lane) (p : Nat) : Point := pointOf (((secOf L 0x01).bytes.drop (32 * p)).take 32)

/-- The current point: its number, and its record. -/
def curPoint (L : Lane) : Nat := L.n F.TLS_MS_STAT_POINT
def curRec (L : Lane) : Point := pointRec L (curPoint L)

/-- An edge record (R69). -/
structure Edge where
  req : Nat
  prio : Nat
  kind : Nat
  hp : Bool
  target : Nat
  dwell : Nat
  guard : Nat
deriving DecidableEq, Repr, Inhabited

/-- An edge from its two words. -/
def edgeOf (w0 w1 : Word) : Edge :=
  { req := bitsOf w0 16 8, prio := bitsOf w0 12 4, kind := bitsOf w0 8 3, hp := bitAt w0 7, target := bitsOf w0 0 7
    dwell := bitsOf w1 16 16, guard := bitsOf w1 0 16 }

/-- Edge `i` of a point. -/
def edgeAt (L : Lane) (p : Point) (i : Nat) : Edge :=
  edgeOf (imgWord L (p.edgeOff + 8 * i)) (imgWord L (p.edgeOff + 8 * i + 4))

/-- The out-edges of a point with their indices. -/
def edgesOf (L : Lane) (p : Point) : List (Nat × Edge) := (List.range p.edgeCnt).map (fun i => (i, edgeAt L p i))

/-- Kinds of edges and codes of modes (R58, R69). -/
def kReq : Nat := 0
def kAuto : Nat := 1
def kFault : Nat := 2
def kSafe : Nat := 3
def kService : Nat := 4
def mDormant : Nat := 0
def mStartup : Nat := 1
def mRoad : Nat := 2
def mField : Nat := 3
def mDegraded : Nat := 4
def mSafeStop : Nat := 5

/-- A field of a header of the running image. -/
def hdrW (L : Lane) (off : Nat) : Word := wAt L.tls.hdr off

/-- The AGREE_MAP header (R148). -/
def nIn (L : Lane) : Nat := L.n F.CLV_VEC_LEN_N_IN
def nVote (L : Lane) : Nat := L.n F.CLV_VEC_LEN_N_VOTE
def agreeW (L : Lane) (off : Nat) : Word := wAt (secOf L 0x09).bytes off
def agreeH (L : Lane) (off : Nat) : Nat := hAt (secOf L 0x09).bytes off
def sampleOff (L : Lane) : Nat := xBase + (agreeW L 0x04).toNat
def agreedOff (L : Lane) : Nat := xBase + (agreeW L 0x08).toNat
def voteOff (L : Lane) : Nat := xBase + (agreeW L 0x0C).toNat
def votedOff (L : Lane) : Nat := xBase + (agreeW L 0x10).toNat

/-- Service hold: SUBSTATE 0x8 (R63). -/
def inServiceHold (L : Lane) : Bool := decide (L.n F.TLS_MS_STAT_SUBSTATE = 8 ∧ L.n F.TLS_MS_STAT_MODE = mStartup)

/-- Lifecycle states: 1 MANUFACTURING, 2 PROVISIONED, 3 RETURNED, 4 SCRAPPED; SERVICE is PROVISIONED with the overlay (R435). -/
def debugAllowed (L : Lane) : Bool := decide (L.otp.lc = 1 ∨ L.otp.lc = 3) || inServiceHold L

/-- SERVICE ends by a cause (R451): logged, source 0x0FC, PLIC source 82; in Service hold the LCS applies lane reset, which also
disarms Pepper (R63, R430). -/
def svcEnded (cause : Nat) (L : Lane) : Lane :=
  if L.lcs.svc then
    let L1 := lcRecord 3 L.otp.lc L.otp.lc cause { L with lcs := { L.lcs with svc := false } }
    let L2 := plicRaise 82 (raise 0x0FC L1)
    if inServiceHold L then laneReset 4 L2 else L2
  else L

end Sys2Proof.Machine
end

