-- ==== Sys2Proof/Machine/Cdsp.lean ====
section
/-! DEFINITION. The control DSP: register banks, pipeline, address generation, loops, tasks, interrupts, lockstep and debug
(R180 to R218). An instruction's command is the issue of that instruction. -/

namespace Sys2Proof.Machine

/-- The bank in use, and its replacement (R182, R205). -/
def dspBank (L : Lane) : DspBank := if L.b F.CDSP_STAT_BANK then L.dsp.shadow else L.dsp.main
def setBank (b : DspBank) (L : Lane) : Lane :=
  if L.b F.CDSP_STAT_BANK then { L with dsp := { L.dsp with shadow := b } } else { L with dsp := { L.dsp with main := b } }

/-- The CDSP's flow of control replaced; LDEPTH shows its loops. -/
def setFlow (f : DspFlow) (L : Lane) : Lane :=
  ({ L with dsp := { L.dsp with flow := f } }).putN F.CDSP_STAT_LDEPTH (min 2 f.loops.length)

/-- A result becomes visible in the view it belongs to. -/
def landOne (w : DspWr) (b : DspBank) (D : DspSt) : DspBank × DspSt :=
  match w.view with
  | 0 => ({ b with d := setNth b.d w.reg (w.val.setWidth 32) }, D)
  | 1 => ({ b with pM := setNth b.pM w.reg (w.val.setWidth 18) }, D)
  | 2 => ({ b with mM := setNth b.mM w.reg (w.val.setWidth 18) }, D)
  | 3 => (b, { D with bM := setNth D.bM w.reg (w.val.setWidth 18) })
  | 4 => (b, { D with lM := setNth D.lM w.reg (w.val.setWidth 18) })
  | _ => ({ b with aR := setNth b.aR w.reg w.val }, D)

/-- The results of a list become visible, oldest first. DEDUCED: log 70. -/
def landAll : List DspWr → DspBank → DspSt → DspBank × DspSt
  | [], b, D => (b, D)
  | w :: ws, b, D =>
    let r := landOne w b D
    landAll ws r.1 r.2

/-- Results of the bank in use that are due by `all` or by its cycle become visible (R195). DEDUCED: log 70. -/
def landDue (all : Bool) (L : Lane) : Lane :=
  let b := dspBank L
  let due := b.fly.filter (fun w => all || decide (w.due ≤ b.cyc))
  let rest := b.fly.filter (fun w => !(all || decide (w.due ≤ b.cyc)))
  let r := landAll due { b with fly := rest } L.dsp
  setBank r.1 { L with dsp := r.2 }

/-- A result of the instruction that issues now, visible `k` issues later. DEDUCED: log 70. -/
def flyTo (view reg : Nat) (val : BitVec 72) (k : Nat) (L : Lane) : Lane :=
  let b := dspBank L
  setBank { b with fly := b.fly ++ [⟨b.cyc + k, view, reg, val⟩] } L

/-- The budget of the task in progress has expired (R193). -/
def budgetOut (L : Lane) : Bool := decide (L.dsp.budget = some 0)

/-- The CDSP is issuing: a handler, or a task within its budget, runs; no debug halt, no lockstep stop. -/
def dspRuns (L : Lane) : Bool :=
  L.live && (decide (L.n F.CDSP_STAT_STATE = 1) && !budgetOut L || decide (L.n F.CDSP_STAT_STATE = 2)) &&
    !L.b F.CDSP_STAT_HALTED && !L.b F.CDSP_STAT_LSTOP

/-- A held output takes effect: a store, or a doorbell (R207). -/
def outOne (L : Lane) (o : DspOut) : Lane :=
  match o with
  | .store a bs => (writeBytes a bs L).2
  | .bell code => plicRaise 54 ((L.putN F.CDSP_DBOUT_CODE code.toNat).inc F.CDSP_DBOUT_COUNT)

/-- `k` cycles of the comparison pass: outputs held for 2 cycles are released in their order (R207). -/
def outCycle (k : Nat) (L : Lane) : Lane :=
  let due := L.dsp.out.filter (fun o => decide (o.2 ≤ k))
  let rest := L.dsp.out.filter (fun o => decide (k < o.2))
  due.foldl (fun a o => outOne a o.1) { L with dsp := { L.dsp with out := rest.map (fun o => (o.1, o.2 - k)) } }

/-- An output of the master copy is held (R207). -/
def holdOut (o : DspOut) (L : Lane) : Lane := { L with dsp := { L.dsp with out := L.dsp.out ++ [(o, 2)] } }

/-- The byte that the latest held store gives to an address (R207). -/
def heldByte (L : Lane) (a : Nat) : Option Byte :=
  L.dsp.out.foldl (fun r o =>
    match o.1 with
    | .store b bs => if b ≤ a ∧ a < b + bs.length then some (nth bs (a - b) 0) else r
    | .bell _ => r) none

/-- The running or suspended task ends: END code, cycles, the CDSP is idle; results in flight complete (R193). -/
def taskEnd (code : Nat) (L : Lane) : Lane :=
  let L1 := (landDue true (outCycle 2 L)).setB F.CDSP_STAT_BANK false
  let L2 := landDue true L1
  let L3 := ((L2.putN F.CDSP_TASK_LAST_END code).putN F.CDSP_TASK_LAST_TASK (L2.n F.CDSP_STAT_TASK)).putN
    F.CDSP_TASK_LAST_CYCLES (min L2.dsp.cycles 0x1FFFFF)
  let L4 := setFlow default (L3.putN F.CDSP_STAT_STATE 0)
  { L4 with dsp := { L4.dsp with saved := none, budget := none, main := { L4.dsp.main with redir := none } } }

/-- A task is in progress, running or interrupted. -/
def taskOn (L : Lane) : Bool :=
  decide (L.n F.CDSP_STAT_STATE = 1) || (decide (L.n F.CDSP_STAT_STATE = 2) && !L.dsp.fromIdle)

/-- The vector table and the task table of the image (R189). -/
def progBytes (L : Lane) : List Byte := (secOf L 0x06).bytes
def taskEntry (L : Lane) (t : Nat) : Nat := bitsOf (wAt (progBytes L) (16 + 8 * t)) 0 17
def vecEntry (L : Lane) (n : Nat) : Nat := bitsOf (wAt (progBytes L) (16 + 8 * L.n F.CDSP_CFG_NTASK + 8 * n)) 0 17

/-- Task `t` starts with a budget in cycles: main-bank registers 0, PC at its entry, AGU latched (R183, R192, R202). -/
def taskStart (t budget : Nat) (L : Lane) : Lane :=
  let z := List.replicate 8 (0 : BitVec 18)
  let L1 := { L with dsp := { L.dsp with
    main := { bankZero with pc := taskEntry L t, agu := L.dsp.aguPoint }
    bF := z, bM := z, lF := z, lM := z, saved := none, fromIdle := false, heldTask := none, budget := some budget, cycles := 0 } }
  setFlow default (((L1.putN F.CDSP_STAT_STATE 1).putN F.CDSP_STAT_TASK t).setB F.CDSP_STAT_AGU L.dsp.aguPoint)

/-- The end of a handler after RTI's delay slots (R204, R205): the interrupted task resumes, else the CDSP is idle and a held
task starts (R194). DEDUCED: log 69. -/
def handlerEnd (L : Lane) : Lane :=
  let L1 := (if L.b F.CDSP_STAT_BANK then L else landDue true L).setB F.CDSP_STAT_BANK false
  match L1.dsp.saved with
  | some (f, pc, agu) =>
    let m := L1.dsp.main
    let m1 := if L.b F.CDSP_STAT_BANK then m else { m with pc := pc, agu := agu, redir := none }
    let L2 := { L1 with dsp := { L1.dsp with saved := none, main := m1 } }
    setFlow f ((L2.putN F.CDSP_STAT_STATE 1).setB F.CDSP_STAT_AGU agu)
  | none =>
    let L2 := setFlow default ((outCycle 2 L1).putN F.CDSP_STAT_STATE 0)
    let L3 := { L2 with dsp := { L2.dsp with fromIdle := false, main := { L2.dsp.main with redir := none } } }
    match L3.dsp.heldTask with
    | some t => taskStart t.1 t.2 L3
    | none => L3

/-- A debug halt takes effect once the last cycle has been compared (R209): HALTED, PLIC source 55, and the cross-lane halt request where HALT_OUT_EN is 1.
DEDUCED: log 33. -/
def haltNow (L0 : Lane) : Lane :=
  let L := outCycle 2 L0
  let L1 := (L.setB F.CDSP_STAT_HALTED true).setB F.CDSP_DBG_CTL_HALTED true
  let L2 := { L1 with dsp := { L1.dsp with haltReq := false } }
  let L3 := if L2.b F.LSM_DBG_CTL_HALT_OUT_EN then { L2 with lsm := { L2.lsm with haltOut := true } } else L2
  plicRaise 55 (pwmHalt L3)

/-- Next loop state after the instruction at `pc` of the flow: where issue goes on (R197). -/
def loopNext (pc : Nat) (f : DspFlow) : Nat × DspFlow :=
  match f.loops.reverse with
  | [] => (pc + 1, f)
  | lv :: outer =>
    if lv.last = pc then
      if 1 < lv.cnt then
        let c := match f.cache with
          | some (a, b, _) => if a = lv.first ∧ b = lv.last then some (a, b, true) else f.cache
          | none => none
        (lv.first, { f with loops := outer.reverse ++ [{ lv with cnt := lv.cnt - 1 }], cache := c })
      else
        match outer with
        | [] => (pc + 1, { f with loops := [] })
        | o :: rest =>
          if o.last = pc then
            if 1 < o.cnt then (o.first, { f with loops := rest.reverse ++ [{ o with cnt := o.cnt - 1 }] })
            else (pc + 1, { f with loops := rest.reverse })
          else (pc + 1, { f with loops := outer.reverse })
    else (pc + 1, f)

/-- PC and flow after an issue: the next REP iteration, the next iteration of a loop, or the next instruction. -/
def flowStep (L : Lane) : Lane :=
  let b := dspBank L
  let f := L.dsp.flow
  if 1 < f.rep then setFlow { f with rep := f.rep - 1 } L
  else
    let r := loopNext b.pc { f with rep := 0 }
    setFlow r.2 (setBank { b with pc := r.1 % 131072 } L)

/-- `k` cycles pass: the bank's count, the task's count and budget, the waits of pending interrupts, the held outputs. -/
def dspCycle (k : Nat) (L : Lane) : Lane :=
  let b := dspBank L
  let L1 := setBank { b with cyc := b.cyc + k } (outCycle k L)
  { L1 with dsp := { L1.dsp with
      cycles := L1.dsp.cycles + k
      budget := L1.dsp.budget.map (fun n => n - k)
      heldTask := L1.dsp.heldTask.map (fun t => (t.1, t.2 - k))
      wait := (List.range 8).map (fun n => nth L1.dsp.wait n 0 + (if L1.bit F.CDSP_STAT_IRQ_PEND n then k else 0)) } }

/-- The instruction at PC is fetched from the repeat cache (R199); a handler never does. -/
def fromCache (L : Lane) : Bool :=
  let f := L.dsp.flow
  let pc := (dspBank L).pc
  decide (L.n F.CDSP_STAT_STATE = 1) &&
    (decide (f.rep ≠ 0) || (match f.cache with | some (a, b, full) => full && decide (a ≤ pc ∧ pc ≤ b) | none => false))

/-- What follows the delay slots of a control transfer. DEDUCED: log 69. -/
def redirDone (r : DspRedir) (L : Lane) : Lane :=
  match r.kind with
  | 0 => setBank { dspBank L with pc := r.target % 131072, redir := none } L
  | 1 => taskEnd 1 L
  | _ => handlerEnd L

/-- One instruction issues: an LDC that is not in the repeat cache loses a cycle (R200), due results land, the instruction
acts, PC moves on, a transfer whose last delay slot this was is made (R195). DEDUCED: log 67. -/
def issue (ldc : Bool) (act : Lane → Lane) (L : Lane) : Lane :=
  let L0 := if ldc && !fromCache L then dspCycle 1 L else L
  let L1 := landDue false L0
  let old := (dspBank L1).redir
  let L2 := act L1
  if !(decide (L2.n F.CDSP_STAT_STATE = 1 ∨ L2.n F.CDSP_STAT_STATE = 2)) then L2
  else
    let L3 := dspCycle 1 (flowStep L2)
    let L4 := match old with
      | some r =>
        if r.left ≤ 1 then redirDone r L3 else setBank { dspBank L3 with redir := some { r with left := r.left - 1 } } L3
      | none => L3
    if L4.dsp.haltReq && (dspBank L4).redir.isNone then haltNow L4 else L4

/-- An illegal instruction ends the task, or the handler and its task (R193, R210, R215). DEDUCED: log 67, 68. -/
def illegal (src : Nat) (L : Lane) : Lane :=
  let L1 := raise src (L.inc F.CDSP_ERR_ILL_CNT)
  plicRaise 55 (if taskOn L1 then taskEnd 3 L1 else
    (setFlow default ((landDue true (outCycle 2 L1)).putN F.CDSP_STAT_STATE 0)).setB F.CDSP_STAT_BANK false)

/-- The command of an instruction: it issues where the CDSP is issuing. DEDUCED: log 67. -/
def dspDo (ldc ok : Bool) (act : Lane → Lane) (L : Lane) : Lane :=
  if dspRuns L then (if ok then issue ldc act L else illegal 0x02A L) else L

/-- Registers as an instruction reads them at issue. -/
def dReg (L : Lane) (n : Nat) : Word := nth (dspBank L).d n 0
def setD (n : Nat) (v : Word) (L : Lane) : Lane := setBank { dspBank L with d := setNth (dspBank L).d n v } L

/-- The 72-bit limits of an accumulator (R181): the value, and whether it was limited. -/
def acc72 (x : Int) : BitVec 72 × Bool :=
  if x < -(2 ^ 71) then (BitVec.ofInt 72 (-(2 ^ 71)), true)
  else if 2 ^ 71 - 1 < x then (BitVec.ofInt 72 (2 ^ 71 - 1), true) else (BitVec.ofInt 72 x, false)

/-- An accumulator takes an exact value; its read view follows 3 issues later (R181, R195). -/
def setAcc (n : Nat) (x : Int) (L : Lane) : Lane :=
  let v := acc72 x
  let b := dspBank L
  flyTo 5 n v.1 3 (setBank { b with aF := setNth b.aF n v.1, aov := if v.2 then b.aov ||| BitVec.ofNat 4 (2 ^ n) else b.aov } L)

/-- An accumulator as the MAC unit reads it. -/
def accF (L : Lane) (n : Nat) : Int := (nth (dspBank L).aF n 0).toInt

/-- The extraction of an accumulator as a 32-bit value (R181): the value, and the state with SAT. -/
def extract (n : Nat) (L : Lane) : Word × Lane :=
  let b := dspBank L
  let a := (nth b.aR n 0).toInt
  let r := if b.rnd then a / 2 ^ 31 else (a + 2 ^ 30) / 2 ^ 31
  if sat32 r = r then (BitVec.ofInt 32 r, L) else (satW r, setBank { b with sat := true } L)

/-- The address generation setting in force: post-modify while a slice of the CDSP's class runs (R202, R417). -/
def aguNow (L : Lane) : Bool := (dspBank L).agu || (L.b F.BSC_STAT_BUSY && decide (L.n F.BSC_STAT_CLASS = 0))

/-- The address generator (R201): the new value of a pointer. -/
def nextPtr (L : Lane) (n : Nat) (delta : Int) : BitVec 18 :=
  let b := dspBank L
  let p : Int := (nth b.pM n 0).toNat
  let base : Int := (nth L.dsp.bM n 0).toNat
  let len : Int := (nth L.dsp.lM n 0).toNat
  if !aguNow L && decide (len ≠ 0) then BitVec.ofInt 18 (base + (p - base + delta) % len)
  else BitVec.ofInt 18 (p + delta)

/-- The change of a pointer by an update code (R201). -/
def updDelta (L : Lane) (n upd : Nat) (s : Int) : Int :=
  let m : Int := (nth (dspBank L).mM n 0).toInt
  match upd with
  | 1 => s
  | 2 => -s
  | 3 => m
  | 4 => -m
  | 5 => 2 * s
  | 6 => -(2 * s)
  | _ => 0

/-- A move leaves X or Y memory, or stores to X words 0 to 7 (R187, R188). -/
def dspAddrErr (L : Lane) : Lane := raise 0x02C (L.inc F.CDSP_ERR_ADDR_CNT)

/-- `n` bytes as a load of the CDSP reads them: held stores are forwarded, and memory is read for what they do not give (R207).
DEDUCED: log 70. A word that another master has written is seen at once (R185). DESIGN CHOICE: log 67. -/
def dspBytes (a n : Nat) (L : Lane) : Option (List Byte) × Lane :=
  let hs := (List.range n).map (fun k => heldByte L (a + k))
  if hs.all (fun h => h.isSome) then (some (hs.map (fun h => h.getD 0)), L)
  else
    let r := readBytes a n L
    (r.1.map (fun bs => (bs.zip hs).map (fun p => p.2.getD p.1)), r.2)

/-- A load of `n` bytes from word index `w` of a memory of `limit` words: 0 and MERR where it cannot be read (R187). -/
def dspLoad (base limit w n : Nat) (L : Lane) : List Byte × Lane :=
  let merr (L : Lane) : Lane := setBank { dspBank L with merr := true } L
  if limit ≤ w then (List.replicate n 0, dspAddrErr (merr L))
  else
    let r := dspBytes (base + 4 * w) n L
    match r.1 with
    | some bs => (bs, r.2)
    | none => (List.replicate n 0, merr r.2)

/-- A store by word index; outside the memory, or to the selection block, it is suppressed (R187, R188). -/
def dspStore (isX : Bool) (w : Nat) (bs : List Byte) (L : Lane) : Lane :=
  if 131072 ≤ w ∨ (isX ∧ w < 8) then dspAddrErr L
  else holdOut (.store ((if isX then xBase else yBase) + 4 * w) bs) L

/-- A load into D is seen two issues later (R195). -/
def loadD (n : Nat) (v : Word) (L : Lane) : Lane := flyTo 0 n (v.setWidth 72) 2 L

/-- One move of a parallel instruction (R201, R212). -/
def doMove (isX : Bool) (m : Move) (L : Lane) : Lane :=
  let n := m.ptr.toNat
  let r := m.reg.toNat
  let w := (nth (dspBank L).pM n 0).toNat
  let w2 := w - w % 2
  let base := if isX then xBase else yBase
  let s : Int := match m.kind with | .ldp => 2 | .stp => 2 | _ => 1
  let np := nextPtr L n (updDelta L n m.upd.toNat s)
  let L1 := match m.kind with
    | .none => L
    | .ld => let q := dspLoad base 131072 w 4 L; loadD r (leWord q.1) q.2
    | .ldp => let q := dspLoad base 131072 w2 8 L; loadD (r + 1) (leWord (q.1.drop 4)) (loadD r (leWord (q.1.take 4)) q.2)
    | .st => dspStore isX w (wordBytes (dReg L r)) L
    | .stp => dspStore isX w2 (wordBytes (dReg L r) ++ wordBytes (dReg L (r + 1))) L
    | .sta => let q := extract (r % 4) L; dspStore isX w (wordBytes q.1) q.2
    | .ldc => let q := dspLoad pBase 262144 w 4 L; loadD r (leWord q.1) q.2
  let b := dspBank L1
  if m.upd = 0 then L1
  else setBank { b with pF := setNth b.pF n np, pM := setNth b.pM n np } L1

/-- A move is legal (R201, R212). -/
def moveOk (isX : Bool) (m : Move) : Bool :=
  decide (m.upd ≠ 7) &&
  (match m.kind with
   | .ldp => decide (m.reg.toNat % 2 = 0)
   | .stp => decide (m.reg.toNat % 2 = 0)
   | .sta => decide (m.reg.toNat < 4)
   | .ldc => isX
   | _ => true)

/-- A parallel instruction: the MAC-pair operation on registers read at issue, then the two moves (R210, R211). -/
def parallel (x y : Move) (ok : Bool) (mac : Lane → Lane) (L : Lane) : Lane :=
  dspDo (decide (x.kind = .ldc)) (ok && moveOk true x && moveOk false y)
    (fun A => doMove false y (doMove true x (mac A))) L

/-- The product of two operands, the second unsigned for MACSU (R181, R211). -/
def prod (su : Bool) (a b : Word) : Int := a.toInt * (if su then (b.toNat : Int) else b.toInt)

/-- The exact terms of a multiplying operation: accumulator and what is set, added or subtracted (R211). -/
def macTerms (su : Bool) (L : Lane) (m : MacArgs) : List (Nat × Int) :=
  let a := dReg L m.mra.toNat
  let b := dReg L m.mrb.toNat
  let c := dReg L m.mrc.toNat
  let d := dReg L m.mrd.toNat
  match m.mpair.toNat with
  | 0 => [(0, prod su a b), (1, prod su c d)]
  | 1 => [(2, prod su a b), (3, prod su c d)]
  | 2 => [(0, prod su a b), (1, prod su c d), (2, prod su a d), (3, prod su c b)]
  | _ => [(0, prod su a b + prod su c d), (1, prod su c b - prod su a d)]

/-- A multiplying operation; `f` combines the accumulator with the term. -/
def macOp (su : Bool) (f : Int → Int → Int) (m : MacArgs) (L : Lane) : Lane :=
  (macTerms su L m).foldl (fun a t => setAcc t.1 (f (accF L t.1) t.2) a) L

/-- The accumulators that CLR, ASR and ASL select. -/
def pairAccs (mpair : Nat) : List Nat :=
  match mpair with
  | 0 => [0, 1]
  | 1 => [2, 3]
  | _ => [0, 1, 2, 3]

def execMacPairNop (l : LaneId) (x y : Move) (s : State) : Host.Outcome State Fault Refusal :=
  .next (s.onLane l (parallel x y true id))
def execMpy (l : LaneId) (m : MacArgs) (s : State) : Host.Outcome State Fault Refusal :=
  .next (s.onLane l (parallel m.x m.y true (macOp false (fun _ t => t) m)))
def execMac (l : LaneId) (m : MacArgs) (s : State) : Host.Outcome State Fault Refusal :=
  .next (s.onLane l (parallel m.x m.y true (macOp false (fun a t => a + t) m)))
def execMsu (l : LaneId) (m : MacArgs) (s : State) : Host.Outcome State Fault Refusal :=
  .next (s.onLane l (parallel m.x m.y true (macOp false (fun a t => a - t) m)))
def execMacsu (l : LaneId) (m : MacArgs) (s : State) : Host.Outcome State Fault Refusal :=
  .next (s.onLane l (parallel m.x m.y true (macOp true (fun a t => a + t) m)))
def execClr (l : LaneId) (mpair : BitVec 2) (x y : Move) (s : State) : Host.Outcome State Fault Refusal :=
  .next (s.onLane l (parallel x y true (fun L => (pairAccs mpair.toNat).foldl (fun a n => setAcc n 0 a) L)))
def execAsr (l : LaneId) (mpair : BitVec 2) (count : BitVec 4) (x y : Move) (s : State) :
    Host.Outcome State Fault Refusal :=
  .next (s.onLane l (parallel x y true (fun L =>
    (pairAccs mpair.toNat).foldl (fun a n => setAcc n (accF L n / 2 ^ count.toNat) a) L)))
def execAsl (l : LaneId) (mpair : BitVec 2) (count : BitVec 4) (x y : Move) (s : State) :
    Host.Outcome State Fault Refusal :=
  .next (s.onLane l (parallel x y true (fun L =>
    (pairAccs mpair.toNat).foldl (fun a n => setAcc n (accF L n * 2 ^ count.toNat) a) L)))
def execLda (l : LaneId) (mpair : BitVec 2) (mra mrc : BitVec 4) (x y : Move) (s : State) :
    Host.Outcome State Fault Refusal :=
  .next (s.onLane l (parallel x y (decide (mpair.toNat < 2)) (fun L =>
    setAcc (2 * mpair.toNat + 1) ((dReg L mrc.toNat).toInt * 2 ^ 31)
      (setAcc (2 * mpair.toNat) ((dReg L mra.toNat).toInt * 2 ^ 31) L))))

/-- A parallel instruction with MOP NOP and one move. -/
def oneMove (bus : Bus) (m : Move) (L : Lane) : Lane :=
  match bus with
  | .x => parallel m ⟨.none, 0, 0, 0⟩ true id L
  | .y => parallel ⟨.none, 0, 0, 0⟩ m true id L
def execLd (l : LaneId) (bus : Bus) (reg : BitVec 4) (ptr upd : BitVec 3) (s : State) :
    Host.Outcome State Fault Refusal := .next (s.onLane l (oneMove bus ⟨.ld, reg, ptr, upd⟩))
def execLdp (l : LaneId) (bus : Bus) (reg : BitVec 4) (ptr upd : BitVec 3) (s : State) :
    Host.Outcome State Fault Refusal := .next (s.onLane l (oneMove bus ⟨.ldp, reg, ptr, upd⟩))
def execSt (l : LaneId) (bus : Bus) (reg : BitVec 4) (ptr upd : BitVec 3) (s : State) :
    Host.Outcome State Fault Refusal := .next (s.onLane l (oneMove bus ⟨.st, reg, ptr, upd⟩))
def execStp (l : LaneId) (bus : Bus) (reg : BitVec 4) (ptr upd : BitVec 3) (s : State) :
    Host.Outcome State Fault Refusal := .next (s.onLane l (oneMove bus ⟨.stp, reg, ptr, upd⟩))
def execSta (l : LaneId) (bus : Bus) (acc : BitVec 2) (ptr upd : BitVec 3) (s : State) :
    Host.Outcome State Fault Refusal := .next (s.onLane l (oneMove bus ⟨.sta, acc.setWidth 4, ptr, upd⟩))
def execLdc (l : LaneId) (reg : BitVec 4) (ptr upd : BitVec 3) (s : State) :
    Host.Outcome State Fault Refusal := .next (s.onLane l (oneMove .x ⟨.ldc, reg, ptr, upd⟩))

/-- ST as an instruction reads it (R182). -/
def stWord (L : Lane) : Word :=
  let b := dspBank L
  at' 15 (b2n (L.b F.CDSP_STAT_BANK)) ||| at' 13 (L.n F.CDSP_STAT_LDEPTH) ||| at' 12 (b2n (aguNow L)) ||| at' 8 (b2n b.rnd) |||
    at' 4 b.aov.toNat ||| at' 3 (b2n b.sat) ||| at' 2 (b2n b.merr)

/-- Register numbers that MOV may read and that MOV and LDI may write (R213). -/
def srcOk (n : Nat) : Bool := decide (n < 0x14 ∨ (0x18 ≤ n ∧ n ≤ 0x3A))
def dstOk (n : Nat) : Bool := decide (n < 0x14 ∨ (0x18 ≤ n ∧ n < 0x38) ∨ n = 0x3A)

/-- LC0 and LC1, of which the CDSP has one copy: a handler that opens no loop of its own at a level finds the interrupted task's
count (R180, R197). DEDUCED: log 69. -/
def loopCount (L : Lane) (n : Nat) : Nat :=
  let under := match L.dsp.saved with
    | some (f, _, _) => f.loops
    | none => []
  match L.dsp.flow.loops[n]?, under[n]? with
  | some lv, _ => lv.cnt
  | none, some lv => lv.cnt
  | none, none => 0

/-- A register as MOV reads it (R213). DEDUCED: log 70. -/
def srcReg (n : Nat) (L : Lane) : Word × Lane :=
  let b := dspBank L
  if n < 0x10 then (dReg L n, L)
  else if n < 0x14 then extract (n - 0x10) L
  else if n < 0x20 then ((nth b.pF (n - 0x18) 0).setWidth 32, L)
  else if n < 0x28 then ((nth L.dsp.bF (n - 0x20) 0).setWidth 32, L)
  else if n < 0x30 then ((nth L.dsp.lF (n - 0x28) 0).setWidth 32, L)
  else if n < 0x38 then ((nth b.mF (n - 0x30) 0).signExtend 32, L)
  else if n < 0x3A then (toW (loopCount L (n - 0x38)), L)
  else (stWord L, L)

/-- A register as MOV and LDI write it (R181, R182, R195, R213). A write of P, B, L or M is seen by an ALU read one issue later, by
a move two issues later; older results in flight for an accumulator no longer reach it. DEDUCED: log 70. -/
def dstReg (n : Nat) (v : Word) (L : Lane) : Lane :=
  let b := dspBank L
  let v18 : BitVec 18 := v.setWidth 18
  if n < 0x10 then setD n v L
  else if n < 0x14 then
    let a := (acc72 (v.toInt * 2 ^ 31)).1
    setBank { b with aF := setNth b.aF (n - 0x10) a, aR := setNth b.aR (n - 0x10) a
                     fly := b.fly.filter (fun w => !decide (w.view = 5 ∧ w.reg = n - 0x10)) } L
  else if n < 0x20 then
    flyTo 1 (n - 0x18) (v18.setWidth 72) 2 (setBank { b with pF := setNth b.pF (n - 0x18) v18 } L)
  else if n < 0x28 then
    flyTo 3 (n - 0x20) (v18.setWidth 72) 2 { L with dsp := { L.dsp with bF := setNth L.dsp.bF (n - 0x20) v18 } }
  else if n < 0x30 then
    flyTo 4 (n - 0x28) (v18.setWidth 72) 2 { L with dsp := { L.dsp with lF := setNth L.dsp.lF (n - 0x28) v18 } }
  else if n < 0x38 then
    flyTo 2 (n - 0x30) (v18.setWidth 72) 2 (setBank { b with mF := setNth b.mF (n - 0x30) v18 } L)
  else setBank { b with
    rnd := bitAt v 8
    aov := b.aov &&& ~~~ BitVec.ofNat 4 (bitsOf v 4 4)
    sat := b.sat && !bitAt v 3
    merr := b.merr && !bitAt v 2 } L

def execLdi (l : LaneId) (rdst : BitVec 6) (imm : Word) (s : State) : Host.Outcome State Fault Refusal :=
  let n := rdst.toNat
  let wide := decide ((0x18 ≤ n ∧ n < 0x30) ∧ bitsOf imm 18 14 ≠ 0)
  .next (s.onLane l (dspDo false (dstOk n && !wide) (dstReg n imm)))
def execMov (l : LaneId) (rdst rsa : BitVec 6) (s : State) : Host.Outcome State Fault Refusal :=
  .next (s.onLane l (dspDo false (dstOk rdst.toNat && srcOk rsa.toNat) (fun L =>
    let q := srcReg rsa.toNat L
    dstReg rdst.toNat q.1 q.2)))

/-- A saturating ALU result into D: SAT where it saturated (R214). -/
def satD (rd : Nat) (x : Int) (L : Lane) : Lane :=
  setD rd (satW x) (if sat32 x = x then L else setBank { dspBank L with sat := true } L)

/-- An ALU operation whose result is a word of two D registers. -/
def alu2 (rd ra rb : BitVec 4) (f : Word → Word → Word) (L : Lane) : Lane :=
  dspDo false true (fun A => setD rd.toNat (f (dReg A ra.toNat) (dReg A rb.toNat)) A) L

/-- A saturating operation of two D registers. -/
def alu2s (rd ra rb : BitVec 4) (f : Int → Int → Int) (L : Lane) : Lane :=
  dspDo false true (fun A => satD rd.toNat (f (dReg A ra.toNat).toInt (dReg A rb.toNat).toInt) A) L

/-- A shift by IMM[4:0] (R214). DEDUCED: the other bits of IMM are no field of their own and do not count.
DEDUCED: log 66. -/
def aluSh (imm : Word) (f : Nat → Lane → Lane) (L : Lane) : Lane :=
  dspDo false true (f (imm.toNat % 32)) L

def execAdd (l : LaneId) (rd ra rb : BitVec 4) (s : State) : Host.Outcome State Fault Refusal :=
  .next (s.onLane l (alu2 rd ra rb (fun a b => a + b)))
def execSub (l : LaneId) (rd ra rb : BitVec 4) (s : State) : Host.Outcome State Fault Refusal :=
  .next (s.onLane l (alu2 rd ra rb (fun a b => a - b)))
def execAdds (l : LaneId) (rd ra rb : BitVec 4) (s : State) : Host.Outcome State Fault Refusal :=
  .next (s.onLane l (alu2s rd ra rb (fun a b => a + b)))
def execSubs (l : LaneId) (rd ra rb : BitVec 4) (s : State) : Host.Outcome State Fault Refusal :=
  .next (s.onLane l (alu2s rd ra rb (fun a b => a - b)))
def execAddi (l : LaneId) (rd ra : BitVec 4) (imm : Word) (s : State) : Host.Outcome State Fault Refusal :=
  .next (s.onLane l (dspDo false true (fun L => setD rd.toNat (dReg L ra.toNat + imm) L)))
def execAnd (l : LaneId) (rd ra rb : BitVec 4) (s : State) : Host.Outcome State Fault Refusal :=
  .next (s.onLane l (alu2 rd ra rb (fun a b => a &&& b)))
def execOr (l : LaneId) (rd ra rb : BitVec 4) (s : State) : Host.Outcome State Fault Refusal :=
  .next (s.onLane l (alu2 rd ra rb (fun a b => a ||| b)))
def execXor (l : LaneId) (rd ra rb : BitVec 4) (s : State) : Host.Outcome State Fault Refusal :=
  .next (s.onLane l (alu2 rd ra rb (fun a b => a ^^^ b)))
/-- DEDUCED: log 66. -/
def execShl (l : LaneId) (rd ra : BitVec 4) (imm : Word) (s : State) : Host.Outcome State Fault Refusal :=
  .next (s.onLane l (aluSh imm (fun n L => setD rd.toNat (dReg L ra.toNat <<< n) L)))
def execShls (l : LaneId) (rd ra : BitVec 4) (imm : Word) (s : State) : Host.Outcome State Fault Refusal :=
  .next (s.onLane l (aluSh imm (fun n L => satD rd.toNat ((dReg L ra.toNat).toInt * 2 ^ n) L)))
/-- DEDUCED: log 66. -/
def execShra (l : LaneId) (rd ra : BitVec 4) (imm : Word) (s : State) : Host.Outcome State Fault Refusal :=
  .next (s.onLane l (aluSh imm (fun n L => setD rd.toNat ((dReg L ra.toNat).sshiftRight n) L)))
def execShrl (l : LaneId) (rd ra : BitVec 4) (imm : Word) (s : State) : Host.Outcome State Fault Refusal :=
  .next (s.onLane l (aluSh imm (fun n L => setD rd.toNat (dReg L ra.toNat >>> n) L)))
def execMin (l : LaneId) (rd ra rb : BitVec 4) (s : State) : Host.Outcome State Fault Refusal :=
  .next (s.onLane l (alu2 rd ra rb (fun a b => if b.toInt < a.toInt then b else a)))
def execMax (l : LaneId) (rd ra rb : BitVec 4) (s : State) : Host.Outcome State Fault Refusal :=
  .next (s.onLane l (alu2 rd ra rb (fun a b => if a.toInt < b.toInt then b else a)))
def execAbss (l : LaneId) (rd ra : BitVec 4) (s : State) : Host.Outcome State Fault Refusal :=
  .next (s.onLane l (dspDo false true (fun L => satD rd.toNat ((dReg L ra.toNat).toInt.natAbs : Int) L)))
def execNegs (l : LaneId) (rd ra : BitVec 4) (s : State) : Host.Outcome State Fault Refusal :=
  .next (s.onLane l (dspDo false true (fun L => satD rd.toNat (-(dReg L ra.toNat).toInt) L)))
def execSelneg (l : LaneId) (rd ra rb : BitVec 4) (s : State) : Host.Outcome State Fault Refusal :=
  .next (s.onLane l (dspDo false true (fun L =>
    if (dReg L ra.toNat).toInt < 0 then setD rd.toNat (dReg L rb.toNat) L else L)))
def execSelz (l : LaneId) (rd ra rb : BitVec 4) (s : State) : Host.Outcome State Fault Refusal :=
  .next (s.onLane l (dspDo false true (fun L =>
    if dReg L ra.toNat = 0 then setD rd.toNat (dReg L rb.toNat) L else L)))
def execClamp (l : LaneId) (rd ra : BitVec 4) (imm : Word) (s : State) : Host.Outcome State Fault Refusal :=
  .next (s.onLane l (dspDo false (decide (imm.toNat < 2 ^ 31)) (fun L =>
    setD rd.toNat (BitVec.ofInt 32 (min (max (dReg L ra.toNat).toInt (-imm.toInt)) imm.toInt)) L)))

def execCdspNop (l : LaneId) (s : State) : Host.Outcome State Fault Refusal := .next (s.onLane l (dspDo false true id))

/-- A control transfer begins: two delay slots follow (R195). One in a delay slot is illegal (R216). DEDUCED: log 68. -/
def transfer (kind target : Nat) (L : Lane) : Lane :=
  setBank { dspBank L with redir := some ⟨2, kind, target⟩ } L
def noSlot (L : Lane) : Bool := (dspBank L).redir.isNone

def execJmp (l : LaneId) (target : BitVec 17) (s : State) : Host.Outcome State Fault Refusal :=
  .next (s.onLane l (fun L => dspDo false (noSlot L) (transfer 0 target.toNat) L))

/-- CALL: the return index is that of the instruction after the delay slots; a ninth level is a stack fault (R215). -/
def dspCall (target : Nat) (L : Lane) : Lane :=
  let f := L.dsp.flow
  if 8 ≤ f.stack.length then illegal 0x02B L
  else transfer 0 target (setFlow { f with stack := ((dspBank L).pc + 3) % 131072 :: f.stack } L)
def execCall (l : LaneId) (target : BitVec 17) (s : State) : Host.Outcome State Fault Refusal :=
  .next (s.onLane l (fun L => dspDo false (noSlot L) (dspCall target.toNat) L))
def dspRet (L : Lane) : Lane :=
  let f := L.dsp.flow
  match f.stack with
  | [] => illegal 0x02B L
  | t :: rest => transfer 0 t (setFlow { f with stack := rest } L)
def execRet (l : LaneId) (s : State) : Host.Outcome State Fault Refusal :=
  .next (s.onLane l (fun L => dspDo false (noSlot L) dspRet L))

/-- LOOP takes no issue cycle: a level opens on the instructions up to TARGET, and the cache takes a body of 1 to 64 (R197,
R199). DEDUCED: log 68. -/
def dspLoop (count target : Nat) (L : Lane) : Lane :=
  let f := L.dsp.flow
  let b := dspBank L
  let first := (b.pc + 1) % 131072
  let c : Option (Nat × Nat × Bool) :=
    if L.n F.CDSP_STAT_STATE = 1 then
      (if first ≤ target ∧ target - first < 64 then some (first, target, false) else none)
    else f.cache
  setFlow { f with loops := f.loops ++ [⟨first, target, count⟩], cache := c } (setBank { b with pc := first } L)
def execLoop (l : LaneId) (count : BitVec 16) (target : BitVec 17) (s : State) : Host.Outcome State Fault Refusal :=
  .next (s.onLane l (fun L =>
    if dspRuns L then
      (if noSlot L && decide (count ≠ 0) && decide (L.dsp.flow.loops.length < 2) then dspLoop count.toNat target.toNat L
       else illegal 0x02A L)
    else L))

/-- REP takes no issue cycle: the instruction that follows issues COUNT times from the cache (R198). DEDUCED: log 68. -/
def dspRep (count : Nat) (L : Lane) : Lane :=
  let f := L.dsp.flow
  let b := dspBank L
  let p := (b.pc + 1) % 131072
  setFlow { f with rep := count, cache := if L.n F.CDSP_STAT_STATE = 1 then some (p, p, true) else f.cache }
    (setBank { b with pc := p } L)
def execRep (l : LaneId) (count : BitVec 16) (s : State) : Host.Outcome State Fault Refusal :=
  .next (s.onLane l (fun L =>
    if dspRuns L then
      (if noSlot L && decide (count ≠ 0 ∧ count.toNat ≤ 4096) then dspRep count.toNat L else illegal 0x02A L)
    else L))

/-- DEDUCED: log 68. -/
def execTend (l : LaneId) (s : State) : Host.Outcome State Fault Refusal :=
  .next (s.onLane l (fun L => dspDo false (noSlot L && decide (L.n F.CDSP_STAT_STATE = 1)) (transfer 1 0) L))
def execRti (l : LaneId) (s : State) : Host.Outcome State Fault Refusal :=
  .next (s.onLane l (fun L => dspDo false (noSlot L && decide (L.n F.CDSP_STAT_STATE = 2)) (transfer 2 0) L))
def execDbell (l : LaneId) (code : Byte) (s : State) : Host.Outcome State Fault Refusal :=
  .next (s.onLane l (dspDo false true (holdOut (.bell code))))

/-- A halt is requested: it takes effect at the next boundary that is no delay slot (R209). -/
def haltRequest (L : Lane) : Lane := { L with dsp := { L.dsp with haltReq := true } }
def execBkpt (l : LaneId) (s : State) : Host.Outcome State Fault Refusal :=
  .next (s.onLane l (dspDo false true (fun L => if debugAllowed L then haltRequest L else L)))

/-- The task's budget expires (R193): what runs is stopped, a handler over it too. DEDUCED: log 69. -/
def overrun (L : Lane) : Lane :=
  if L.live ∧ taskOn L ∧ budgetOut L ∧ ¬ L.b F.CDSP_STAT_HALTED then plicRaise 55 (raise 0x029 ((taskEnd 2 L).inc F.CDSP_ERR_OVR_CNT)) else L
def execCdspOverrun (l : LaneId) (s : State) : Host.Outcome State Fault Refusal := .next (s.onLane l overrun)
def execIllegalInstruction (l : LaneId) (s : State) : Host.Outcome State Fault Refusal :=
  .next (s.onLane l (fun L => if dspRuns L then illegal 0x02A L else L))

/-- A write to CDSP_DB: X word 4 and interrupt source 5 (R188, R203). -/
def cdspDb (val : Word) (L : Lane) : Lane := cdspIrq 5 ((writeW (xBase + 16) (toW (bitsOf val 0 16)) L).2)
def execCdspDb (l : LaneId) (val : Word) (s : State) : Host.Outcome State Fault Refusal :=
  .next (s.onLane l (whenLive (cdspDb val)))

/-- The copies differ: what is held is discarded, both stop until lane reset, source 0x028 (R208). -/
def cdspLockstep (L0 : Lane) : Lane :=
  if L0.b F.CDSP_STAT_LSTOP then L0
  else
    let L := { L0 with dsp := { L0.dsp with out := [] } }
    let L1 := if taskOn L then taskEnd 4 L else L
    plicRaise 55 (raise 0x028 ((L1.setB F.CDSP_STAT_LSTOP true).putN F.CDSP_STAT_STATE 3))
def execCdspLockstep (l : LaneId) (s : State) : Host.Outcome State Fault Refusal :=
  .next (s.onLane l (whenLive cdspLockstep))

/-- HALT, RESUME of CDSP_DBG_CTL, in the lifecycle states that allow debug (R209). -/
def dbgHalt (L : Lane) : Lane :=
  if debugAllowed L ∧ ¬ L.b F.CDSP_STAT_HALTED ∧ ¬ L.b F.CDSP_STAT_LSTOP then
    (if noSlot L then haltNow L else haltRequest L)
  else L
def dbgResume (L : Lane) : Lane :=
  if debugAllowed L ∧ L.b F.CDSP_STAT_HALTED then
    let L1 := (L.setB F.CDSP_STAT_HALTED false).setB F.CDSP_DBG_CTL_HALTED false
    { L1 with lsm := { L1.lsm with haltOut := (L1.core0.halted || L1.core1.halted) && L1.lsm.haltOut } }
  else L
def execCdspHalt (l : LaneId) (s : State) : Host.Outcome State Fault Refusal := .next (s.onLane l (whenLive dbgHalt))
def execCdspResume (l : LaneId) (s : State) : Host.Outcome State Fault Refusal := .next (s.onLane l (whenLive dbgResume))

def cdspErrFlds : List Fld :=
  [F.CDSP_ERR_OVR_CNT, F.CDSP_ERR_ILL_CNT, F.CDSP_ERR_IRQ_LOST_CNT, F.CDSP_ERR_ADDR_CNT, F.CDSP_IRQ_LAT_MAX]
def execCdspErrClr (l : LaneId) (val : Word) (s : State) : Host.Outcome State Fault Refusal :=
  .next (s.onLane l (whenLive (clearBy cdspErrFlds val)))

/-- A fetched instruction word as the command that it is, for lane `l`; none where it is illegal (R210 to R215). -/
def moveKindOf : Nat → Option MoveKind
  | 0 => some .none
  | 1 => some .ld
  | 2 => some .ldp
  | 3 => some .st
  | 4 => some .stp
  | 5 => some .sta
  | 6 => some .ldc
  | _ => none
def moveOf (w : Word64) (lo : Nat) : Option Move :=
  (moveKindOf (bitsOf64 w (lo + 10) 3)).map (fun k =>
    ⟨k, BitVec.ofNat 4 (bitsOf64 w (lo + 6) 4), BitVec.ofNat 3 (bitsOf64 w (lo + 3) 3), BitVec.ofNat 3 (bitsOf64 w lo 3)⟩)

/-- The parallel format (R210, R211). -/
def decPar (l : LaneId) (w : Word64) : Option Instr :=
  match moveOf w 26, moveOf w 13 with
  | some x, some y =>
    let mp : BitVec 2 := BitVec.ofNat 2 (bitsOf64 w 55 2)
    let a : BitVec 4 := BitVec.ofNat 4 (bitsOf64 w 51 4)
    let b : BitVec 4 := BitVec.ofNat 4 (bitsOf64 w 47 4)
    let c : BitVec 4 := BitVec.ofNat 4 (bitsOf64 w 43 4)
    let d : BitVec 4 := BitVec.ofNat 4 (bitsOf64 w 39 4)
    let m : MacArgs := ⟨mp, a, b, c, d, x, y⟩
    if bitsOf64 w 0 13 ≠ 0 then none else
    match bitsOf64 w 57 5 with
    | 0 => some (.macPairNop l x y)
    | 1 => some (.mpy l m)
    | 2 => some (.mac l m)
    | 3 => some (.msu l m)
    | 4 => some (.macsu l m)
    | 5 => some (.clr l mp x y)
    | 6 => if b = 0 ∧ c = 0 ∧ d = 0 then some (.asr l mp a x y) else none
    | 7 => if b = 0 ∧ c = 0 ∧ d = 0 then some (.asl l mp a x y) else none
    | 8 => some (.lda l mp a c x y)
    | _ => none
  | _, _ => none

/-- The ALU and immediate format (R213, R214). -/
def decAlu (l : LaneId) (w : Word64) : Option Instr :=
  let rd := bitsOf64 w 50 6
  let ra := bitsOf64 w 44 6
  let rb := bitsOf64 w 38 6
  let imm := lo32 w
  let d : BitVec 4 := BitVec.ofNat 4 rd
  let a : BitVec 4 := BitVec.ofNat 4 ra
  let b : BitVec 4 := BitVec.ofNat 4 rb
  if bitsOf64 w 32 6 ≠ 0 then none else
  match bitsOf64 w 56 6 with
  | 0 => if ra = 0 ∧ rb = 0 then some (.ldi l (BitVec.ofNat 6 rd) imm) else none
  | 1 => if rb = 0 ∧ imm = 0 then some (.mov l (BitVec.ofNat 6 rd) (BitVec.ofNat 6 ra)) else none
  | op =>
    if 16 ≤ rd ∨ 16 ≤ ra ∨ 16 ≤ rb then none
    else
      let i1 : Bool := decide (rb = 0)
      let i2 : Bool := decide (imm = 0)
      match op with
      | 0x02 => if i2 then some (.add l d a b) else none
      | 0x03 => if i2 then some (.sub l d a b) else none
      | 0x04 => if i2 then some (.adds l d a b) else none
      | 0x05 => if i2 then some (.subs l d a b) else none
      | 0x06 => if i1 then some (.addi l d a imm) else none
      | 0x07 => if i2 then some (.and l d a b) else none
      | 0x08 => if i2 then some (.or l d a b) else none
      | 0x09 => if i2 then some (.xor l d a b) else none
      | 0x0A => if i1 then some (.shl l d a imm) else none
      | 0x0B => if i1 then some (.shls l d a imm) else none
      | 0x0C => if i1 then some (.shra l d a imm) else none
      | 0x0D => if i1 then some (.shrl l d a imm) else none
      | 0x0E => if i2 then some (.min l d a b) else none
      | 0x0F => if i2 then some (.max l d a b) else none
      | 0x10 => if i1 && i2 then some (.abss l d a) else none
      | 0x11 => if i1 && i2 then some (.negs l d a) else none
      | 0x12 => if i2 then some (.selneg l d a b) else none
      | 0x13 => if i2 then some (.selz l d a b) else none
      | 0x14 => if i1 then some (.clamp l d a imm) else none
      | _ => none

/-- The control format (R215). -/
def decCtl (l : LaneId) (w : Word64) : Option Instr :=
  let count := bitsOf64 w 42 16
  let target := bitsOf64 w 25 17
  let code := bitsOf64 w 17 8
  let t : BitVec 17 := BitVec.ofNat 17 target
  if bitsOf64 w 0 17 ≠ 0 then none else
  let none3 : Bool := decide (count = 0 ∧ target = 0 ∧ code = 0)
  match bitsOf64 w 58 4 with
  | 0x0 => if none3 then some (.cdspNop l) else none
  | 0x1 => if count = 0 ∧ code = 0 then some (.jmp l t) else none
  | 0x2 => if count = 0 ∧ code = 0 then some (.call l t) else none
  | 0x3 => if none3 then some (.ret l) else none
  | 0x4 => if code = 0 then some (.loop l (BitVec.ofNat 16 count) t) else none
  | 0x5 => if target = 0 ∧ code = 0 then some (.rep l (BitVec.ofNat 16 count)) else none
  | 0x6 => if none3 then some (.tend l) else none
  | 0x7 => if none3 then some (.rti l) else none
  | 0x8 => if count = 0 ∧ target = 0 then some (.dbell l (BitVec.ofNat 8 code)) else none
  | 0x9 => if none3 then some (.bkpt l) else none
  | _ => none

/-- An instruction word (R210). DEDUCED: log 67. -/
def decDsp (l : LaneId) (w : Word64) : Option Instr :=
  match bitsOf64 w 62 2 with
  | 0 => decPar l w
  | 1 => decAlu l w
  | 2 => decCtl l w
  | _ => none

/-- The issue of a decoded instruction; a command that is no CDSP instruction does nothing. -/
def dspRun (i : Instr) (s : State) : Host.Outcome State Fault Refusal :=
  match i with
  | .macPairNop l x y => execMacPairNop l x y s
  | .mpy l m => execMpy l m s
  | .mac l m => execMac l m s
  | .msu l m => execMsu l m s
  | .macsu l m => execMacsu l m s
  | .clr l mpair x y => execClr l mpair x y s
  | .asr l mpair count x y => execAsr l mpair count x y s
  | .asl l mpair count x y => execAsl l mpair count x y s
  | .lda l mpair mra mrc x y => execLda l mpair mra mrc x y s
  | .ldi l rdst imm => execLdi l rdst imm s
  | .mov l rdst rsa => execMov l rdst rsa s
  | .add l rd ra rb => execAdd l rd ra rb s
  | .sub l rd ra rb => execSub l rd ra rb s
  | .adds l rd ra rb => execAdds l rd ra rb s
  | .subs l rd ra rb => execSubs l rd ra rb s
  | .addi l rd ra imm => execAddi l rd ra imm s
  | .and l rd ra rb => execAnd l rd ra rb s
  | .or l rd ra rb => execOr l rd ra rb s
  | .xor l rd ra rb => execXor l rd ra rb s
  | .shl l rd ra imm => execShl l rd ra imm s
  | .shls l rd ra imm => execShls l rd ra imm s
  | .shra l rd ra imm => execShra l rd ra imm s
  | .shrl l rd ra imm => execShrl l rd ra imm s
  | .min l rd ra rb => execMin l rd ra rb s
  | .max l rd ra rb => execMax l rd ra rb s
  | .abss l rd ra => execAbss l rd ra s
  | .negs l rd ra => execNegs l rd ra s
  | .selneg l rd ra rb => execSelneg l rd ra rb s
  | .selz l rd ra rb => execSelz l rd ra rb s
  | .clamp l rd ra imm => execClamp l rd ra imm s
  | .cdspNop l => execCdspNop l s
  | .jmp l target => execJmp l target s
  | .call l target => execCall l target s
  | .ret l => execRet l s
  | .loop l count target => execLoop l count target s
  | .rep l count => execRep l count s
  | .tend l => execTend l s
  | .rti l => execRti l s
  | .dbell l code => execDbell l code s
  | .bkpt l => execBkpt l s
  | _ => .next s

/-- STEP of CDSP_DBG_CTL: while halted one instruction is fetched from P memory and issues (R209). A fetch that fails, and an
illegal word, end the task (R187, R193). -/
def execCdspStep (l : LaneId) (s : State) : Host.Outcome State Fault Refusal :=
  let L := s.lane l
  if L.live ∧ debugAllowed L ∧ L.b F.CDSP_STAT_HALTED ∧ (L.n F.CDSP_STAT_STATE = 1 ∨ L.n F.CDSP_STAT_STATE = 2) then
    let r := readD (pBase + 8 * (dspBank L).pc) (L.setB F.CDSP_STAT_HALTED false)
    let ill (A : Lane) : Host.Outcome State Fault Refusal := .next (s.setLane l ((illegal 0x02A A).setB F.CDSP_STAT_HALTED true))
    match r.1 with
    | none => ill r.2
    | some w =>
      match decDsp l w with
      | none => ill r.2
      | some i =>
        match dspRun i (s.setLane l r.2) with
        | .next t => .next (t.onLane l (fun A => (A.setB F.CDSP_STAT_HALTED true).setB F.CDSP_DBG_CTL_HALTED true))
        | o => o
  else .next s

end Sys2Proof.Machine
end

