-- ==== Sys2Proof/Machine/Fix.lean ====
section
/-! DEFINITION. The fixed-point operations of the loop engine and the motor engines (R219, R220): values with the flag that
says whether `sat` limited one on the way. -/

namespace Sys2Proof.Machine

/-- A Q1.31 value, and whether saturation limited it or a value it was formed from. -/
structure Q where
  v : Int
  f : Bool
deriving DecidableEq, Repr, Inhabited

/-- A value as read from a word. -/
def qOf (w : Word) : Q := ⟨w.toInt, false⟩
def qInt (x : Int) : Q := ⟨x, false⟩

/-- The value as a word. -/
def Q.w (q : Q) : Word := BitVec.ofInt 32 q.v

/-- sat of an exact value (R219). DEDUCED: log 73. -/
def qSat (f : Bool) (x : Int) : Q := ⟨sat32 x, f || !decide (sat32 x = x)⟩

/-- sat(a + b), sat(a - b). -/
def Q.add (a b : Q) : Q := qSat (a.f || b.f) (a.v + b.v)
def Q.sub (a b : Q) : Q := qSat (a.f || b.f) (a.v - b.v)

/-- mul(a, b): the product rounded half up (R219). -/
def Q.mul (a b : Q) : Q := qSat (a.f || b.f) ((a.v * b.v + 2 ^ 30) / 2 ^ 31)

/-- gain(c, s, x) (R219). -/
def qGain (c : Q) (s : Nat) (x : Q) : Q :=
  let m := c.mul x
  qSat m.f (m.v * 2 ^ s)

/-- clamp(x, lo, hi): no arithmetic saturation (R219, R220). -/
def Q.clamp (x : Q) (lo hi : Int) : Q := ⟨min (max x.v lo) hi, x.f⟩

/-- abs_s and the negation -x, saturating. -/
def Q.abs (x : Q) : Q := qSat x.f (x.v.natAbs : Int)
def Q.neg (x : Q) : Q := qSat x.f (-x.v)

/-- The value without its flag, where the flag is counted elsewhere. DEDUCED: log 73. -/
def Q.pure (x : Q) : Q := ⟨x.v, false⟩

end Sys2Proof.Machine
end

