-- ==== Sys2Proof/Machine/Lpe.lean ====
section
/-! DEFINITION. The loop engine: slot configuration, parameters and state in LPE memory, the control forms, model slots and
their residuals, mirrors and the parameter set of the current point (R219 to R241). -/

namespace Sys2Proof.Machine

/-- A slot's configuration record (R223). -/
structure SlotCfg where
  w0 : Word
  typ : Nat
  msrc : Nat
  msel : Nat
  spsrc : Nat
  spslot : Nat
  outdst : Nat
  outidx : Nat
  group : Nat
  pair : Nat
  rgrp : Nat
  deb : Nat
  satIrq : Bool
  satFlt : Bool
  staleChk : Bool
  msh : Nat
  moff : Word
  mscale : Word
deriving DecidableEq, Repr, Inhabited

def slotCfgOf (ws : List Word) : SlotCfg :=
  let w0 := nth ws 0 0
  let w1 := nth ws 1 0
  { w0 := w0, typ := bitsOf w0 0 4, msrc := bitsOf w0 4 2, msel := bitsOf w0 6 6, spsrc := bitsOf w0 12 2, spslot := bitsOf w0 14 6
    outdst := bitsOf w0 20 3, outidx := bitsOf w0 23 5, group := bitsOf w0 28 3, pair := bitsOf w1 0 6, rgrp := bitsOf w1 6 2
    deb := bitsOf w1 8 8, satIrq := bitAt w1 16, satFlt := bitAt w1 17, staleChk := bitAt w1 18, msh := bitsOf w1 19 4
    moff := nth ws 2 0, mscale := nth ws 3 0 }

/-- STATUS bits of a slot (R225). -/
def stArith : Nat := 0
def stClamp : Nat := 1
def stRate : Nat := 2
def stHold : Nat := 3
def stRamp : Nat := 4
def stActive : Nat := 5
def stArmed : Nat := 6
def stTrip : Nat := 7

/-- Set-point word of a slot (R221). -/
def slotSp (s : Nat) : Nat := lpeBase + 0xC00 + 4 * s

/-- The parameter set in use. -/
def lpeSet (L : Lane) : Nat := lpeBase + L.n F.LPE_PSEL_BASE

/-- What a slot reads at the start of its 16 cycles; none where a word cannot be delivered (R227, R39). DEDUCED: log 71. -/
structure SlotIn where
  cfg : SlotCfg
  prm : List Word
  enable : Bool
  st : List Word
  /-- raw measurement, set-point, and the state of the pair of a model slot -/
  raw : Word
  sp : Word
  yp : Word
  up : Word
  pairStat : Word
deriving DecidableEq, Repr, Inhabited

/-- The latest completed conversion of an ADC input as a measurement: the code in bits [30:17] (R228). -/
def adcRaw (L : Lane) (n : Nat) : Word := at' 17 (L.n (F.ADC_RESn_CODE n))

/-- Words read one range after the other; none where one cannot be delivered. -/
def readAll (rs : List (Nat × Nat)) (L : Lane) : Option (List (List Word)) × Lane :=
  match rs with
  | [] => (some [], L)
  | (a, n) :: rest =>
    match readWords a n L with
    | (none, L1) => (none, L1)
    | (some ws, L1) =>
      match readAll rest L1 with
      | (some more, L2) => (some (ws :: more), L2)
      | (none, L2) => (none, L2)

/-- The inputs of slot `s`. DEDUCED: log 71. -/
def slotRead (s : Nat) (L : Lane) : Option SlotIn × Lane :=
  match readWords (slotCfg s) 4 L with
  | (none, L1) => (none, L1)
  | (some cw, L1) =>
    let c := slotCfgOf cw
    let spA := if c.spsrc = 1 then slotSt c.spslot else slotSp s
    let model := decide (c.typ = 6 ∨ c.typ = 7)
    let mA := if c.msrc = 2 then slotSt c.msel else slotSt s
    match readAll [(lpeSet L + 4 * (s / 32), 1), (lpeSet L + 16 + 48 * s, 12), (slotSt s, 8), (spA, if model then 0 else 1),
        (mA, if c.msrc = 2 then 1 else 0), (slotSt c.pair, if model then 8 else 0)] L1 with
    | (none, L2) => (none, L2)
    | (some rs, L2) =>
      let pr := nth rs 5 []
      (some { cfg := c, prm := nth rs 1 [], enable := bitAt (nth (nth rs 0 []) 0 0) (s % 32), st := nth rs 2 []
              raw := if c.msrc = 1 then adcRaw L2 c.msel else if c.msrc = 2 then nth (nth rs 4 []) 0 0 else 0
              sp := nth (nth rs 3 []) 0 0, yp := nth pr 1 0, up := nth pr 0 0, pairStat := nth pr 6 0 }, L2)

/-- ARITH is set in a slot: a change from 0 to 1 counts, raises PLIC 56 and source 0x034 as configured (R220). -/
def setArith (s : Nat) (c : SlotCfg) (was : Bool) (L : Lane) : Lane :=
  if was then L
  else
    let L1 := (if s < 32 then L.setBit (F.LPE_SATn_SAT 0) s true else L.setBit (F.LPE_SATn_SAT 1) (s - 32) true).inc
      F.LPE_ERR_SAT_CNT
    let L2 := if c.satIrq then plicRaise 56 L1 else L1
    if c.satFlt then raise 0x034 L2 else L2

/-- What a control slot computes (R229, R230). -/
structure SlotOut where
  out : Q
  meas : Q
  reff : Q
  i : Q
  d : Q
  h : Q
  u1 : Q
  ramp : Bool
  hold : Bool
  clampd : Bool
  rate : Bool
  f : Bool
deriving DecidableEq, Repr, Inhabited

/-- Parameters C0 to C3, shifts, limits of a parameter record (R224). -/
def prmQ (p : List Word) (i : Nat) : Q := qOf (nth p i 0)
def prmSh (p : List Word) (k : Nat) : Nat := bitsOf (nth p 10 0) (4 * k) 4

/-- A control slot's state, ready for its run: after initialisation, from mirror words, or as the previous run left it
(R229, R235). -/
structure SlotPre where
  reff : Q
  i : Q
  d : Q
  h : Q
  u1 : Q
  ramp : Bool
deriving DecidableEq, Repr, Inhabited

/-- The set-point of the run: the soft-start ramp, or r itself (R229). -/
def rampStep (pre : SlotPre) (r ss : Q) : Q × Bool × Bool :=
  if pre.ramp then
    let dlt := r.sub pre.reff
    let n := pre.reff.add (dlt.clamp (-ss.v) ss.v)
    (n.pure, decide (n.v ≠ r.v), dlt.f || n.f)
  else (r, false, false)

/-- PI, PID and RATE_PI (R230). -/
def piForm (typ : Nat) (p : List Word) (pre : SlotPre) (y reff : Q) : SlotOut :=
  let lo := (prmQ p 4).v
  let hi := (prmQ p 5).v
  let e := reff.sub y
  let pp := qGain (prmQ p 0) (prmSh p 0) e
  let di := qGain (prmQ p 1) (prmSh p 1) e
  let dd := qGain (prmQ p 2) (prmSh p 2) (pre.h.sub y)
  let d1 := if typ = 2 then pre.d.add ((prmQ p 3).mul (dd.sub pre.d)) else pre.d
  let isum := pre.i.add di
  let inew := isum.clamp lo hi
  let v := (pp.add inew).add d1
  let wind := decide ((hi < v.v ∧ 0 < di.v) ∨ (v.v < lo ∧ di.v < 0))
  let i1 := if wind then pre.i else inew
  let v1 := if wind then (pp.add pre.i).add d1 else v
  let u := v1.clamp lo hi
  let rlim := (prmQ p 8).v
  let step := u.sub pre.u1
  let lim := decide (typ = 4) && decide (rlim < step.v ∨ step.v < -rlim)
  let back := lim && decide ((0 < step.v ∧ 0 < di.v) ∨ (step.v < 0 ∧ di.v < 0))
  let i2 := if back then pre.i else i1
  let u2 := if lim then pre.u1.add (step.clamp (-rlim) rlim) else u
  { out := u2, meas := y, reff := reff, i := i2, d := d1, h := y, u1 := u2, ramp := false, hold := wind || back
    clampd := decide (u.v ≠ v1.v), rate := lim
    f := e.f || pp.f || di.f || d1.f || isum.f || v.f || v1.f || (decide (typ = 4) && (step.f || u2.f)) }

/-- LEADLAG (R230). -/
def leadlagForm (p : List Word) (pre : SlotPre) (y reff : Q) : SlotOut :=
  let e := reff.sub y
  let v := ((qGain (prmQ p 0) (prmSh p 0) e).add (qGain (prmQ p 1) (prmSh p 1) pre.h)).sub
    (qGain (prmQ p 2) (prmSh p 2) pre.d)
  let u := v.clamp (prmQ p 4).v (prmQ p 5).v
  { out := u, meas := y, reff := reff, i := pre.i, d := u, h := e, u1 := u, ramp := false, hold := false
    clampd := decide (u.v ≠ v.v), rate := false, f := v.f }

/-- PASS (R229): without a ramp the effective set-point is r; U1 is the previous output, as of every control type (R225).
DEDUCED: log 72. -/
def passForm (p : List Word) (pre : SlotPre) (y r : Q) : SlotOut :=
  let u := r.clamp (prmQ p 4).v (prmQ p 5).v
  { out := u, meas := y, reff := r, i := pre.i, d := pre.d, h := pre.h, u1 := u, ramp := false, hold := false
    clampd := decide (u.v ≠ r.v), rate := false, f := false }

/-- The state from which a control slot runs (R229, R235): `fresh` says that it becomes active with initialisation.
DEDUCED: log 72. -/
def slotPre (typ : Nat) (fresh installed : Bool) (x : SlotIn) (y : Q) : SlotPre :=
  let q (k : Nat) : Q := qOf (nth x.st k 0)
  let init := prmQ x.prm 7
  if fresh then
    { reff := y, i := if typ = 3 then qInt 0 else init, d := if typ = 3 then init else qInt 0
      h := if typ = 3 then qInt 0 else y, u1 := init, ramp := decide ((prmQ x.prm 6).v ≠ 0) }
  else { reff := q 2, i := q 3, d := q 4, h := q 5, u1 := q 7, ramp := bitAt (nth x.st 6 0) stRamp && !installed }

/-- One run of an active control slot. DEDUCED: log 72. -/
def controlRun (fresh installed : Bool) (x : SlotIn) : SlotOut :=
  let c := x.cfg
  let dm := (qOf x.raw).sub (qOf x.cfg.moff)
  let ym := qGain (qOf c.mscale) c.msh dm
  let y := if c.msrc = 0 then qInt 0 else ym.pure
  let pre := slotPre c.typ fresh installed x y
  let r := qOf x.sp
  if c.typ = 5 then passForm x.prm pre y r
  else
    let rm := rampStep pre r (prmQ x.prm 6)
    let o := if c.typ = 3 then leadlagForm x.prm pre y rm.1 else piForm c.typ x.prm pre y rm.1
    { o with ramp := rm.2.1, f := o.f || ym.f || rm.2.2 }

/-- Flags into STATUS: sticky ones stay set (R220, R225). -/
def statFlags (old : Word) (o : SlotOut) : Word :=
  let b (w : Word) (i : Nat) (v : Bool) : Word := if v then Machine.setBit w i true else w
  Machine.setBit (Machine.setBit (b (b (b (b old stArith o.f) stClamp o.clampd) stRate o.rate) stHold o.hold) stRamp o.ramp)
    stActive true

/-- OUT and state words of a control slot written at the end of its run. -/
def controlWrite (s : Nat) (x : SlotIn) (o : SlotOut) (L : Lane) : Lane :=
  let a := slotSt s
  let old := nth x.st 6 0
  let L1 := (writeWords a [o.out.w, o.meas.w, o.reff.w, o.i.w, o.d.w, o.h.w, statFlags old o, o.u1.w] L).2
  let L2 := setSlotAct s true L1
  let L3 := if o.f then setArith s x.cfg (bitAt old stArith) L2 else L2
  outDeliver x.cfg.w0 o.out.w L3

/-- The freshness check of a slot (R228): a stale input is used and raises 0x035. DEDUCED: log 71. -/
def staleCheck (s : Nat) (c : SlotCfg) (L : Lane) : Lane :=
  if c.msrc = 1 ∧ c.staleChk then
    let n := nth L.lpe.conv c.msel 0
    if nth L.lpe.seen s 0 = n then raise 0x035 (L.inc F.LPE_ERR_STALE_CNT)
    else { L with lpe := { L.lpe with seen := setNth L.lpe.seen s n } }
  else L

/-- A trip of a model slot (R233). -/
def slotTrip (s : Nat) (c : SlotCfg) (L : Lane) : Lane :=
  let L1 := (if s < 32 then L.setBit (F.LPE_TRIPn_TRIP 0) s true else L.setBit (F.LPE_TRIPn_TRIP 1) (s - 32) true).inc
    F.LPE_ERR_TRIP_CNT
  cdspIrq 6 (plicRaise 57 (raise (0x030 + c.rgrp) L1))

/-- One run of an active model slot (R232, R233). -/
def modelRun (s : Nat) (x : SlotIn) (L : Lane) : Lane :=
  let c := x.cfg
  let p := x.prm
  let q (k : Nat) : Q := qOf (nth x.st k 0)
  let old := nth x.st 6 0
  let yp := qOf x.yp
  let up := qOf x.up
  let pairOn := bitAt x.pairStat stActive && !bitAt x.pairStat stRamp
  let armed0 := bitAt old stArmed
  let deb0 := bitsOf old 8 8
  let res := yp.sub (q 3)
  let mag := res.abs
  let run := pairOn && armed0
  let x1 := if run then q 3 else yp
  let x2 := if run then q 4 else qInt 0
  let deb := if run then (if (prmQ p 9).v < mag.v then min (deb0 + 1) 255 else deb0 - 1) else if pairOn then deb0 else 0
  let r := if run then res else qInt 0
  let fq := (qGain (prmQ p 0) (prmSh p 0) up).sub x1
  let x1n := if c.typ = 6 then x1.add ((prmQ p 1).mul fq) else x1.add ((prmQ p 1).mul x2)
  let x2n := (x2.add ((prmQ p 1).mul fq)).sub ((prmQ p 2).mul x2)
  let nx1 := if pairOn then x1n else x1
  let nx2 := if pairOn ∧ c.typ = 7 then x2n else x2
  let f := (run && (res.f || mag.f)) || (pairOn && (fq.f || x1n.f || (decide (c.typ = 7) && x2n.f)))
  let trip := run && decide (deb0 + 1 = c.deb ∧ deb = c.deb)
  let st1 := (old &&& 0xFFFF00BF) ||| at' 8 deb ||| at' stArmed (b2n pairOn) ||| at' stActive 1 |||
    (if f then 1 else 0) ||| at' stTrip (b2n trip)
  let L1 := setSlotAct s true (writeWords (slotSt s) [nx1.w, yp.w, 0, nx1.w, nx2.w, r.w, st1, 0] L).2
  let L2 := if f then setArith s c (bitAt old stArith) L1 else L1
  let L3 := outDeliver c.w0 nx1.w L2
  if trip then slotTrip s c L3 else L3

/-- Slot `s` among the slots that were standby when group `g` was gained (R235). -/
def slotGained (s g : Nat) (L : Lane) : Bool := decide (g < 4) && (nth L.lpe.gain g 0).getLsbD s && L.lpe.mirSet.getLsbD g

/-- The slot has run, or was found disabled: it starts with initialisation from now on (R229, R235). -/
def slotStarted (s g : Nat) (L : Lane) : Lane :=
  { L with lpe := { L.lpe with gain := setNth L.lpe.gain g (nth L.lpe.gain g 0 &&& ~~~ BitVec.ofNat 64 (2 ^ s)) } }

/-- The lane has gained group `g`: the slots enabled in the current parameter set are those that were standby (R235).
DEDUCED: log 72. -/
def lpeGain (g : Nat) (L : Lane) : Lane :=
  match readWords (lpeSet L) 2 L with
  | (some ws, L1) => { L1 with lpe := { L1.lpe with gain := setNth L1.lpe.gain g (cat64 (nth ws 1 0) (nth ws 0 0)) } }
  | (none, L1) => { L1 with lpe := { L1.lpe with gain := setNth L1.lpe.gain g 0 } }

/-- One slot's 16 cycles (R226 to R236). A slot that cannot read a word is skipped (R39). A reaction that the slot's own run
causes forces it off at the slot boundary, after its output (R236). DEDUCED: log 72. -/
def slotRun (s : Nat) (L : Lane) : Lane :=
  match slotRead s (L.putN F.LPE_STAT_SLOT s) with
  | (none, L1) => L1.inc F.LPE_ERR_MEM_CNT
  | (some x, L1) =>
    let c := x.cfg
    let own := decide (4 ≤ c.group) || L1.b (F.DEI_GRPg_STAT_OWN c.group)
    let on := x.enable && decide (c.typ ≠ 0) && !L1.b F.LPE_STAT_FORCED_OFF
    if on && own then
      let installed := !slotAct s L1 && slotGained s c.group L1
      let fresh := !slotAct s L1 && !installed
      let L2 := slotStarted s c.group (staleCheck s c L1)
      let L3 := if c.typ = 6 ∨ c.typ = 7 then modelRun s x L2 else controlWrite s x (controlRun fresh installed x) L2
      if L3.b F.LPE_STAT_FORCED_OFF then settle (slotStop s L3) else L3
    else settle (slotStop s (if on then L1 else slotStarted s c.group L1))

/-- A run of slots in ascending order (R226). -/
def lpeRun (first n : Nat) (L : Lane) : Lane := forEach ((List.range n).map (fun k => first + k)) slotRun L

/-- The parameter set of the point that is entered (R224): L_DST of its table set. DEDUCED: log 71. -/
def lpeSelect (L : Lane) : Lane :=
  L.putN F.LPE_PSEL_BASE (bitsOf (imgWord L ((curRec L).tableOff + 16)) 0 16)

/-- STATUS of a slot changed, where it can be read (R39). -/
def slotStatus (s : Nat) (f : Word → Word) (L : Lane) : Lane :=
  match readW (slotSt s + 24) L with
  | (some w, L1) => (writeW (slotSt s + 24) (f w) L1).2
  | (none, L1) => L1

/-- A write to LPE_SATn: ARITH of the slots named clears, with CLAMP, RATE and HOLD (R220). -/
def lpeSat (n : Nat) (val : Word) (L : Lane) : Lane :=
  forEach (List.range 32) (fun b a =>
    if bitAt val b then slotStatus (32 * n + b) (fun w => w &&& 0xFFFFFFF0) a else a) (L.clrF (F.LPE_SATn_SAT n) val)
def execLpeSat (l : LaneId) (n : Fin 2) (val : Word) (s : State) : Host.Outcome State Fault Refusal :=
  .next (s.onLane l (whenLive (lpeSat n.val val)))

/-- A write to LPE_TRIPn: TRIP of the slots named clears, with DEBCNT (R233). -/
def lpeTripClr (n : Nat) (val : Word) (L : Lane) : Lane :=
  forEach (List.range 32) (fun b a =>
    if bitAt val b then slotStatus (32 * n + b) (fun w => w &&& 0xFFFF007F) a else a) (L.clrF (F.LPE_TRIPn_TRIP n) val)
def execLpeTrip (l : LaneId) (n : Fin 2) (val : Word) (s : State) : Host.Outcome State Fault Refusal :=
  .next (s.onLane l (whenLive (lpeTripClr n.val val)))

def lpeErrFlds : List Fld := [F.LPE_ERR_STALE_CNT, F.LPE_ERR_MEM_CNT, F.LPE_ERR_TRIP_CNT, F.LPE_ERR_SAT_CNT]
def execLpeErrClr (l : LaneId) (val : Word) (s : State) : Host.Outcome State Fault Refusal :=
  .next (s.onLane l (whenLive (clearBy lpeErrFlds val)))

end Sys2Proof.Machine
end

