-- ==== Sys2Proof/Machine/Pwm.lean ====
section
/-! DEFINITION. PWM generators with their commits, valve drives, the drive-enable interlock, the brake chopper, GPIO and the
gate-driver SPI (R273 to R305). -/

namespace Sys2Proof.Machine

/-- A generator's part beside its registers, and its replacement. -/
def genOf (L : Lane) (n : Nat) : PwmGen := nth L.out.pwm n default
def setGen (n : Nat) (g : PwmGen) (L : Lane) : Lane := { L with out := { L.out with pwm := setNth L.out.pwm n g } }

/-- The shadow registers of a generator. -/
def shadowOf (n : Nat) (L : Lane) : PwmStage :=
  { per := L.n (F.PWMn_PER_PER n), presc := L.n (F.PWMn_PER_PRESC n)
    cmp := (List.range 6).map (fun k => L.n (F.PWMn_CMPk_CMP n k))
    ch := if n = 2 then (List.range 8).map (fun k => L.n (F.PWM2_CHk_CH k)) else List.replicate 8 0 }

/-- Channels of the configured valve groups. -/
def groupChans (L : Lane) : List Nat :=
  (List.range 8).filter (fun k => (List.range 4).any (fun g => L.bit (F.DEI_GRPg_CTL_CHMASK g) k))

/-- The valve group of a channel. -/
def groupOf (L : Lane) (k : Nat) : Option Nat := (List.range 4).find? (fun g => L.bit (F.DEI_GRPg_CTL_CHMASK g) k)

/-- The written-since-commit bits of the output compares (R280). -/
def outWsc (n : Nat) (L : Lane) : List Bool :=
  if n = 2 then (groupChans L).map (fun k => L.bit (F.PWMn_WSC_CH 2) k)
  else (List.range 3).map (fun k => L.bit (F.PWMn_WSC_CMP n) k)

/-- A period within R274. DEDUCED: log 77. -/
def rangeOkPwm (x : PwmStage) : Bool :=
  decide (2 ≤ x.per ∧ 4000 ≤ x.per * (x.presc + 1) ∧ x.per * (x.presc + 1) ≤ 50000)

/-- STRICT allows the commit (R280). DEDUCED: log 77. -/
def strictOk (n : Nat) (L : Lane) : Bool :=
  let bs := outWsc n L
  if L.b (F.PWMn_WSC_PER n) then bs.all id else bs.all id || bs.all (fun b => !b)

/-- A refused commit: its flag, its count, source 0x0A0 + n (R280). -/
def commitRefuse (n : Nat) (flag : Fld) (L : Lane) : Lane :=
  raise (0x0A0 + n) ((L.setB flag true).inc (F.PWMn_ERR_REF_CNT n))

/-- A compare rescaled to a new period (R281). -/
def rescale (c perOld perNew : Nat) : Nat := min ((c * perNew + perOld / 2) / perOld) perNew

/-- The output compares that SCALED rescales: those not written while the period was (R281). DEDUCED: log 77. -/
def scaleShadow (n : Nat) (L : Lane) : Lane :=
  let g := genOf L n
  let perNew := L.n (F.PWMn_PER_PER n)
  if L.b (F.PWMn_CFG_PAIRING n) && L.b (F.PWMn_WSC_PER n) then
    if n = 2 then
      forEach (groupChans L) (fun k a =>
        if a.bit (F.PWMn_WSC_CH 2) k then a
        else a.putN (F.PWM2_CHk_CH k) (rescale (nth g.refCh k 0) g.com.per perNew)) L
    else
      forEach (List.range 3) (fun k a =>
        if a.bit (F.PWMn_WSC_CMP n) k then a
        else a.putN (F.PWMn_CMPk_CMP n k) (rescale (nth g.com.cmp k 0) g.com.per perNew)) L
  else L

/-- A commit by the owner (R279 to R281). DEDUCED: log 77. -/
def commitOp (n : Nat) (L : Lane) : Lane :=
  if !rangeOkPwm (shadowOf n L) then commitRefuse n (F.PWMn_STAT_RANGE_ERR n) L
  else if !L.b (F.PWMn_CFG_PAIRING n) && !strictOk n L then commitRefuse n (F.PWMn_STAT_PAIR_ERR n) L
  else
    let L1 := scaleShadow n L
    let x := shadowOf n L1
    let L2 := setGen n { genOf L1 n with com := x, refCh := x.ch } L1
    let L3 := if L2.b (F.PWMn_STAT_PENDING n) then L2.inc (F.PWMn_ERR_SUP_CNT n) else L2
    (((L3.putN (F.PWMn_WSC_CH n) 0).putN (F.PWMn_WSC_CMP n) 0).putN (F.PWMn_WSC_PER n) 0).setB (F.PWMn_STAT_PENDING n) true

/-- A core's write of COMMIT: ignored and counted while SRC = 1 (R277). DEDUCED: log 77. -/
def coreCommit (n : Nat) (L : Lane) : Lane :=
  if L.b (F.PWMn_CFG_SRC n) then L.inc (F.PWMn_ERR_IGN_CNT n) else commitOp n L
def execCommit (l : LaneId) (n : Fin 3) (s : State) : Host.Outcome State Fault Refusal :=
  .next (s.onLane l (whenLive (coreCommit n.val)))

/-- The output pins whose GPIO_TRG code names trigger line `n` (R302). -/
def trgPins (n : Nat) (L : Lane) : BitVec 8 :=
  (List.range 8).foldl (fun p k =>
    if L.bit F.GPIO_DIR_DIR k && decide (bitsOf (L.fld F.GPIO_TRG_TRG) (4 * k) 4 = n + 1) then p ||| BitVec.ofNat 8 (2 ^ k) else p) 0

/-- A trigger line pulses: output pins that it drives change over for 100 ns, and a gate-driver frame that waits for it may start
(R276, R302, R303). DEDUCED: log 80. -/
def trgPulse (n : Nat) (L0 : Lane) : Lane :=
  let L := { L0 with out := { L0.out with pulse := L0.out.pulse ||| trgPins n L0 } }
  if L.b F.GPIO_SPI_CFG_EN && decide (L.n F.GPIO_SPI_CFG_TRG = n + 1) && decide (L.out.spiTx ≠ []) then
    { L with out := { L.out with spiTrig := true } }
  else L

/-- Event bit `i` of generator `n`: 0 ZERO, 1 PERIOD, 2 + k CMPk (R276). -/
def pwmEvent (n i : Nat) (L : Lane) : Lane :=
  let L1 := eventBits (F.PWMn_EVSTAT_EV n) (L.fld (F.PWMn_EVCFG_IRQ n)) (fun _ => some (60 + n)) (toW (2 ^ i)) L
  if L1.bit (F.PWMn_EVCFG_TRG n) i then trgPulse n L1 else L1

/-- A debug halt of a core or the CDSP, or a TLS halt by a cross-lane request (R283, order 2). -/
def debugHalted (L : Lane) : Bool :=
  L.core0.halted || L.core1.halted || L.b F.CDSP_STAT_HALTED || L.lsm.tlsHalt

/-- The clock of the motor/PWM island runs. -/
def motRuns (L : Lane) : Bool := L.live && !L.out.motStopped

/-- The mode in which every switch is off: DORMANT and STARTUP (R58). -/
def switchesOff (L : Lane) : Bool := decide (L.n F.TLS_MS_STAT_MODE ≤ 1)

/-- Orders 1 to 3 of R283: the balls of generator `n` are held at SAFE. A reaction is in force until the lane is a member again;
a lane excluded without one holds the same levels, but for a late lane that drives nothing yet (R161, R163).
DEDUCED: log 81. -/
def safeAct (n : Nat) (L : Lane) : Bool :=
  L.b F.PWM_MON_CLKSTOP || debugHalted L || (genOf L n).hold || L.b F.LSM_STAT_SAFE || L.b F.LSM_STAT_IMM ||
    (L.b F.CLV_STAT_EXCL && !switchesOff L)

/-- The mode point lets group `g` drive (R288). -/
def driveSet (L : Lane) (g : Nat) : Bool :=
  Nat.testBit (curRec L).driveSet (2 + g) &&
    (match L.n F.TLS_MS_STAT_MODE with
     | 0 => false
     | 1 => inServiceHold L
     | _ => true)

/-- A channel is to be enabled (R288). DEDUCED: log 78. -/
def chanOn (L : Lane) (k : Nat) : Bool :=
  match groupOf L k with
  | none => false
  | some g =>
    L.b (F.DEI_GRPg_STAT_OWN g) && driveSet L g && !L.b (F.VDU_CHk_STAT_OC k) && L.b (F.PWMn_CFG_EN 2)

/-- The enables of every channel formed anew (R288). DEDUCED: log 78. -/
def vduEnable (L : Lane) : Lane :=
  forEach (List.range 4) showDrive (forEach (List.range 8) (fun k a => a.setB (F.VDU_CHk_STAT_EN k) (chanOn a k)) L)

/-- The compare of a duty for a period (R288). -/
def dutyCmp (d : Word) (per : Nat) : Nat := (d.toNat * per + 2 ^ 30) / 2 ^ 31

/-- A demand limited to a channel's largest duty (R288). -/
def chanDuty (L : Lane) (k : Nat) (sp : Word) : Word :=
  BitVec.ofInt 32 (min (max sp.toInt 0) (max (L.fld (F.VDU_CHk_DMAX_DMAX k)).toInt 0))

/-- A VDU_UPDATE of the channels of a mask: duties, channel compares and a commit, as owner of PWM2 (R277, R288).
DEDUCED: log 77. -/
def vduUpdate (mask : Nat) (L : Lane) : Lane :=
  let L1 := forEach (List.range 8) (fun k a =>
    if mask.testBit k then
      let d := chanDuty a k (a.fld (F.VDU_CHk_SP_SP k))
      let a1 := { a with out := { a.out with duty := setNth a.out.duty k d } }
      if a1.b (F.PWMn_CFG_SRC 2) then
        (a1.putN (F.PWM2_CHk_CH k) (dutyCmp d (a1.n (F.PWMn_PER_PER 2)))).setBit (F.PWMn_WSC_CH 2) k true
      else a1
    else a) L
  if L1.b (F.PWMn_CFG_SRC 2) then commitOp 2 L1 else L1

/-- The high side of a pair is logically on `x` motor-island cycles after the reload: the turn-on is delayed by the dead time,
unless the side was on at the end of the period before; an on-time of at most the dead time keeps it off (R275). -/
def hiOn (per presc dt cmp x : Nat) (was : Bool) : Bool :=
  let k := presc + 1
  if cmp = 0 then false
  else if per ≤ cmp then was || decide (dt ≤ x)
  else decide (dt < cmp * k ∧ x < cmp * k) && (was || decide (dt ≤ x))

/-- The low side of a pair, in a period of `len` counts (R275). -/
def loOn (per presc dt cmp len x : Nat) (was : Bool) : Bool :=
  let k := presc + 1
  if per ≤ cmp then false
  else if cmp = 0 then was || decide (dt ≤ x)
  else decide (cmp * k + dt < len * k ∧ cmp * k + dt ≤ x)

/-- Output `i` of generator `n` is logically on `x` motor-island cycles after the reload: orders 4 to 8 of R283, with every motor
switch off in DORMANT and STARTUP (R58). DEDUCED: log 81. -/
def outOn (n i x : Nat) (L : Lane) : Bool :=
  let g := genOf L n
  if !L.b (F.PWMn_CFG_EN n) then false
  else if n ≠ 2 && switchesOff L then false
  else if n = 2 then L.b (F.VDU_CHk_STAT_EN i) && decide (x / (g.act.presc + 1) < L.n (F.VDU_CHk_STAT_CH i))
  else
    match L.n (F.MEe_STAT_REGIME n) with
    | 0 | 1 | 8 => false
    | 7 => if L.n (F.MEe_STAT_SAFE n) = 0 then decide (i % 2 = 1) else decide (i % 2 = 0)
    | _ =>
      let cmp := nth g.act.cmp (i / 2) 0
      let dt := L.n (F.PWMn_OUT_DT n)
      let was := g.endOn.getLsbD i
      if i % 2 = 0 then hiOn g.act.per g.act.presc dt cmp x was else loOn g.act.per g.act.presc dt cmp g.curPer x was

/-- Motor-island cycles since the latest reload of a generator (R274). -/
def pwmPos (n : Nat) (L : Lane) : Nat := L.n (F.PWMn_CNT_CNT n) * ((genOf L n).act.presc + 1) + (genOf L n).sub

/-- The counter of a generator takes a count. -/
def setCount (n c : Nat) (L : Lane) : Lane := setGen n { genOf L n with sub := 0 } (L.putN (F.PWMn_CNT_CNT n) c)

/-- Outputs that are on in the last cycle of the period (R275). -/
def endOutputs (n : Nat) (L : Lane) : BitVec 8 :=
  let g := genOf L n
  (List.range 6).foldl (fun w i =>
    if outOn n i (g.curPer * (g.act.presc + 1) - 1) L then w ||| BitVec.ofNat 8 (2 ^ i) else w) 0

/-- A reload edge (R274, R279): ZERO, a pending commit consumed, CUR_EPOCH stepped. DEDUCED: log 76. -/
def reload (n : Nat) (L : Lane) : Lane :=
  let g := genOf L n
  let used := L.b (F.PWMn_STAT_PENDING n)
  let act := if used then g.com else g.act
  let L1 := setGen n { g with
    act := act, curPer := (g.nextPer.getD act.per), nextPer := none, endOn := endOutputs n L
    hold := if used ∧ ¬ debugHalted L then false else g.hold } L
  let L2 := (setCount n 0 L1).incMod (F.PWMn_STAT_CUR_EPOCH n)
  let L3 := if used then
      (L2.setB (F.PWMn_STAT_PENDING n) false).putN (F.PWMn_STAT_LAST_EPOCH n) (L2.n (F.PWMn_STAT_CUR_EPOCH n))
    else L2
  let L4 := if n = 2 ∧ used then forEach (List.range 8) (fun k a => a.putN (F.VDU_CHk_STAT_CH k) (nth act.ch k 0)) L3 else L3
  pwmEvent n 0 L4
def execPwmReload (l : LaneId) (n : Fin 3) (s : State) : Host.Outcome State Fault Refusal :=
  .next (s.onLane l (fun L => if motRuns L && L.b (F.PWMn_CFG_EN n.val) then reload n.val L else L))

def execPwmPeriodEvent (l : LaneId) (n : Fin 3) (s : State) : Host.Outcome State Fault Refusal :=
  .next (s.onLane l (fun L =>
    if motRuns L && L.b (F.PWMn_CFG_EN n.val) then
      pwmEvent n.val 1 (setCount n.val ((genOf L n.val).curPer - 1) L)
    else L))

/-- The counter takes the value of active CMPk, below PER and within the current period (R276, R282). DEDUCED: log 76. -/
def compareEvent (n k : Nat) (L : Lane) : Lane :=
  let g := genOf L n
  let c := nth g.act.cmp k 0
  if c < g.act.per ∧ c < g.curPer then pwmEvent n (2 + k) (setCount n c L) else L
def execPwmCompareEvent (l : LaneId) (n : Fin 3) (k : Fin 6) (s : State) : Host.Outcome State Fault Refusal :=
  .next (s.onLane l (fun L => if motRuns L && L.b (F.PWMn_CFG_EN n.val) then compareEvent n.val k.val L else L))

/-- EN set or cleared (R274): the first edge with EN = 1 is a reload edge. -/
def setEn (n : Nat) (v : Bool) (L : Lane) : Lane :=
  let was := L.b (F.PWMn_CFG_EN n)
  let L1 := L.setB (F.PWMn_CFG_EN n) v
  let idle (A : Lane) : Lane :=
    setGen n { genOf A n with curPer := (genOf A n).act.per, nextPer := none, endOn := 0 } (setCount n 0 A)
  let L2 := if v && !was then (let R := reload n L1; setGen n { genOf R n with endOn := 0 } R)
    else if !v && was then idle L1
    else L1
  if n = 2 then vduEnable L2 else L2
def execPwmEnable (l : LaneId) (n : Fin 3) (s : State) : Host.Outcome State Fault Refusal :=
  .next (s.onLane l (fun L => if motRuns L then setEn n.val true L else L))

/-- Outputs of a generator: six or eight (R273). -/
def outCount (n : Nat) : Nat := if n = 2 then 8 else 6

/-- The lane is released; before that its output balls are low, or high-impedance without supply (R474). DEDUCED: log 81. -/
def released (L : Lane) : Bool := decide (L.pwr.phase = .run ∨ L.pwr.phase = .dormant ∨ L.pwr.phase = .waking)

/-- The level of ball `i` of generator `n` (R283, R474). DEDUCED: log 81. -/
def ballLevel (n i : Nat) (L : Lane) : Bool :=
  if !released L then false
  else if safeAct n L then L.bit (F.PWMn_OUT_SAFE n) i else outOn n i (pwmPos n L) L ^^ L.bit (F.PWMn_OUT_POL n) i

/-- x_SAFE: every PWM, valve and gate output is at its safe level, or the monitor has found the clock stopped; in reset and without
supply it reads asserted (R172, R286, R475). -/
def ballSafe (L : Lane) : Bool :=
  !released L || L.b F.PWM_MON_CLKSTOP || (!L.b F.CHP_STAT_GATE &&
    (List.range 3).all (fun n => (List.range (outCount n)).all (fun i => ballLevel n i L == L.bit (F.PWMn_OUT_SAFE n) i)))

/-- A PWM_ALIGN action: `c` is the counter and `count` the TLS count on the issue edge (R282). DEDUCED: log 76. -/
def pwmAlign (n c count : Nat) (L : Lane) : Lane :=
  if !L.b (F.PWMn_CFG_EN n) then L
  else
    let g := genOf L n
    let per := g.act.per
    let o := count / (g.act.presc + 1) % per
    let e : Int := ((c : Int) - o + (per / 2 : Nat)) % per - (per / 2 : Nat)
    let tol := L.n (F.PWMn_ALIGN_TOL n)
    let slew : Int := L.n (F.PWMn_ALIGN_SLEW n)
    let out := decide (tol < e.natAbs)
    let was := L.b (F.PWMn_STAT_ALIGNED n)
    let L1 := (setCount n c L).put (F.PWMn_ALIGN_ERR n) (toW (BitVec.ofInt 16 e).toNat)
    let L2 := if out then L1.inc (F.PWMn_ERR_ALIGN_CNT n) else L1
    let L3 := if !was && (List.range (outCount n)).all (fun i => !outOn n i (c * (g.act.presc + 1)) L) then
        (setCount n o L2).setB (F.PWMn_STAT_ALIGNED n) true
      else
        let L3 := setGen n { genOf L2 n with nextPer := some ((per : Int) + min (max e (-slew)) slew).toNat } L2
        if out then L3 else L3.setB (F.PWMn_STAT_ALIGNED n) true
    let run := if was && out then g.alignRun + 1 else 0
    if run = 4 then
      raise (0x0A3 + n) ((setGen n { genOf L3 n with alignRun := 0 } L3).setB (F.PWMn_STAT_ALIGNED n) false)
    else setGen n { genOf L3 n with alignRun := run } L3

/-- No motor-island clock edge for 1 us while the MOT domain is ON: balls at SAFE, chopper gate off, CLKSTOP (R286). -/
def clkStop (L : Lane) : Lane :=
  if L.live && L.bit F.AOS_STAT_ON 2 then
    let L1 := (L.setB F.PWM_MON_CLKSTOP true).setB F.CHP_STAT_GATE false
    { L1 with out := { L1.out with motStopped := true } }
  else L
def execClkstop (l : LaneId) (s : State) : Host.Outcome State Fault Refusal := .next (s.onLane l clkStop)

/-- The clock returns after a stop (R286). -/
def clkBack (L : Lane) : Lane :=
  if L.live && L.out.motStopped then raise 0x0A6 { L with out := { L.out with motStopped := false } } else L
def execPwmClkStop (l : LaneId) (s : State) : Host.Outcome State Fault Refusal := .next (s.onLane l clkBack)

def pwmErrFlds (n : Nat) : List Fld :=
  [F.PWMn_ERR_REF_CNT n, F.PWMn_ERR_SUP_CNT n, F.PWMn_ERR_ALIGN_CNT n, F.PWMn_ERR_IGN_CNT n]
def execPwmErrClr (l : LaneId) (n : Fin 3) (val : Word) (s : State) : Host.Outcome State Fault Refusal :=
  .next (s.onLane l (whenLive (clearBy (pwmErrFlds n.val) val)))

/-- OC of a channel clears, and its count of codes restarts (R289). DEDUCED: log 78. -/
def ocClear (k : Nat) (L : Lane) : Lane :=
  if L.b (F.VDU_CHk_STAT_OC k) then
    let L1 := L.setB (F.VDU_CHk_STAT_OC k) false
    { L1 with out := { L1.out with ocRun := setNth L1.out.ocRun k 0 } }
  else L
def execVduOcClear (l : LaneId) (k : Fin 8) (s : State) : Host.Outcome State Fault Refusal :=
  .next (s.onLane l (whenLive (fun L => vduEnable (ocClear k.val L))))

/-- A completed conversion of channel `k`'s input (R289). DEDUCED: log 78. -/
def vduConversion (k code : Nat) (L : Lane) : Lane :=
  if L.b (F.VDU_CHk_CFG_ILIM_EN k) && !L.b (F.VDU_CHk_STAT_OC k) && decide (L.n (F.VDU_CHk_CFG_ILIM k) < code) then
    let c := nth L.out.ocRun k 0 + 1
    let L1 := { L with out := { L.out with ocRun := setNth L.out.ocRun k c } }
    if 2 ≤ c then
      plicRaise 63 (raise 0x0A8 ((vduEnable (L1.setB (F.VDU_CHk_STAT_OC k) true)).inc F.VDU_ERR_OC_CNT))
    else L1
  else { L with out := { L.out with ocRun := setNth L.out.ocRun k 0 } }

def execVduErrClr (l : LaneId) (val : Word) (s : State) : Host.Outcome State Fault Refusal :=
  .next (s.onLane l (whenLive (clearBy [F.VDU_ERR_OC_CNT] val)))

def deiErrFlds (g : Nat) : List Fld :=
  [F.DEI_GRPg_ERR_CONF_CNT g, F.DEI_GRPg_ERR_MIR_ERR_CNT g, F.DEI_GRPg_ERR_TAKE_CNT g, F.DEI_GRPg_ERR_COLL_CNT g]
def execDeiErrClr (l : LaneId) (val : Word) (s : State) : Host.Outcome State Fault Refusal :=
  .next (s.onLane l (whenLive (clearBy ((List.range 4).flatMap deiErrFlds) val)))

def execChpErrClr (l : LaneId) (val : Word) (s : State) : Host.Outcome State Fault Refusal :=
  .next (s.onLane l (whenLive (clearBy [F.CHP_STAT_ON_CNT] val)))

/-- Group `g` is configured. -/
def grpCfg (L : Lane) (g : Nat) : Bool := decide (L.n (F.DEI_GRPg_CTL_CHMASK g) ≠ 0)

/-- A lane that may claim: a member, not excluded, without a reaction EXCLUDE_LANE or IMMEDIATE_SAFE in force, not the failing
lane of an unresolved duplex (R174, R293). -/
def mayClaim (L : Lane) : Bool :=
  inSet L.clv.members L.id && !L.b F.CLV_STAT_EXCL && !L.b F.LSM_STAT_SAFE && !L.b F.LSM_STAT_IMM && !L.clv.barred

/-- Claims of the other lanes for group `g`. -/
def otherClaims (L : Lane) (g : Nat) : Bool :=
  decide (L.n (F.DEI_GRPg_STAT_CLAIMS g) &&& (7 - 2 ^ laneNo L.id) ≠ 0)

/-- The own claim for a group is asserted. -/
def ownClaim (L : Lane) (g : Nat) : Bool := L.bit (F.DEI_GRPg_STAT_CLAIMS g) (laneNo L.id)

/-- STATE of a group that this lane does not attempt. -/
def standState (L : Lane) (g : Nat) : Nat := if grpCfg L g && inSet L.clv.members L.id then 1 else 0

/-- An attempt is wanted: it starts where R293 allows, else it waits or is given up. DEDUCED: log 79. -/
def tryClaim (g : Nat) (L : Lane) : Lane :=
  let G := grpOf L g
  if L.b (F.DEI_GRPg_STAT_OWN g) || ownClaim L g || !mayClaim L || !grpCfg L g ||
      decide (L.n (F.DEI_GRPg_STAT_OWNER g) ≠ 3) then
    let L1 := setGrp g { G with want := false } L
    if L.b (F.DEI_GRPg_STAT_OWN g) || ownClaim L g then L1 else L1.putN (F.DEI_GRPg_STAT_STATE g) (standState L g)
  else if otherClaims L g then (setGrp g { G with want := true } L).putN (F.DEI_GRPg_STAT_STATE g) 2
  else
    ((setGrp g { G with want := false, second := false } L).setBit (F.DEI_GRPg_STAT_CLAIMS g) (laneNo L.id) true).putN
      (F.DEI_GRPg_STAT_STATE g) 3

def execClaimAttempt (l : LaneId) (g : Fin 4) (s : State) : Host.Outcome State Fault Refusal :=
  .next (s.onLane l (whenLive (fun L => if (grpOf L g.val).want then tryClaim g.val L else L)))

/-- A lane has become owner of group `g` (R288, R293, R296). DEDUCED: log 79. -/
def gainGroup (g : Nat) (L : Lane) : Lane :=
  let G := grpOf L g
  let mir := L.b (F.DEI_GRPg_STAT_MIR_VALID g)
  let chans := (List.range 8).filter (fun k => L.bit (F.DEI_GRPg_CTL_CHMASK g) k)
  let L1 := ((((L.setB (F.DEI_GRPg_STAT_OWN g) true).putN (F.DEI_GRPg_STAT_STATE g) 5).putN (F.DEI_GRPg_STAT_OWNER g)
    (laneNo L.id)).setB (F.DEI_GRPg_STAT_MIR_VALID g) false)
  let L2 := vduEnable (forEach chans ocClear L1)
  let L3 := forEach chans (fun k a =>
    if a.b (F.VDU_CHk_STAT_EN k) && !L.b (F.VDU_CHk_STAT_EN k) then
      let gen := genOf a 2
      let c := if mir then dutyCmp (chanDuty a k (a.fld (F.VDU_CHk_HOLD_HOLD k))) gen.act.per else 0
      (setGen 2 { gen with refCh := setNth gen.refCh k c, act := { gen.act with ch := setNth gen.act.ch k c } }
        (a.putN (F.PWM2_CHk_CH k) c)).putN (F.VDU_CHk_STAT_CH k) c
    else a) L2
  let L4 := setGrp g { G with tries := 0, want := false, second := false } L3
  let L4 := lpeGain g L4
  let L5 := if G.succ then raise 0x0B4 (L4.inc (F.DEI_GRPg_ERR_TAKE_CNT g)) else L4
  deiEvent g 0 L5

/-- The guard ends (R293, R294). DEDUCED: log 79. -/
def guardEnd (g : Nat) (L : Lane) : Lane :=
  if L.n (F.DEI_GRPg_STAT_STATE g) = 3 ∧ ownClaim L g ∧ ¬ L.b (F.DEI_GRPg_STAT_OWN g) then
    if otherClaims L g then
      let G := grpOf L g
      let L1 := deiEvent g 2 (raise 0x0B0 ((L.setBit (F.DEI_GRPg_STAT_CLAIMS g) (laneNo L.id) false).inc
        (F.DEI_GRPg_ERR_COLL_CNT g)))
      let L2 := setGrp g { G with tries := G.tries + 1, want := false } L1
      if 3 ≤ G.tries + 1 then raise 0x0B1 (L2.putN (F.DEI_GRPg_STAT_STATE g) (standState L2 g))
      else L2.putN (F.DEI_GRPg_STAT_STATE g) 4
    else gainGroup g L
  else L
def execClaimGuardEnd (l : LaneId) (g : Fin 4) (s : State) : Host.Outcome State Fault Refusal :=
  .next (s.onLane l (whenLive (guardEnd g.val)))

/-- The back-off ends: a new attempt is wanted (R294). DEDUCED: log 79. -/
def backoffEnd (g : Nat) (L : Lane) : Lane :=
  if L.n (F.DEI_GRPg_STAT_STATE g) = 4 then
    (setGrp g { grpOf L g with want := true } L).putN (F.DEI_GRPg_STAT_STATE g) 2
  else L
def execClaimBackoffEnd (l : LaneId) (g : Fin 4) (s : State) : Host.Outcome State Fault Refusal :=
  .next (s.onLane l (whenLive (backoffEnd g.val)))

/-- A peer's claim line rises or falls (R292, R293, R296). -/
def claimLine (g : Nat) (peer : LaneId) (level : Bool) (L : Lane) : Lane :=
  if peer = L.id then L
  else
    let was := L.bit (F.DEI_GRPg_STAT_CLAIMS g) (laneNo peer)
    let L1 := L.setBit (F.DEI_GRPg_STAT_CLAIMS g) (laneNo peer) level
    if level && !was then
      let L2 := if L1.b (F.DEI_GRPg_STAT_OWN g) then raise 0x0B2 (L1.inc (F.DEI_GRPg_ERR_CONF_CNT g)) else L1
      if (grpOf L2 g).second then
        (setGrp g { grpOf L2 g with second := false } L2).putN (F.DEI_GRPg_STAT_STATE g) (standState L2 g)
      else L2
    else L1
def execClaimLineChange (l : LaneId) (g : Fin 4) (peer : LaneId) (level : Bool) (s : State) :
    Host.Outcome State Fault Refusal := .next (s.onLane l (whenLive (claimLine g.val peer level)))

/-- The isolator of a claim line loses its transmitting lane (R25). -/
def execClaimIsoLost (l : LaneId) (peer : LaneId) (g : Fin 4) (s : State) : Host.Outcome State Fault Refusal :=
  .next (s.onLane l (whenLive (fun L => if peer = L.id then L else raise 0x012 (claimLine g.val peer false L))))

/-- A peer is taken as the owner (R292). -/
def ownerSeen (g : Nat) (peer : LaneId) (L : Lane) : Lane :=
  if peer ≠ L.id ∧ L.bit (F.DEI_GRPg_STAT_CLAIMS g) (laneNo peer) ∧ ¬ L.b (F.DEI_GRPg_STAT_OWN g) then
    let L1 := setGrp g { grpOf L g with want := false, second := false } (L.putN (F.DEI_GRPg_STAT_OWNER g) (laneNo peer))
    if ownClaim L g then L1 else L1.putN (F.DEI_GRPg_STAT_STATE g) (standState L g)
  else L
def execOwnerSeen (l : LaneId) (g : Fin 4) (peer : LaneId) (s : State) : Host.Outcome State Fault Refusal :=
  .next (s.onLane l (whenLive (ownerSeen g.val peer)))

/-- ORDER of a group as lane codes, first to third (R290). -/
def orderOf (L : Lane) (g : Nat) : List Nat :=
  let o := L.fld (F.DEI_GRPg_CTL_ORDER g)
  [bitsOf o 0 2, bitsOf o 2 2, bitsOf o 4 2]

/-- The members of a list of lane codes. -/
def membersOf (L : Lane) (xs : List Nat) : List Nat := xs.filter (fun x => L.clv.members.getLsbD x)

/-- The lane takes its place among the successors of a group (R292, R296). DEDUCED: log 79. -/
def rankGroup (g : Nat) (succs : List Nat) (bySucc : Bool) (L : Lane) : Lane :=
  if mayClaim L && !L.b (F.DEI_GRPg_STAT_OWN g) then
    let G : DeiGrp := ⟨0, bySucc, false, false⟩
    if succs.head? = some (laneNo L.id) then tryClaim g (setGrp g G L)
    else if (succs.drop 1).head? = some (laneNo L.id) then
      (setGrp g { G with second := true } L).putN (F.DEI_GRPg_STAT_STATE g) 2
    else (setGrp g G L).putN (F.DEI_GRPg_STAT_STATE g) 1
  else L

/-- The order cyclically from the lane after the lost owner. -/
def orderFrom (xs : List Nat) (lost : Nat) : List Nat :=
  let tail := xs.dropWhile (fun x => decide (x ≠ lost))
  (tail.drop 1 ++ xs.takeWhile (fun x => decide (x ≠ lost)))

/-- The owner is lost (R296). DEDUCED: log 79. -/
def ownerLost (g : Nat) (L : Lane) : Lane :=
  let p := L.n (F.DEI_GRPg_STAT_OWNER g)
  if p ≠ 3 ∧ ¬ L.b (F.DEI_GRPg_STAT_OWN g) ∧ ¬ L.bit (F.DEI_GRPg_STAT_CLAIMS g) p then
    rankGroup g (membersOf L (orderFrom (orderOf L g) p)) true (L.putN (F.DEI_GRPg_STAT_OWNER g) 3)
  else L
def execOwnerLost (l : LaneId) (g : Fin 4) (s : State) : Host.Outcome State Fault Refusal :=
  .next (s.onLane l (whenLive (ownerLost g.val)))

/-- The lane set has formed: the first member in ORDER attempts each configured group (R292, R296). -/
def claimsAtFormation (L : Lane) : Lane :=
  forEach (List.range 4) (fun g a => if grpCfg a g then rankGroup g (membersOf a (orderOf a g)) false a else a) L

def execSuccessorWaitEnd (l : LaneId) (g : Fin 4) (s : State) : Host.Outcome State Fault Refusal :=
  .next (s.onLane l (whenLive (fun L =>
    if (grpOf L g.val).second then tryClaim g.val (setGrp g.val { grpOf L g.val with second := false } L) else L)))

/-- A group in DRIVE_SET has had no owner for 100 us (R296). -/
def noOwner (g : Nat) (L : Lane) : Lane :=
  if inSet L.clv.members L.id && grpCfg L g && Nat.testBit (curRec L).driveSet (2 + g) &&
      decide (L.n (F.DEI_GRPg_STAT_OWNER g) = 3) then raise 0x0B5 L else L
def execDeiNoOwner (l : LaneId) (g : Fin 4) (s : State) : Host.Outcome State Fault Refusal :=
  .next (s.onLane l (whenLive (noOwner g.val)))

/-- The mirror words of group `g` as the running image lists them (R290). -/
def mirrorRefs (L : Lane) (g : Nat) : List Word :=
  let bs := (secOf L 0x0A).bytes
  let moff := (wAt bs (16 * g + 4)).toNat
  (List.range (L.n (F.DEI_GRPg_CTL_MCOUNT g))).map (fun k => wAt bs (moff + 4 * k))

/-- One mirror word installed (R298, R235). -/
def installWord (r v : Word) (L : Lane) : Lane :=
  match bitsOf r 30 2 with
  | 0 => (writeW (xBase + 4 * bitsOf r 0 17) v L).2
  | 1 => (writeW (slotSt (bitsOf r 8 6) + 4 * bitsOf r 0 3) v L).2
  | 2 => L.put (F.VDU_CHk_HOLD_HOLD (bitsOf r 0 3)) v
  | _ => L

/-- The groups that a lane is seen owning. -/
def groupsOwnedBy (L : Lane) (peer : LaneId) : List Nat :=
  (List.range 4).filter (fun g => grpCfg L g && decide (L.n (F.DEI_GRPg_STAT_OWNER g) = laneNo peer))

/-- The mirror words of a round from a sender: installed, or discarded (R298). `good` says that every transfer arrived and
that the sender was not in the minority. DEDUCED: log 79. -/
def mirrorRound (peer : LaneId) (words : List Word) (good : Bool) (L : Lane) : Lane :=
  let gs := groupsOwnedBy L peer
  if gs = [] ∨ ¬ mayClaim L then L
  else if good && decide (words.length = (gs.map (fun g => L.n (F.DEI_GRPg_CTL_MCOUNT g))).foldl (· + ·) 0) then
    (gs.foldl (fun (r : List Word × Lane) g =>
      let refs := mirrorRefs r.2 g
      let L1 := (refs.zip r.1).foldl (fun a p => installWord p.1 p.2 a) r.2
      let L2 := { L1.setB (F.DEI_GRPg_STAT_MIR_VALID g) true with
        lpe := { L1.lpe with mirSet := L1.lpe.mirSet ||| BitVec.ofNat 4 (2 ^ g) } }
      (r.1.drop refs.length, L2)) (words, L)).2
  else
    raise 0x0B3 (gs.foldl (fun a g => deiEvent g 3 (a.inc (F.DEI_GRPg_ERR_MIR_ERR_CNT g))) L)

/-- A chopper fault: its sticky bit, its source, PLIC source 91 (R300). DEDUCED: log 80. -/
def chpFault (flag : Fld) (src : Nat) (L : Lane) : Lane := plicRaise 91 (raise src (L.setB flag true))

def execChpNoCurrent (l : LaneId) (s : State) : Host.Outcome State Fault Refusal :=
  .next (s.onLane l (fun L => if motRuns L && L.b F.CHP_STAT_GATE then chpFault F.CHP_STAT_NOCUR 0x0B9 L else L))
def execChpStuck (l : LaneId) (s : State) : Host.Outcome State Fault Refusal :=
  .next (s.onLane l (fun L => if motRuns L && !L.b F.CHP_STAT_GATE then chpFault F.CHP_STAT_STUCK 0x0BB L else L))

/-- A completed conversion of a DC-link input: the gate, and the rise of the voltage (R299, R300). `v` is the higher of the
two latest scaled voltages. DEDUCED: log 80. -/
def chopper (v : Word) (L : Lane) : Lane :=
  let req := L.b (F.MEe_STAT_CHOP_REQ 0) || L.b (F.MEe_STAT_CHOP_REQ 1)
  let on := if req then (L.fld F.CHP_VREQ_VREQ).toInt else (L.fld F.CHP_VON_VON).toInt
  let off := on - ((L.fld F.CHP_VON_VON).toInt - (L.fld F.CHP_VOFF_VOFF).toInt)
  let was := L.b F.CHP_STAT_GATE
  let gate := !L.b F.PWM_MON_CLKSTOP && (decide (on ≤ v.toInt) || (was && decide (off ≤ v.toInt)))
  let steep := match L.out.chpV with
    | some (v0, t0) =>
      decide ((v.toInt - v0.toInt) * 10000 > (L.fld F.CHP_DVLIM_DVLIM).toInt * ((L.out.motTime - t0 : Nat) : Int))
    | none => false
  let run := if steep then L.out.chpRise + 1 else 0
  let L1 := { L with out := { L.out with
    chpV := some (v, L.out.motTime), chpRise := run, chpOnAt := if gate && !was then L.out.motTime else L.out.chpOnAt } }
  let L2 := (L1.setB F.CHP_STAT_REQ req).setB F.CHP_STAT_GATE gate
  let L3 := if gate && !was then raise 0x0B8 (L2.inc F.CHP_STAT_ON_CNT) else L2
  if was && gate && decide (L.out.chpOnAt + 20000 ≤ L.out.motTime) && decide (2 ≤ run) then chpFault F.CHP_STAT_RISE 0x0BA L3
  else L3

/-- An edge on a GPIO ball (R302). DEDUCED: log 80. -/
def gpioEdge (n : Nat) (rising : Bool) (L : Lane) : Lane :=
  let L1 := L.setBit F.GPIO_IN_IN n rising
  if (if rising then L.bit F.GPIO_IRQ_RISE n else L.bit F.GPIO_IRQ_FALL n) then
    plicRaise (83 + n) (L1.setBit F.GPIO_EVSTAT_EV n true)
  else L1
def execGpioEdge (l : LaneId) (n : Fin 8) (rising : Bool) (s : State) : Host.Outcome State Fault Refusal :=
  .next (s.onLane l (whenLive (gpioEdge n.val rising)))

/-- The level of pin `n`: what an output pin drives, the opposite during a trigger pulse, or what an input pin meets (R302).
DEDUCED: log 80. -/
def gpioLevel (n : Nat) (L : Lane) : Bool :=
  if L.bit F.GPIO_DIR_DIR n then L.bit F.GPIO_OUT_OUT n ^^ L.out.pulse.getLsbD n else L.bit F.GPIO_IN_IN n

/-- The ball levels as GPIO_IN shows them. -/
def gpioLevels (L : Lane) : Nat := (List.range 8).foldl (fun w n => w + (b2n (gpioLevel n L)) * 2 ^ n) 0

/-- A gate-driver frame is on its way: the FIFO holds one, and the trigger line it waits for, if any, has pulsed (R303).
DEDUCED: log 80. -/
def spiBusy (L : Lane) : Bool :=
  L.b F.GPIO_SPI_CFG_EN && decide (L.out.spiTx ≠ []) && (decide (L.n F.GPIO_SPI_CFG_TRG = 0) || L.out.spiTrig)

/-- The FIFO levels and the frame that GPIO_SPI_RX shows. DEDUCED: log 80. -/
def spiShow (L : Lane) : Lane :=
  ((L.putN F.GPIO_SPI_STAT_TXLVL L.out.spiTx.length).putN F.GPIO_SPI_STAT_RXLVL L.out.spiRx.length).put F.GPIO_SPI_RX_RX
    (nth L.out.spiRx 0 0)

/-- A push to the transmit FIFO (R303). -/
def spiPush (v : Word) (L : Lane) : Lane :=
  if L.out.spiTx.length < 8 then spiShow { L with out := { L.out with spiTx := L.out.spiTx ++ [v] } }
  else raise 0x0BC (L.setB F.GPIO_SPI_STAT_UND true)
def execGpioSpiTx (l : LaneId) (val : Word) (s : State) : Host.Outcome State Fault Refusal :=
  .next (s.onLane l (whenLive (spiPush val)))

/-- A pop of the receive FIFO (R303). -/
def spiPop (L : Lane) : Lane := spiShow { L with out := { L.out with spiRx := L.out.spiRx.drop 1 } }
def execGpioSpiRx (l : LaneId) (s : State) : Host.Outcome State Fault Refusal := .next (s.onLane l (whenLive spiPop))

/-- Bits of a frame: LEN + 1, LEN below 7 acts as 7 (R303). -/
def spiBits (L : Lane) : Nat := max 7 (L.n F.GPIO_SPI_CFG_LEN) + 1

/-- A frame is exchanged (R303). DEDUCED: log 80. -/
def spiFrame (miso : Word) (L : Lane) : Lane :=
  if spiBusy L then
    let L1 := { L with out := { L.out with spiTx := L.out.spiTx.drop 1, spiTrig := false } }
    if L1.out.spiRx.length < 8 then
      spiShow { L1 with out := { L1.out with spiRx := L1.out.spiRx ++ [toW (bitsOf miso 0 (spiBits L))] } }
    else raise 0x0BC ((spiShow L1).setB F.GPIO_SPI_STAT_OVR true)
  else L
def execSpiFrame (l : LaneId) (miso : Word) (s : State) : Host.Outcome State Fault Refusal :=
  .next (s.onLane l (whenLive (spiFrame miso)))

end Sys2Proof.Machine
end

