-- ==== Sys2Proof/Machine/Motor.lean ====
section
/-! DEFINITION. The motor engines and the converters: sampling, observer, regimes, current control, modulation, capture, the
overvoltage ladder and the safe states (R242 to R272). -/

namespace Sys2Proof.Machine

/-- The largest integer whose square is at most `x`, bit by bit from bit `k - 1` on (R242). -/
def isqrtGo (x : Nat) : Nat → Nat → Nat
  | 0, r => r
  | k + 1, r => isqrtGo x k (if (r + 2 ^ k) * (r + 2 ^ k) ≤ x then r + 2 ^ k else r)
/-- DEDUCED: log 73. -/
def isqrt (x : Nat) : Nat := isqrtGo x 34 0

/-- sat(isqrt(x)) and div(a, b) (R242). DEDUCED: log 73. -/
def qSqrt (f : Bool) (x : Int) : Q := qSat f (isqrt x.toNat : Int)
def Q.div (a b : Q) : Q :=
  if b.v ≤ 0 then qSat (a.f || b.f) (a.v * 2 ^ 62) else qSat (a.f || b.f) (Int.tdiv (a.v * 2 ^ 31) b.v)

/-- The series of sine and cosine for an angle of the first quadrant, in units of 2^-60: `x` the angle, `k` the next
factorial step, `t` the term. -/
def series (x2 : Int) : Nat → Int → Int → Int → Int
  | 0, _, _, acc => acc
  | n + 1, k, t, acc =>
    let t1 := -(t * x2 / 2 ^ 60) / ((k + 1) * (k + 2))
    series x2 n (k + 2) t1 (acc + t1)

/-- Cosine and sine of an angle of the first quadrant, in units of 2^-60. -/
def csQuad (r : Nat) : Int × Int :=
  let x : Int := (r : Int) * 3622009729038561421 / 2 ^ 31
  let x2 := x * x / 2 ^ 60
  (series x2 13 0 (2 ^ 60) (2 ^ 60), series x2 13 1 x x)

/-- A value in units of 2^-60 rounded to Q1.31. -/
def toQ31 (x : Int) : Int := (x + 2 ^ 28) / 2 ^ 29

/-- A free error within three units of 2^-31: with the rounding it stays below 2^-29 (R242). -/
def errOf (n : Nat) : Int := (n % 7 : Nat) - 3

/-- cs(th): cosine and sine in Q1.31 (R242). DESIGN CHOICE: log 8. -/
def csOf (th : Word) : Int × Int :=
  let p := csQuad (th.toNat % 2 ^ 30)
  let cs : Int × Int := match th.toNat / 2 ^ 30 with
    | 0 => p
    | 1 => (-p.2, p.1)
    | 2 => (-p.1, -p.2)
    | _ => (p.2, -p.1)
  let c := sat32 (toQ31 cs.1 + errOf (Config.cosErr th))
  (if th = 0 then 0x7FFFFFFF else c, sat32 (toQ31 cs.2 + errOf (Config.sinErr th)))

/-- The angle of a vector of the first quadrant, bit by bit. -/
def angleGo (x y : Int) : Nat → Nat → Nat
  | 0, r => r
  | k + 1, r =>
    let p := csQuad (r + 2 ^ k)
    angleGo x y k (if x * p.2 ≤ y * p.1 then r + 2 ^ k else r)

/-- The angle of a vector, with a free error that keeps it within 2^20 (R263). DESIGN CHOICE: log 8. -/
def vecAngle (x y : Int) : Word :=
  let n := Config.angErr (BitVec.ofInt 32 x) (BitVec.ofInt 32 y)
  if x = 0 ∧ y = 0 then toW n
  else
    let q : Nat × Nat :=
      if 0 < x ∧ 0 ≤ y then (0, angleGo x y 30 0)
      else if x ≤ 0 ∧ 0 < y then (1, angleGo y (-x) 30 0)
      else if x < 0 ∧ y ≤ 0 then (2, angleGo (-x) (-y) 30 0)
      else (3, angleGo (-y) x 30 0)
    BitVec.ofInt 32 ((q.1 * 2 ^ 30 + q.2 : Nat) + ((n % (2 ^ 21 - 7) : Nat) : Int) - (2 ^ 20 - 4))

/-- Channel `k` of engine `e` scaled (R244): 0 IA, 1 IB, 2 VA, 3 VB, 4 VC, 5 VDC, 6 TEMP. -/
def meScale (e k : Nat) (L : Lane) : Q :=
  (qGain (qOf (L.fld (F.MEe_CALk_GAIN_GAIN e k))) (bitsOf (L.fld (F.MEe_CALSH_SH e)) (4 * k) 4)
    ((qOf (adcRaw L (7 * e + k))).sub (qOf (L.fld (F.MEe_CALk_OFF_OFF e k)))))

/-- The engine's table record of the selected set (R249). DEDUCED: log 74. -/
def meTable (e : Nat) (L : Lane) : Option (List Word) × Lane :=
  match readW (lpeSet L + 8) L with
  | (none, L1) => (none, L1)
  | (some off, L1) => readWords (lpeSet L1 + off.toNat + 256 * e) 64 L1

/-- A field of a table record. -/
def tq (r : List Word) (k : Nat) : Q := qOf (nth r k 0)
def tNSw (r : List Word) : Nat := bitsOf (nth r 0 0) 8 8
def tNCap (r : List Word) : Nat := bitsOf (nth r 0 0) 16 8
def tNPol (r : List Word) : Nat := bitsOf (nth r 0 0) 24 8
def tSh (r : List Word) (k : Nat) : Nat := bitsOf (nth r 26 0) (4 * k) 4

/-- References of an engine (R247). -/
def meRef (e r : Nat) (L : Lane) : Q := qOf (L.fld (F.MEe_REFr_VALUE e r))
def meRun (e : Nat) (L : Lane) : Bool := decide (0 < (meRef e 7 L).v)

/-- th, w, id_fw, REGIME of an engine. -/
def meTh (e : Nat) (L : Lane) : Word := L.fld (F.MEe_THETA_VALUE e)
def meW (e : Nat) (L : Lane) : Q := qOf (L.fld (F.MEe_OMEGA_VALUE e))
def meIdfw (e : Nat) (L : Lane) : Q := qOf (L.fld (F.MEe_IDFW_VALUE e))
def meReg (e : Nat) (L : Lane) : Nat := L.n (F.MEe_STAT_REGIME e)

/-- Saturation in the step: ARITH, its count and CURRENT_SAT (R220, R242, R271). -/
def meArith (e : Nat) (r : List Word) (f : Bool) (L : Lane) : Lane :=
  if f && !(meOf L e).arith then
    let L1 := (setMe e { meOf L e with arith := true } L).inc (F.MEe_ERR_SAT_CNT e)
    if bitAt (nth r 0 0) 2 then meFault e 10 L1 else L1
  else L

/-- The rest of a step, unless the engine has been forced in it: then its results are discarded (R268). -/
def goOn (e : Nat) (f : Lane → Lane) (L : Lane) : Lane := if L.b (F.MEe_STAT_FORCED e) then L else f L

/-- The engine enters OFF: all switches off, integrators cleared (R262). -/
def meOff (e : Nat) (L : Lane) : Lane :=
  let L1 := setMe e { meOf L e with iD := 0, iQ := 0, iqR := 0, inj1 := 0, inj2 := 0, ladder := false, ascLost := false } L
  let L2 := ((L1.put (F.MEe_IDFW_VALUE e) 0).setB (F.MEe_STAT_RAMP e) false).setB (F.MEe_STAT_CHOP_REQ e) false
  setRegime e 0 L2

/-- CAP_EMF starts (R262, R263). DEDUCED: log 75. -/
def startCap (e step : Nat) (L : Lane) : Lane :=
  setRegime e 1 (setMe e { meOf L e with
    ladder := false, capStep := step, capLow := 0, capN := 0, capSum := 0, capPos := false, capNeg := false
    capSaid := false, deb := List.replicate 5 0 } L)

/-- CAP_HFI starts (R264). -/
def startHfi (e : Nat) (L : Lane) : Lane :=
  let L1 := ((L.put (F.MEe_THETA_VALUE e) 0).put (F.MEe_OMEGA_VALUE e) 0).setB (F.MEe_STAT_CHOP_REQ e) false
  setRegime e 2 (setMe e { meOf L1 e with
    hfiStep := 0, hfiPhase := 0, polP := -2147483648, polN := -2147483648, inj1 := 0, inj2 := 0, iD := 0, iQ := 0
    iqR := 0 } L1)

/-- ASC is entered from the ladder or by overcurrent; where it is impossible the engine goes to SAFE_OFF (R265, R266). -/
def enterAsc (e : Nat) (ladder : Bool) (L : Lane) : Lane :=
  let L1 := (setMe e { meOf L e with ladder := ladder, ocRun := 0, inj1 := 0, inj2 := 0 } L).setB (F.MEe_STAT_CHOP_REQ e) false
  if ascBlocked e L then meFault e 9 (setRegime e 8 L1) else meEvent e 3 (setRegime e 7 L1)

/-- SAFE_OFF for steps that stop or a sense input at a rail, with fault `k`, and ASC_BLOCKED where ASC is impossible (R266). An engine
in SAFE_OFF, or forced, keeps its state. DESIGN CHOICE: log 74. -/
def safeOff (e k : Nat) (L : Lane) : Lane :=
  if L.b (F.MEe_STAT_FORCED e) || decide (meReg e L = 8) then meFault e k L
  else
    let L1 := meFault e k (setRegime e 8 ((L.setB (F.MEe_STAT_CHOP_REQ e) false).setB (F.MEe_STAT_RAMP e) false))
    if ascBlocked e L && !L1.b (F.MEe_STAT_FORCED e) then meFault e 9 L1 else L1

/-- The overvoltage ladder on a DC-link voltage (R265, R267). -/
def ladder (e : Nat) (r : List Word) (vdc : Q) (L : Lane) : Lane :=
  let regen := L.b (F.MEe_STAT_REGEN e)
  let L1 :=
    if decide ((tq r 34).v ≤ vdc.v) && !regen then
      meFault e 6 (meEvent e 2 (L.setB (F.MEe_STAT_REGEN e) true))
    else if decide (vdc.v < ((tq r 34).sub (tq r 35)).v) && regen then
      meEvent e 2 (L.setB (F.MEe_STAT_REGEN e) false)
    else L
  if (tq r 36).v ≤ vdc.v ∧ meReg e L1 ≠ 7 ∧ meReg e L1 ≠ 8 then
    let L2 := meFault e 7 (enterAsc e true L1)
    if L1.n (F.MEe_STAT_REC_CNT e) = 3 then meFault e 8 (setMe e { meOf L2 e with exhausted := true } L2) else L2
  else L1

/-- Overcurrent in two consecutive steps: ASC; all off where the engine is in ASC, which has then become impossible; SAFE_OFF stays
(R266, R271). -/
def overCurrent (e : Nat) (L : Lane) : Lane :=
  let lost := decide (meReg e L = 7)
  let L1 := (setMe e { meOf L e with ocRun := 0, ascLost := (meOf L e).ascLost || lost } L).inc (F.MEe_ERR_OC_CNT e)
  if lost then meFault e 9 (meFault e 0 (setRegime e 8 L1))
  else if meReg e L = 8 then meFault e 0 L1
  else goOn e (enterAsc e false) (meFault e 0 L1)

/-- The phase currents of a step: ia, ib and ic (R244). -/
def phases (e : Nat) (L : Lane) : Q × Q × Q :=
  let ia := meScale e 0 L
  let ib := meScale e 1 L
  (ia, ib, qSat (ia.f || ib.f) (-(ia.v + ib.v)))

/-- A phase current exceeds IOC. -/
def ocNow (r : List Word) (p : Q × Q × Q) : Bool :=
  let lim := (tq r 29).v
  decide (lim < p.1.v.natAbs ∨ lim < p.2.1.v.natAbs ∨ lim < p.2.2.v.natAbs)

/-- A sense input at a rail: code 0 or 16,383 of a conversion that has completed. -/
def atRail (e : Nat) (L : Lane) : Bool :=
  [0, 1, 5].any (fun k => L.b (F.ADC_RESn_VALID (7 * e + k)) &&
    (decide (L.n (F.ADC_RESn_CODE (7 * e + k)) = 0) || decide (L.n (F.ADC_RESn_CODE (7 * e + k)) = 16383)))

/-- Scaling a step's samples has limited a value (R242, R244). -/
def scaleSat (e : Nat) (L : Lane) : Bool := (List.range 7).any (fun k => (meScale e k L).f) || (phases e L).2.2.f

/-- Stage 1 (R251): staleness, range, overcurrent, low link, temperature. -/
def stage1 (e : Nat) (r : List Word) (L0 : Lane) : Lane :=
  let L := meArith e r (scaleSat e L0) L0
  let m := meOf L e
  let ca := nth L.lpe.conv (7 * e) 0
  let cb := nth L.lpe.conv (7 * e + 1) 0
  let L1 := setMe e { m with seenA := ca, seenB := cb } L
  let L2 := if m.seenA = ca ∨ m.seenB = cb then meFault e 2 (L1.inc (F.MEe_ERR_STALE_CNT e)) else L1
  let oc := ocNow r (phases e L2)
  let L3 := setMe e { meOf L2 e with ocRun := if oc then (meOf L2 e).ocRun + 1 else 0 } L2
  let L4 := if 2 ≤ (meOf L3 e).ocRun then overCurrent e L3 else L3
  let L5 := if atRail e L4 then safeOff e 1 L4 else L4
  let low := decide ((meScale e 5 L5).v < (tq r 40).v)
  let run := if low then (meOf L5 e).vlowRun + 1 else 0
  let say := decide (tNSw r ≤ run) && !(meOf L5 e).vlowSaid
  let L6 := setMe e { meOf L5 e with vlowRun := run, vlowSaid := low && ((meOf L5 e).vlowSaid || say) } L5
  let L7 := if say then meFault e 11 L6 else L6
  if (tq r 46).v < (meScale e 6 L7).v then meFault e 12 L7 else L7

/-- Clarke and Park of the phase currents with an angle (R252): i_al, i_be, id, iq. -/
def park (p : Q × Q × Q) (th : Word) : Q × Q × Q × Q :=
  let ia := p.1
  let k : Q := qInt 0x49E69D16
  let m2 := k.mul p.2.1
  let m1 := k.mul ia
  let be := qSat (m1.f || m2.f) (m1.v + 2 * m2.v)
  let cs := csOf th
  (ia, be, qSat (ia.f || be.f) ((ia.v * cs.1 + be.v * cs.2 + 2 ^ 30) / 2 ^ 31),
    qSat (ia.f || be.f) ((be.v * cs.1 - ia.v * cs.2 + 2 ^ 30) / 2 ^ 31))

/-- One axis of the observer (R253): the new current and EMF estimates and the current error. -/
def observe1 (r : List Word) (v i ih eh : Q) : Q × Q × Q :=
  let err := i.sub ih
  let ih1 := (ih.add ((tq r 3).mul ((v.sub ((tq r 2).mul ih)).sub eh))).add ((tq r 4).mul err)
  let eh1 := eh.sub (qGain (tq r 5) (tSh r 5) err)
  (ih1, eh1, err)

/-- The observer runs at a step with the vector `v` of step k - 2; the answer says whether a value was limited, and the
magnitude of the current error squared. -/
def observe (e : Nat) (r : List Word) (vAl vBe : Word) (iAl iBe : Q) (L : Lane) : Lane × Bool × Int :=
  let m := meOf L e
  let a := observe1 r (qOf vAl) iAl (qOf m.ihAl) (qOf m.ehAl)
  let b := observe1 r (qOf vBe) iBe (qOf m.ihBe) (qOf m.ehBe)
  (setMe e { m with ihAl := a.1.w, ehAl := a.2.1.w, ihBe := b.1.w, ehBe := b.2.1.w } L,
    a.1.f || a.2.1.f || b.1.f || b.2.1.f, a.2.2.v * a.2.2.v + b.2.2.v * b.2.2.v)

/-- The angle advanced by a speed over one tick (R254, R255). -/
def advance (r : List Word) (th : Word) (w : Q) : Word := th + (w.mul (tq r 1)).w

/-- The tracking loop on the estimated EMF (R254). -/
def trackEmf (e : Nat) (r : List Word) (L : Lane) : Lane × Bool :=
  let m := meOf L e
  let al := (qOf m.ehAl).v
  let be := (qOf m.ehBe).v
  let emag := qSqrt false (al * al + be * be)
  let cs := csOf (meTh e L)
  let eps0 := qSat false ((-al * cs.1 - be * cs.2 + 2 ^ 30) / 2 ^ 31)
  let w0 := meW e L
  let eps := if w0.v < 0 then eps0.neg else eps0
  let epsn := eps.div ⟨max emag.v (tq r 12).v, emag.f⟩
  let w := w0.add (qGain (tq r 9) (tSh r 7) epsn)
  let wp := w.add (qGain (tq r 8) (tSh r 7) epsn)
  (((L.put (F.MEe_EMAG_VALUE e) emag.w).put (F.MEe_OMEGA_VALUE e) w.w).put (F.MEe_THETA_VALUE e)
    (advance r (meTh e L) wp), wp.f)

/-- The tracking loop on the injection response (R255). -/
def trackHfi (e : Nat) (r : List Word) (iq : Q) (L : Lane) : Lane × Bool :=
  let m := meOf L e
  let dq := iq.sub (qOf m.iqPrev)
  let eps := qSat dq.f (m.inj2 * dq.v)
  let w := (meW e L).add (qGain (tq r 11) (tSh r 7) eps)
  let wp := w.add (qGain (tq r 10) (tSh r 7) eps)
  ((L.put (F.MEe_OMEGA_VALUE e) w.w).put (F.MEe_THETA_VALUE e) (advance r (meTh e L) wp), wp.f)

/-- The transitions of R257 from a driven regime, in the order in which they are tried: target, number of its debounce count
(5: none), whether its condition holds. DEDUCED: log 74. -/
def transitions (e : Nat) (r : List Word) (L : Lane) : List (Nat × Nat × Bool) :=
  let w := (meW e L).abs.v
  let fw := (meIdfw e L).v
  let toHfi := (3, 1, decide (w < (tq r 16).v))
  match meReg e L with
  | 3 => [(4, 0, decide ((tq r 15).v ≤ w))]
  | 4 => [toHfi, (6, 5, decide (fw < 0)), (5, 2, decide ((tq r 17).v ≤ w))]
  | 5 => [toHfi, (6, 5, decide (fw < 0)), (4, 3, decide (w < (tq r 18).v))]
  | 6 => [toHfi, (if (tq r 18).v ≤ w then 5 else 4, 4, decide (fw = 0))]
  | _ => []

/-- A regime of the driven ones is entered: HFI clears id_fw and starts with a positive injection, the others inject nothing
(R257). -/
def enterDriven (e reg : Nat) (L : Lane) : Lane :=
  let L1 := setRegime e reg (setMe e { meOf L e with inj1 := 0 } L)
  if reg = 3 then L1.put (F.MEe_IDFW_VALUE e) 0 else L1

/-- Stage 5: the debounce counts step, and the first transition whose condition has held long enough is taken (R257).
DEDUCED: log 74. -/
def stage5 (e : Nat) (r : List Word) (L : Lane) : Lane :=
  let ts := transitions e r L
  let m := meOf L e
  let deb := (List.range 5).map (fun i =>
    match ts.find? (fun t => decide (t.2.1 = i)) with
    | some t => if t.2.2 then nth m.deb i 0 + 1 else 0
    | none => 0)
  let L1 := setMe e { m with deb := deb } L
  match ts.find? (fun t => t.2.2 && (decide (t.2.1 = 5) || decide (tNSw r ≤ nth deb t.2.1 0))) with
  | some t => enterDriven e t.1 L1
  | none => L1

/-- The references of stage 6 (R258, R262): iq_r and id_r, with iq_r and RAMP kept; iq_r carries the limits of every value formed. -/
def currentRefs (e : Nat) (r : List Word) (L : Lane) : Lane × Q × Q :=
  let w := meW e L
  let regen := L.b (F.MEe_STAT_REGEN e)
  let run := meRun e L
  let share := meRef e (1 + laneNo L.id) L
  let lim := min (meRef e 5 L).v (tq r 27).v
  let t0 := (qGain (tq r 25) (tSh r 4) ((meRef e 0 L).mul share)).clamp (-lim) lim
  let fast := decide ((meRef e 6 L).v ≤ w.abs.v) && decide ((0 < t0.v ∧ 0 < w.v) ∨ (t0.v < 0 ∧ w.v < 0))
  let t1 : Q := if fast then qInt 0 else t0
  let t2 : Q := if regen && decide ((0 < t1.v ∧ w.v < 0) ∨ (t1.v < 0 ∧ 0 < w.v)) then qInt 0 else t1
  let t : Q := if run then t2 else qInt 0
  let rate := (tq r 30).v
  let old := qOf (meOf L e).iqR
  let ramp := L.b (F.MEe_STAT_RAMP e) || !run
  let iqr := if ramp then (old.add ((t.sub old).clamp (-rate) rate)) else t
  let ramp1 := ramp && decide (iqr.v ≠ t.v)
  let extra : Q := if regen then tq r 39 else qInt 0
  let base : Q := if run then (meRef e 4 L).add (meIdfw e L) else qInt 0
  let idr := (base.sub extra).clamp (-(tq r 28).v) 0
  ((setMe e { meOf L e with iqR := iqr.w } L).setB (F.MEe_STAT_RAMP e) ramp1,
    ⟨iqr.v, iqr.f || (run && (t0.f || w.abs.f)) || (t.sub old).f && ramp⟩, idr)

/-- The PI form of a current controller (R230, R259): gain words and shifts, limits, integrator, measured value, reference. -/
def mePi (kp ki : Word) (skp ski : Nat) (vmax : Q) (i : Word) (y reff : Q) : SlotOut :=
  let sh := at' 0 skp ||| at' 4 ski
  let p : List Word := [kp, ki, 0, 0, (qInt (-vmax.v)).w, vmax.w, 0, 0, 0, 0, sh]
  piForm 1 p ⟨reff, qOf i, qInt 0, y, qInt 0, false⟩ y reff

/-- The phase-advance table at a position in units of 2^-31 steps (R260). DEDUCED: log 73. -/
def paInterp (r : List Word) (pos : Int) : Q :=
  let p := max pos 0
  let j := (p / 2 ^ 31).toNat
  if 15 ≤ j then tq r 63
  else
    let f : Q := qInt (p % 2 ^ 31)
    (tq r (48 + j)).add (f.mul ((tq r (49 + j)).sub (tq r (48 + j))))

/-- The output angle of stage 8 (R260). -/
def outAngle (e : Nat) (r : List Word) (L : Lane) : Word × Bool :=
  let w := meW e L
  let adv := qGain (tq r 43) 1 (w.mul (tq r 1))
  let reg := meReg e L
  if reg = 5 ∨ (reg = 6 ∧ (tq r 18).v ≤ w.abs.v) then
    let num := w.abs.sub (tq r 17)
    let step := (tq r 19).v
    let pos : Int := if step ≤ 0 then (if 0 < num.v then 2 ^ 40 else 0) else Int.tdiv (num.v * 2 ^ 31) step
    let a := paInterp r pos
    let adv1 := adv.add (if w.v < 0 then a.neg else a)
    (meTh e L + adv1.w, adv1.f || a.f || num.f)
  else (meTh e L + adv.w, adv.f)

/-- What stage 9 forms: the vector, the compares of the three phases, and whether a value was limited. -/
structure Modulated where
  al : Word
  be : Word
  cmp : List Nat
  sat : Bool
deriving DecidableEq, Repr

/-- Stage 9: inverse Park and space-vector modulation (R252, R261). -/
def modulate (e : Nat) (r : List Word) (p : Q × Q × Q) (vd vq vdc : Q) (L : Lane) : Modulated :=
  let oa := outAngle e r L
  let cs := csOf oa.1
  let al := qSat (vd.f || vq.f) ((vd.v * cs.1 - vq.v * cs.2 + 2 ^ 30) / 2 ^ 31)
  let be := qSat (vd.f || vq.f) ((vd.v * cs.2 + vq.v * cs.1 + 2 ^ 30) / 2 ^ 31)
  let k := (qInt 0x6ED9EBA1).mul be
  let half := al.v / 2
  let dt (i x : Q) : Q := if 0 < i.v then x.add (tq r 42) else if i.v < 0 then x.sub (tq r 42) else x
  let va := dt p.1 al
  let vb := dt p.2.1 (qSat k.f (k.v - half))
  let vc := dt p.2.2 (qSat k.f (-k.v - half))
  let cm := qSat false (-(max va.v (max vb.v vc.v) + min va.v (min vb.v vc.v)) / 2)
  let duty (v : Q) : Q := ((qInt 0x40000000).add ((v.add cm).div vdc)).clamp 0 0x7FFFFFFF
  let per := L.n (F.PWMn_PER_PER e)
  let cmp (d : Q) : Nat := ((d.v * per + 2 ^ 30) / 2 ^ 31).toNat
  let da := duty va
  let db := duty vb
  let dc := duty vc
  ⟨al.w, be.w, [cmp da, cmp db, cmp dc],
    oa.2 || al.f || be.f || va.f || vb.f || vc.f || cm.f || da.f || db.f || dc.f⟩

/-- The vector is kept and the compares go to the engine's generator, with a COMMIT (R251, R261). -/
def applyVector (e : Nat) (o : Modulated) (L : Lane) : Lane :=
  let m := meOf L e
  let L1 := setMe e { m with v2Al := m.v1Al, v2Be := m.v1Be, v1Al := o.al, v1Be := o.be } L
  if L1.b (F.PWMn_CFG_SRC e) then
    commitOp e (forEach (List.range 3) (fun i a =>
      (a.putN (F.PWMn_CMPk_CMP e i) (nth o.cmp i 0)).setBit (F.PWMn_WSC_CMP e) i true) L1)
  else L1

/-- The vectors of a step without driven switches. -/
def noVector (e : Nat) (L : Lane) : Lane :=
  let m := meOf L e
  setMe e { m with v2Al := m.v1Al, v2Be := m.v1Be, v1Al := 0, v1Be := 0, inj2 := m.inj1, inj1 := 0 } L

/-- Stages 6 to 9 of a driven step (R258 to R261). `refs` are iq_r and id_r; `pulse` replaces the controllers by a voltage on
the d axis (R264). -/
def driveStep (e : Nat) (r : List Word) (p : Q × Q × Q) (id iq : Q) (refs : Q × Q) (pulse : Option Int) (L : Lane) : Lane :=
  let m := meOf L e
  let reg := meReg e L
  let vdc := meScale e 5 L
  let vmax := (tq r 31).mul vdc
  let hfi := decide (reg = 2 ∨ reg = 3) && pulse.isNone
  let mean (a : Q) (b : Word) : Q := if hfi then qSat a.f ((a.v + (qOf b).v) / 2) else a
  let yd := mean id m.idPrev
  let yq := mean iq m.iqPrev
  let inj : Int := if hfi then (if m.inj1 = 1 then -1 else 1) else 0
  let pd := mePi (nth r 21 0) (nth r 22 0) (tSh r 0) (tSh r 1) vmax m.iD yd refs.2
  let pq := mePi (nth r 23 0) (nth r 24 0) (tSh r 2) (tSh r 3) vmax m.iQ yq refs.1
  let w := meW e L
  let vdu := match pulse with
    | some v => qInt v
    | none => (pd.out.sub ((w.mul (tq r 7)).mul iq)).add (qInt (inj * (tq r 13).v))
  let vqu := match pulse with
    | some _ => qInt 0
    | none => pq.out.add (w.mul (((tq r 7).mul id).add (tq r 6)))
  let vd := vdu.clamp (-vmax.v) vmax.v
  let vqm := qSqrt (vd.f || vmax.f) (max (vmax.v * vmax.v - vd.v * vd.v) 0)
  let vq := vqu.clamp (-vqm.v) vqm.v
  let vmag := qSqrt (vdu.f || vqu.f) (vdu.v * vdu.v + vqu.v * vqu.v)
  let fw := (((meIdfw e L).add (qGain (tq r 33) (tSh r 6) (((tq r 32).mul vmax).sub vmag)))).clamp (-(tq r 28).v) 0
  let o := modulate e r p vd vq vdc L
  let sat := refs.1.f || refs.2.f || pd.f || pq.f || vdu.f || vqu.f || vqm.f || vmag.f || (decide (4 ≤ reg ∧ reg ≤ 6) && fw.f) || o.sat
  goOn e (fun L0 =>
    let L1 := if 4 ≤ reg ∧ reg ≤ 6 then L0.put (F.MEe_IDFW_VALUE e) fw.w else L0
    let L2 := setMe e { meOf L1 e with
      inj2 := m.inj1, inj1 := inj, iD := if pulse.isSome then m.iD else pd.i.w
      iQ := if pulse.isSome then m.iQ else pq.i.w } L1
    applyVector e o ((L2.put (F.MEe_VD_VALUE e) vd.w).put (F.MEe_VQ_VALUE e) vq.w)) (meArith e r sat L)

/-- The measured currents shown and kept (MEe_ID, MEe_IQ, R255). -/
def keepCurrents (e : Nat) (id iq : Q) (L : Lane) : Lane :=
  (setMe e { meOf L e with idPrev := id.w, iqPrev := iq.w } L).put (F.MEe_ID_VALUE e) id.w |>.put (F.MEe_IQ_VALUE e) iq.w

/-- A driven step from stage 6 on. The `first` after an all-off state starts iq_r at the measured iq with RAMP set (R258); the
step at which iq_r reaches 0 in a stop enters OFF (R262). -/
def drivenFrom6 (e : Nat) (r : List Word) (p : Q × Q × Q) (id iq : Q) (first : Bool) (L : Lane) : Lane :=
  let L0 := if first then (setMe e { meOf L e with iqR := iq.w } L).setB (F.MEe_STAT_RAMP e) true else L
  let c := currentRefs e r L0
  if ¬ meRun e L0 ∧ c.2.1.v = 0 then noVector e (meOff e c.1)
  else driveStep e r p id iq (c.2.1, c.2.2) none c.1

/-- Observer error against its limit, in OBS, PA and FW (R271). -/
def obsCheck (e : Nat) (r : List Word) (err2 : Int) (L : Lane) : Lane :=
  let lim := (tq r 44).v
  let bad := decide (4 ≤ meReg e L ∧ meReg e L ≤ 6) && decide (lim * lim < err2 ∧ 0 ≤ lim)
  let m := meOf L e
  let run := if bad then m.obsRun + 1 else 0
  let say := bad && decide (bitsOf (nth r 45 0) 0 8 ≤ run) && !m.obsSaid
  let L1 := setMe e { m with obsRun := run, obsSaid := bad && (m.obsSaid || say) } L
  if say then meFault e 4 L1 else L1

/-- The line-voltage EMF with all switches off (R252): e_al, e_be. -/
def lineEmf (e : Nat) (L : Lane) : Q × Q :=
  let va := meScale e 2 L
  let vb := meScale e 3 L
  let vc := meScale e 4 L
  let vab := va.sub vb
  let vbc := vb.sub vc
  (((qInt 0x55555555).mul vab).add ((qInt 0x2AAAAAAB).mul vbc), (qInt 0x49E69D16).mul vbc)

/-- The first regime after a capture by back-EMF: R257 as if the debounce were met. -/
def firstRegime (r : List Word) (w : Q) : Nat :=
  let a := w.abs.v
  if a < (tq r 16).v then 3 else if (tq r 17).v ≤ a then 5 else 4

/-- A step that goes on into CAP_HFI, as the first of its 256 (R263, R264). -/
def toHfiCapture (e : Nat) (r : List Word) (p : Q × Q × Q) (id iq : Q) (L : Lane) : Lane :=
  driveStep e r p id iq (qInt 0, qInt 0) none (let a := startHfi e L; setMe e { meOf a e with hfiStep := 1 } a)

/-- The capture by back-EMF has its samples (R263). DEDUCED: log 75. -/
def captureDone (e : Nat) (r : List Word) (p : Q × Q × Q) (id iq : Q) (ang : Word) (emf : Q × Q) (L : Lane) : Lane :=
  let m := meOf L e
  let dth : Int := Int.tdiv m.capSum ((tNCap r : Int) - 1)
  let w := (qSat false dth).div (tq r 1)
  let turn := w.mul (tq r 1)
  let mixed := (decide (0 < m.capSum) && m.capNeg) || (decide (m.capSum < 0) && m.capPos)
  goOn e (fun L0 =>
    if mixed || decide (w.abs.v < (tq r 20).v) then toHfiCapture e r p id iq L0
    else
      let q : Int := if 0 ≤ w.v then 2 ^ 30 else -(2 ^ 30)
      let th : Word := BitVec.ofInt 32 ((ang.toNat : Int) - q + turn.v)
      let L1 := ((L0.put (F.MEe_THETA_VALUE e) th).put (F.MEe_OMEGA_VALUE e) w.w).put (F.MEe_IDFW_VALUE e) 0
      let L2 := setMe e { meOf L1 e with ihAl := 0, ihBe := 0, ehAl := emf.1.w, ehBe := emf.2.w, iD := 0, iQ := 0 } L1
      drivenFrom6 e r p id iq true (meEvent e 1 (enterDriven e (firstRegime r w) L2)))
    (meArith e r (turn.f || w.abs.f) L)

/-- A step in CAP_EMF (R263). DEDUCED: log 75. -/
def captureStep (e : Nat) (r : List Word) (p : Q × Q × Q) (id iq : Q) (L : Lane) : Lane :=
  if !meRun e L then noVector e (meOff e L)
  else
    let m := meOf L e
    let L0 := noVector e (setMe e { m with capStep := m.capStep + 1 } L)
    if m.capStep < 8 then L0
    else
      let emf := lineEmf e L0
      let em := qSqrt (emf.1.f || emf.2.f) (emf.1.v * emf.1.v + emf.2.v * emf.2.v)
      let room := (meScale e 5 L0).sub (tq r 41)
      let line := qGain (qInt 0x6ED9EBA1) 1 em
      goOn e (fun L0 =>
        if room.v ≤ line.v then
          let L1 := (setMe e { meOf L0 e with
            capN := 0, capLow := 0, capSum := 0, capPos := false, capNeg := false, capSaid := true } L0).setB
            (F.MEe_STAT_CHOP_REQ e) true
          if m.capSaid then L1 else meFault e 13 L1
        else
          let L1 := L0.setB (F.MEe_STAT_CHOP_REQ e) false
          if em.v < (tq r 12).v then
            if 8 ≤ m.capLow + 1 then toHfiCapture e r p id iq L1
            else setMe e { meOf L1 e with capLow := m.capLow + 1 } L1
          else
            let ang := vecAngle emf.1.v emf.2.v
            let d : Int := if m.capN = 0 then 0 else (ang - m.capAng).toInt
            let L2 := setMe e { meOf L1 e with
              capN := m.capN + 1, capAng := ang, capSum := m.capSum + d, capPos := m.capPos || decide (0 < d)
              capNeg := m.capNeg || decide (d < 0) } L1
            if tNCap r ≤ m.capN + 1 then captureDone e r p id iq ang emf L2 else L2)
        (meArith e r (room.f || line.f) L0)

/-- The polarity test begins (R264). DEDUCED: log 75. -/
def polBegin (e : Nat) (L : Lane) : Lane := setMe e { meOf L e with hfiPhase := 1, hfiStep := 0 } L

/-- The verdict of the polarity test, after the last step of the negative pulse (R264). DEDUCED: log 75. -/
def polVerdict (e : Nat) (L : Lane) : Lane :=
  let m := meOf L e
  if 16 * ((m.polP - m.polN).natAbs : Int) < max m.polP m.polN then
    meFault e 5 ((meOff e L).inc (F.MEe_ERR_CAPFAIL_CNT e))
  else
    let L1 := if m.polP < m.polN then L.put (F.MEe_THETA_VALUE e) (meTh e L + 0x80000000) else L
    (meEvent e 1 (enterDriven e 3 L1)).setB (F.MEe_STAT_RAMP e) true

/-- A step in CAP_HFI (R264). DEDUCED: log 75. -/
def hfiCapStep (e : Nat) (r : List Word) (p : Q × Q × Q) (id iq : Q) (L : Lane) : Lane :=
  if !meRun e L then noVector e (meOff e L)
  else
    let L0 := if (meOf L e).hfiPhase = 0 ∧ 256 ≤ (meOf L e).hfiStep then polBegin e L else L
    let m := meOf L0 e
    let drive (pulse : Option Int) : Lane → Lane := driveStep e r p id iq (qInt 0, qInt 0) pulse
    if m.hfiPhase = 0 then
      let t := trackHfi e r iq L0
      goOn e (fun a => drive none (setMe e { meOf a e with hfiStep := m.hfiStep + 1 } a)) (meArith e r t.2 t.1)
    else if m.hfiPhase = 1 then
      let m1 := { m with polP := max m.polP id.v, hfiStep := m.hfiStep + 1 }
      let m2 := if tNPol r ≤ m1.hfiStep then { m1 with hfiPhase := 2, hfiStep := 0 } else m1
      drive (some (tq r 14).v) (setMe e m2 L0)
    else
      let L1 := drive (some (-(tq r 14).v)) (setMe e { m with polN := max m.polN (-id.v), hfiStep := m.hfiStep + 1 } L0)
      if m.hfiStep + 1 < tNPol r then L1 else goOn e (polVerdict e) L1

/-- Stages 3 to 9 in a driven regime (R251); what is formed after a fault has forced the engine is discarded (R268). -/
def drivenStep (e : Nat) (r : List Word) (p : Q × Q × Q) (pk : Q × Q × Q × Q) (L : Lane) : Lane :=
  let id := pk.2.2.1
  let iq := pk.2.2.2
  let o := observe e r (meOf L e).v2Al (meOf L e).v2Be pk.1 pk.2.1 L
  goOn e (fun c =>
    if meReg e c = 2 then hfiCapStep e r p id iq c
    else
      let t := if meReg e c = 3 then trackHfi e r iq c else trackEmf e r c
      goOn e (fun a => drivenFrom6 e r p id iq false (stage5 e r a)) (meArith e r t.2 t.1))
    (obsCheck e r o.2.2 (meArith e r (o.2.1 || id.f || iq.f) o.1))

/-- Stages 3 to 9 (R251): in ASC the observer and the tracking loop run on the vector 0 (R253, R254); SAFE_OFF holds (R256). -/
def stepFrom3 (e : Nat) (r : List Word) (L : Lane) : Lane :=
  let p := phases e L
  let pk := park p (meTh e L)
  let id := pk.2.2.1
  let iq := pk.2.2.2
  let L1 := match meReg e L with
    | 0 => noVector e (if meRun e L then startCap e 1 L else L)
    | 1 => captureStep e r p id iq L
    | 7 =>
      let o := observe e r 0 0 pk.1 pk.2.1 L
      let t := trackEmf e r o.1
      noVector e (meArith e r (o.2.1 || t.2) t.1)
    | 8 => noVector e L
    | _ => drivenStep e r p pk L
  keepCurrents e id iq L1

/-- One step of engine `e`, in every regime and while the engine is forced (R250, R251). A fault that forces the engine ends the step
(R268); a record that cannot be read stops it (R39). DEDUCED: log 74. -/
def meStep (e : Nat) (L : Lane) : Lane :=
  if !L.b (F.MEe_STAT_LOADED e) then L
  else
    match meTable e L with
    | (none, L1) => L1
    | (some r, L1) =>
      let L2 := stage1 e r L1
      let L3 := ladder e r (meScale e 5 L2) L2
      if L3.b (F.MEe_STAT_FORCED e) && !L.b (F.MEe_STAT_FORCED e) then meFlush L3 else meFlush (meEvent e 6 (stepFrom3 e r L3))

/-- Forcing from EXCLUDE_LANE ends: the engines enter OFF (R268). -/
def unforceEngines (L : Lane) : Lane :=
  forEach [0, 1] (fun e a =>
    if a.b (F.MEe_STAT_FORCED e) && !a.b F.LSM_STAT_IMM then meOff e (a.setB (F.MEe_STAT_FORCED e) false) else a) L

/-- An effect on an engine that is live and holds its tables, with its table record. -/
def onEngine (e : Nat) (f : List Word → Lane → Lane) (L : Lane) : Lane :=
  if L.live && L.b (F.MEe_STAT_LOADED e) then
    match meTable e L with
    | (none, L1) => L1
    | (some r, L1) => meFlush (f r L1)
  else L

def execRegimeSwitch (l : LaneId) (e : Fin 2) (s : State) : Host.Outcome State Fault Refusal :=
  .next (s.onLane l (onEngine e.val (fun r L =>
    match (transitions e.val r L).find? (fun t => t.2.2) with
    | some t => enterDriven e.val t.1 L
    | none => L)))

def execCaptureTimeout (l : LaneId) (e : Fin 2) (s : State) : Host.Outcome State Fault Refusal :=
  .next (s.onLane l (onEngine e.val (fun r L =>
    if meReg e.val L = 1 ∧ (meOf L e.val).capN < tNCap r then startHfi e.val L else L)))

def execHfiSettleEnd (l : LaneId) (e : Fin 2) (s : State) : Host.Outcome State Fault Refusal :=
  .next (s.onLane l (onEngine e.val (fun _ L =>
    if meReg e.val L = 2 ∧ (meOf L e.val).hfiPhase = 0 ∧ 256 ≤ (meOf L e.val).hfiStep then polBegin e.val L else L)))

/-- The recovery conditions have held for 100 ms (R267). DEDUCED: log 75. -/
def ascRecover (e : Nat) (r : List Word) (L : Lane) : Lane :=
  if meReg e L = 7 ∧ ¬ L.b (F.MEe_STAT_FORCED e) ∧ (meOf L e).ladder ∧ ¬ (meOf L e).exhausted ∧ (meScale e 5 L).v < (tq r 37).v ∧
      (meW e L).abs.v < (tq r 38).v then
    if meRun e L then
      if L.n (F.MEe_STAT_REC_CNT e) < 3 then meEvent e 4 (startCap e 0 (L.inc (F.MEe_STAT_REC_CNT e))) else L
    else meOff e L
  else L
def execAscRecovery (l : LaneId) (e : Fin 2) (s : State) : Host.Outcome State Fault Refusal :=
  .next (s.onLane l (onEngine e.val (ascRecover e.val)))

def execStepMissing (l : LaneId) (e : Fin 2) (s : State) : Host.Outcome State Fault Refusal :=
  .next (s.onLane l (onEngine e.val (fun _ L =>
    if 2 ≤ meReg e.val L ∧ meReg e.val L ≤ 6 then safeOff e.val 3 L else L)))

def execOvercurrent (l : LaneId) (e : Fin 2) (s : State) : Host.Outcome State Fault Refusal :=
  .next (s.onLane l (onEngine e.val (fun r L =>
    if ocNow r (phases e.val L) then overCurrent e.val L else L)))

/-- The observer diverges now: the present current error exceeds its limit in OBS, PA or FW (R271). -/
def obsDiverged (e : Nat) (r : List Word) (L : Lane) : Bool :=
  let pk := park (phases e L) (meTh e L)
  let a := (pk.1.sub (qOf (meOf L e).ihAl)).v
  let b := (pk.2.1.sub (qOf (meOf L e).ihBe)).v
  decide (4 ≤ meReg e L ∧ meReg e L ≤ 6) && decide ((tq r 44).v * (tq r 44).v < a * a + b * b)
def execObsDiverge (l : LaneId) (e : Fin 2) (s : State) : Host.Outcome State Fault Refusal :=
  .next (s.onLane l (onEngine e.val (fun r L =>
    if obsDiverged e.val r L then meFault e.val 4 (setMe e.val { meOf L e.val with obsSaid := true } L) else L)))

def execVdcLow (l : LaneId) (e : Fin 2) (s : State) : Host.Outcome State Fault Refusal :=
  .next (s.onLane l (onEngine e.val (fun r L =>
    if (meScale e.val 5 L).v < (tq r 40).v then
      meFault e.val 11 (setMe e.val { meOf L e.val with vlowSaid := true } L)
    else L)))

def meErrFlds (e : Nat) : List Fld :=
  [F.MEe_ERR_OC_CNT e, F.MEe_ERR_STALE_CNT e, F.MEe_ERR_CAPFAIL_CNT e, F.MEe_ERR_SAT_CNT e]
def execMeErrClr (l : LaneId) (e : Fin 2) (val : Word) (s : State) : Host.Outcome State Fault Refusal :=
  .next (s.onLane l (whenLive (clearBy (meErrFlds e.val) val)))
def execAdcErrClr (l : LaneId) (val : Word) (s : State) : Host.Outcome State Fault Refusal :=
  .next (s.onLane l (whenLive (clearBy [F.ADC_ERR_CONV_CNT] val)))

/-- A converter pair, and its replacement. -/
def pairOf (L : Lane) (p : Nat) : AdcPair := nth L.adc p default
def setPair (p : Nat) (x : AdcPair) (L : Lane) : Lane := { L with adc := setNth L.adc p x }
def seqCnt (p : Nat) : Fld := if p = 0 then F.ADC_SEQCNT_CNT0 else F.ADC_SEQCNT_CNT1
def seqNo (p : Nat) : Fld := if p = 0 then F.ADC_STAT_SEQ0 else F.ADC_STAT_SEQ1

/-- An ADC_SEQ action starts sequence `q` on pair `p` (R245, R246); the pair converts nothing at that time. -/
def adcStart (p q : Nat) (L : Lane) : Lane :=
  let rec0 := ((secOf L 0x10).bytes.drop (32 * q)).take 32
  let n := bAt rec0 0 % 16
  let ins := (((List.range (2 * n)).map (fun j => bAt rec0 (4 + j))).filter (fun i => decide (i ≤ 32)))
  (setPair p ⟨ins, decide (bAt rec0 1 % 2 = 1)⟩ (L.setBit F.ADC_STAT_BUSY p true)).putN (seqNo p) q

/-- What a completed conversion of an input feeds: the ladder, the chopper, the valve limits (R265, R289, R299). -/
def adcFeeds (n code : Nat) (L : Lane) : Lane :=
  let L1 := if n = 5 ∨ n = 12 then
      let e := if n = 5 then 0 else 1
      let v := meScale e 5 L
      let L1 := L.put (F.MEe_VDC_VALUE e) v.w
      let L2 := onEngine e (fun r a => ladder e r v a) L1
      let v0 := (L2.fld (F.MEe_VDC_VALUE 0)).toInt
      let v1 := (L2.fld (F.MEe_VDC_VALUE 1)).toInt
      if motRuns L2 then chopper (BitVec.ofInt 32 (max v0 v1)) L2 else L2
    else L
  if 14 ≤ n ∧ n ≤ 21 then vduConversion (n - 14) code L1 else L1

/-- A conversion of input `n` on pair `p` completes with a code, or is lost, a fault of PLIC source 66 (R53, R246, R271). -/
def conversion (p n : Nat) (code : Option (BitVec 14)) (L : Lane) : Lane :=
  if motRuns L && L.bit F.ADC_STAT_BUSY p && (pairOf L p).ins.contains n then
    match code with
    | none => plicRaise 66 (raise 0x08E (L.inc F.ADC_ERR_CONV_CNT))
    | some c =>
      let pp := pepper 0xB n (fun _ => true) L
      let ofs : Int := match pp.1 with
        | some prm => sext16 (bitsOf prm 0 16)
        | none => 0
      let v := (min (max ((c.toNat : Int) + ofs) 0) 16383).toNat
      let L1 := ((pp.2.setB (F.ADC_RESn_VALID n) true).putN (F.ADC_RESn_CODE n) v).putN (F.ADC_RESn_TAG n)
        ((pp.2.n (seqCnt p) + 1) % 65536)
      adcFeeds n v { L1 with lpe := { L1.lpe with conv := setNth L1.lpe.conv n (nth L1.lpe.conv n 0 + 1) } }
  else L
def execAdcConversionComplete (l : LaneId) (pair : Fin 2) (n : Fin 33) (code : Option (BitVec 14)) (s : State) :
    Host.Outcome State Fault Refusal := .next (s.onLane l (conversion pair.val n.val code))

/-- A sequence completes (R246). -/
def sequenceDone (p : Nat) (L : Lane) : Lane :=
  if motRuns L && L.bit F.ADC_STAT_BUSY p then
    let L1 := setPair p default ((L.setBit F.ADC_STAT_BUSY p false).incMod (seqCnt p))
    if (pairOf L p).irq then cdspIrq (1 + p) (plicRaise 65 L1) else L1
  else L
def execAdcSequenceComplete (l : LaneId) (pair : Fin 2) (s : State) : Host.Outcome State Fault Refusal :=
  .next (s.onLane l (sequenceDone pair.val))

end Sys2Proof.Machine
end

