-- ==== Sys2Proof/Machine/Modes.lean ====
section
/-! DEFINITION. The mode sequencer: requests, decisions, edges, banks and point switches (R58 to R86), and the abort points of
Dormant entry (R408, R410). -/

namespace Sys2Proof.Machine

/-- An update of the sequencer's own state. -/
def withTls (f : TlsSt → TlsSt) (L : Lane) : Lane := { L with tls := f L.tls }

/-- An entry of a timeline list (R106). -/
structure TlEnt where
  pexp : Nat
  phase : Nat
  arg : Nat
  target : Nat
  action : Nat
  offset : Nat
deriving DecidableEq, Repr, Inhabited

/-- An entry from its 64 bits. -/
def entOf (w : Word64) : TlEnt :=
  { pexp := bitsOf64 w 56 3, phase := bitsOf64 w 50 6, arg := bitsOf64 w 34 16, target := bitsOf64 w 26 8
    action := bitsOf64 w 18 8, offset := bitsOf64 w 0 18 }

/-- An entry fires in cycle `c` (R106). -/
def entFires (e : TlEnt) (c : Nat) : Bool := decide (e.pexp < 7 ∧ c % 2 ^ e.pexp = e.phase)

/-- The address of entry `i` of a bank (R37). -/
def entAddr (bank i : Nat) : Nat := tlBase + 131072 * bank + 8 * i

/-- The running bank and the number of entries of its list. -/
def curBank (L : Lane) : Nat := L.n F.TLS_STAT_BANK
def curEntries (L : Lane) : Nat := (curRec L).tlEntries

/-- An unreadable entry is dropped and counted, source 0x07A beside that of the memory (R115). -/
def entryLost (L : Lane) : Lane := raise 0x07A (L.inc F.TLS_ERR_LOST_CNT)

/-- The position in a new list: after its CKPT entry at the cycle, segment and OFFSET of the one that has just issued, or the
first entry later than that (R113); an entry that cannot be read is lost (R115). `s` is the segment that entry `i` lies in. -/
def posAfter (bank c seg off : Nat) : Nat → Nat → Nat → Lane → Nat × Lane
  | 0, i, _, L => (i, L)
  | fuel + 1, i, s, L =>
    match readD (entAddr bank i) L with
    | (none, L1) => posAfter bank c seg off fuel (i + 1) s (entryLost L1)
    | (some w, L1) =>
      let e := entOf w
      let here := entFires e c && decide (s = seg ∧ e.offset = off)
      if e.action = 0x01 then posAfter bank c seg off fuel (i + 1) 1 L1
      else if here && decide (e.action = 0x40) then (i + 1, L1)
      else if here || decide (seg < s ∨ (s = seg ∧ off < e.offset)) then (i, L1)
      else posAfter bank c seg off fuel (i + 1) s L1

/-- The state of the bank that holds a target: READY wins, then LOADING, then FAILED (R83). DEDUCED: log 36. -/
def bankWith (L : Lane) (p st : Nat) : Option Nat :=
  (List.range 8).find? (fun n => decide (L.n (F.TLS_MS_BANKn_POINT n) = p ∧ L.n (F.TLS_MS_BANKn_STATE n) = st))
def bankState (L : Lane) (p : Nat) : Nat :=
  if (bankWith L p 2).isSome then 2
  else if (bankWith L p 1).isSome then 1
  else if L.tls.failedPts.contains p then 3
  else 0

/-- The targets of a point in the order of R82: SAFE, FAULT by index, the rest by index. -/
def loadOrder (L : Lane) : List Nat :=
  let es := edgesOf L (curRec L)
  let of (ks : List Nat) : List Nat := (es.filter (fun e => ks.contains e.2.kind)).map (fun e => e.2.target)
  (of [kSafe] ++ of [kFault] ++ of [kReq, kAuto, kService]).eraseDups

/-- A bank shows a state and a point. -/
def setTlBank (n st p : Nat) (L : Lane) : Lane := (L.putN (F.TLS_MS_BANKn_STATE n) st).putN (F.TLS_MS_BANKn_POINT n) p

/-- The next missing target begins to load into the lowest free bank, one bank at a time (R82); a target whose load failed
is not loaded again (R83). -/
def startLoad (L : Lane) : Lane :=
  if L.tls.loading.isSome then L
  else
    let want := (loadOrder L).find? (fun p =>
      (bankWith L p 2).isNone && !L.tls.failedPts.contains p)
    let free := (List.range 8).find? (fun n =>
      decide (n ≠ curBank L ∧ (L.n (F.TLS_MS_BANKn_STATE n) = 0 ∨ L.n (F.TLS_MS_BANKn_STATE n) = 3)))
    match (match L.tls.lateSwitch with
      | some p => if (bankWith L p 2).isNone && !L.tls.failedPts.contains p then some p else want
      | none => want), free with
    | some p, some n =>
      (withTls (fun t => { t with loading := some (n, p) }) (setTlBank n 1 p L)).setB F.TLS_MS_STAT_PRELOAD_BUSY true
    | _, _ => L

/-- On entry to a point the banks of its targets stay; the others are free, and what they were loading is dropped (R82,
R83). DEDUCED: log 36. -/
def enterSets (L : Lane) : Lane :=
  let ts := loadOrder L
  let keep (n : Nat) : Bool := decide (n = curBank L) ||
    (ts.contains (L.n (F.TLS_MS_BANKn_POINT n)) && decide (L.n (F.TLS_MS_BANKn_STATE n) ≠ 3))
  let L1 := forEach (List.range 8) (fun n a => if keep n then a else setTlBank n 0 0x7F a) L
  let drop : Bool := match L.tls.loading with
    | some (n, _) => !keep n
    | none => false
  let L2 := if drop then (withTls (fun t => { t with loading := none }) L1).setB F.TLS_MS_STAT_PRELOAD_BUSY false else L1
  startLoad (withTls (fun t => { t with failedPts := [] }) L2)

/-- The eMRAM address of a Masala slot (R97). -/
def masalaSlot (n : Nat) : Nat := 0x08400000 + 0x200000 * n

/-- A bank load ends: all its entries read, the bank is READY; an uncorrectable error makes it FAILED (R82, R83). -/
def bankLoaded (L : Lane) : Lane :=
  match L.tls.loading with
  | none => L
  | some (n, p) =>
    let pt := pointRec L p
    let r := readBytes (masalaSlot (L.n F.TLS_IMG_STAT_ASLOT) + pt.tlOff) (8 * pt.tlEntries) L
    let L1 := (withTls (fun t => { t with loading := none }) r.2).setB F.TLS_MS_STAT_PRELOAD_BUSY false
    startLoad (match r.1 with
      | some bs => setTlBank n 2 p (writeBytes (entAddr n 0) bs L1).2
      | none => raise 0x07D (setTlBank n 3 p (withTls (fun t => { t with failedPts := p :: t.failedPts }) L1)))

def execBankLoadComplete (l : LaneId) (s : State) : Host.Outcome State Fault Refusal :=
  .next (s.onLane l (whenLive bankLoaded))

/-- The sequencer's substate. -/
def substate (L : Lane) : Nat := L.n F.TLS_MS_STAT_SUBSTATE
def setSubstate (v : Nat) (L : Lane) : Lane := L.putN F.TLS_MS_STAT_SUBSTATE v
def curMode (L : Lane) : Nat := L.n F.TLS_MS_STAT_MODE

/-- An image runs and a point is current. -/
def pointValid (L : Lane) : Bool := L.b F.TLS_MS_CFG_IMG_VALID && decide (curPoint L < L.n F.TLS_MS_CFG_NPOINTS)

/-- Hold (R61): the substate, and every valve drive that depends on the mode. -/
def enterHold (L : Lane) : Lane :=
  vduEnable (setSubstate 7 (withTls (fun t => { t with edgeDue := none, lossDue := false, netDue := false
                                                       safeReact := false }) L))

/-- The held request ends; its descriptor completes as `flushReq` says (R80, R84). -/
def reqFinish (err st det : Nat) (L : Lane) : Lane :=
  match L.tls.reqWord with
  | none => L
  | some _ => withTls (fun t =>
      { t with reqWord := none, reqStage := 0, reqAge := 0, reqEnd := some (err, st, det, t.reqAge) }) L

/-- The held request is rejected (R84). -/
def reqReject (reason : Nat) (L : Lane) : Lane :=
  match L.tls.reqWord with
  | none => L
  | some w => reqFinish reason stRejected (reason * 256) (msRejected (bitsOf w 0 8) reason L)

/-- The descriptor of an ended request completes. -/
def flushReq (ld : LD) : LD :=
  match ld.1.tls.reqEnd with
  | none => ld
  | some (err, st, det, age) =>
    let ld1 := onL (withTls (fun t => { t with reqEnd := none })) ld
    match (getEng ld1.1 6).run with
    | some r => finish 6 { r with progress := age } err st (toW det) ld1
    | none => ld1

/-- An effect on a lane, after which an ended request completes. -/
def onLaneReq (l : LaneId) (f : Lane → Lane) (s : State) : State := onDie l (fun ld => flushReq (onL f ld)) s

/-- A mode request is checked and held (R71, R72). DEDUCED: log 35. -/
def modeRequest (ld : LD) : LD :=
  match runningOp ld.1 6 0x01 with
  | none => ld
  | some r =>
    if ld.1.tls.reqWord.isSome then ld
    else if r.d.length ≠ 4 then finish 6 r 1 stRejected 0x100 (onL (msRejected 0 1) ld)
    else
      match iovaReadN 6 r.d.ctx r.d.src 4 ld with
      | (.error e, ld1) => finishErr 6 r e ld1
      | (.ok bs, ld1) =>
        let w := leWord bs
        let code := bitsOf w 0 8
        if code = 0 ∨ bitsOf w 8 8 ≠ 0 then finish 6 r 1 stRejected 0x100 (onL (msRejected code 1) ld1)
        else if ld1.1.b F.CLV_STAT_EXCL then finish 6 r 0xC stRejected 0xC00 (onL (msRejected code 0xC) ld1)
        else onL (withTls (fun t => { t with reqWord := some w, reqStage := 0, reqAge := 0 })) ld1

def execModeRequest (l : LaneId) (s : State) : Host.Outcome State Fault Refusal := .next (onDie l modeRequest s)

/-- The request word that the checkpoint samples (R72); an abort of the request's ring ends it here (R140).
DEDUCED: log 35. -/
def sampleReq (L : Lane) : Word × Lane :=
  match L.tls.reqWord with
  | none => (0, L)
  | some w =>
    let aborted : Bool := match (getEng L 6).run with
      | some r => r.abort
      | none => false
    if aborted then (0, reqFinish 1 stAborted 0 L)
    else if L.b F.CLV_STAT_EXCL then (0, reqReject 0xC L)
    else if L.tls.reqStage = 0 then (w, withTls (fun t => { t with reqStage := 1, reqAge := 0 }) L)
    else (w, L)

/-- One more checkpoint since a held request was first sampled (R84). -/
def ageReq (L : Lane) : Lane :=
  if L.tls.reqWord.isSome && decide (L.tls.reqStage ≠ 0) then withTls (fun t => { t with reqAge := t.reqAge + 1 }) L else L

/-- The lane-set code that the sequencer sees, and the number of lanes of a code. DEDUCED: log 37. -/
def setCode (L : Lane) : Nat := L.n F.CLV_STAT_LANESET
def laneCount (code : Nat) : Nat := if code = 0 then 3 else if code ≤ 3 then 2 else if code ≤ 6 then 1 else 0

/-- A point allows the current lane set; its networks are up. In Hold no set has formed, and none is excluded (R62).
DESIGN CHOICE: log 37. -/
def allowsSet (L : Lane) (p : Point) : Bool :=
  (decide (setCode L ≤ 6) && p.laneset.testBit (setCode L)) || (decide (setCode L = 7) && decide (substate L = 7))
def netsUp (L : Lane) (p : Point) : Bool :=
  (List.range 3).all (fun b => !p.netset.testBit b || (L.n F.TLS_MS_STAT_NETUP).testBit b)

/-- The structural checks of R74 on a request code; 0 where all pass. DEDUCED: log 35. -/
def structural (code : Nat) (L : Lane) : Nat :=
  let p := curRec L
  let es := edgesOf L p
  if curMode L = mStartup ∧ (substate L = 4 ∨ substate L = 5) then 0xD
  else if code = 0xFF then
    if L.lcs.svc ∧ curPoint L = 0 ∧ curMode L = mStartup ∧ (substate L = 6 ∨ substate L = 7) then 0 else 8
  else if curMode L = mSafeStop ∧ (¬ L.lcs.svc ∨ ¬ es.any (fun e => decide (e.2.kind = kService ∧ e.2.req = code))) then 7
  else
    match es.find? (fun e => decide ((e.2.kind = kReq ∨ e.2.kind = kService) ∧ e.2.req = code)) with
    | none => 3
    | some e =>
      let t := pointRec L e.2.target
      if (t.mode = mRoad ∨ t.mode = mField) ∧ laneCount (setCode L) < 2 then 4
      else if !allowsSet L t then 5
      else if !netsUp L t then 6
      else 0

/-- The agreed words 0 to 2 of a round, in a lane whose vector is the members' where `same` (R64, R73, R74, R78).
DEDUCED: log 35. -/
def msAgreed (req netstat lanestat : Word) (same : Bool) (L : Lane) : Lane :=
  let L0 := L.putN F.TLS_MS_STAT_NETUP (bitsOf netstat 0 3)
  let mem (b : Nat) : Bool := (List.range 3).any (fun x => L.clv.members.getLsbD x && bitAt lanestat (8 * x + b))
  let p := curRec L
  let netdown := same && pointValid L && decide (p.mode = mRoad ∨ p.mode = mField ∨ p.mode = mDegraded) && !netsUp L0 p
  let L1 := withTls (fun t => { t with
    svcAny := mem 7, safeReact := t.safeReact || (same && mem 4), netDue := t.netDue || netdown, guardCode := 0 }) L0
  let own := L1.tls.reqWord.isSome && decide (0 < L1.tls.reqStage)
  let mine := own && decide (L1.tls.reqWord = some req)
  let code := bitsOf req 0 8
  let accept (L : Lane) : Lane :=
    if code = 0xFF then withTls (fun t => { t with svcHoldDue := true }) L
    else withTls (fun t => { t with guardCode := code }) L
  let L2 := if req ≠ 0 ∧ pointValid L1 ∧ ¬ mine ∧ structural code L1 = 0 then accept L1 else L1
  if !own then L2
  else if req = 0 then (if L2.tls.reqStage = 1 ∧ 3 ≤ L2.tls.reqAge then reqReject 2 L2 else L2)
  else if !mine then reqReject 2 L2
  else if (L2.tls.reqStage = 1 ∨ L2.tls.reqStage = 3) ∧ pointValid L2 then
    match structural code L2 with
    | 0 => accept (withTls (fun t => { t with reqStage := 2 }) L2)
    | r => reqReject r L2
  else if L2.tls.reqStage = 2 then withTls (fun t => { t with guardCode := code }) L2
  else L2

/-- An invalid decision (R81): source 0x07C, and the request that it answers ends. -/
def badDecision (mine : Bool) (reason : Nat) (L : Lane) : Lane :=
  let L1 := raise 0x07C L
  if mine then reqReject reason L1 else L1

/-- A voted decision word, or none where the lanes split on it (R75 to R77, R81). A SERVICE edge needs SERVICE in force (R59); a
request that it answers is else MODE_LOCKED. DESIGN CHOICE: log 36. -/
def decision (word : Option Word) (L : Lane) : Lane :=
  if !pointValid L || L.tls.lateSwitch.isSome || (decide (curMode L = mStartup ∧ substate L ≠ 6 ∧ substate L ≠ 7)) then L
  else
    match word with
    | none => let L1 := raise 0x07E L
              if L1.tls.reqStage = 2 then reqReject 0xB L1 else L1
    | some w =>
      let code := bitsOf w 24 8
      let heldCode : Nat := match L.tls.reqWord with
        | some q => if L.tls.reqStage = 2 then bitsOf q 0 8 else 0
        | none => 0
      let mine := bitAt w 11 && decide (heldCode ≠ 0 ∧ heldCode = code)
      let ei := bitsOf w 8 3
      if bitsOf w 0 7 ≠ curPoint L then badDecision mine 0xB L
      else if !bitAt w 7 then (if mine then reqReject (bitsOf w 16 8) L else L)
      else if L.tls.edgeDue.isSome then L
      else if (curRec L).edgeCnt ≤ ei then badDecision mine 0xA L
      else
        let e := edgeAt L (curRec L) ei
        if e.kind = kFault ∨ e.kind = kSafe ∨ kService < e.kind then badDecision mine 0xB L
        else if e.kind ≠ kAuto ∧ L.tls.guardCode ≠ e.req ∧ heldCode ≠ e.req then L
        else if e.kind = kService ∧ ¬ L.lcs.svc then (if mine then reqReject 7 L else L)
        else if bankState L e.target ≠ 2 ∨ (e.kind = kAuto ∧ curPoint L = 0 ∧ L.tls.svcAny) then badDecision mine 0xA L
        else if substate L = 7 ∧ (pointRec L e.target).mode ≠ mDormant then L
        else withTls (fun t => { t with edgeDue := some (ei, mine) }) L

/-- Dormant entry is abandoned at an abort point (R410): recorded, PLIC source 1, source 0x006; rings may fetch again. -/
def dormAbandon (ap : Nat) (L : Lane) : Lane :=
  let src := ((List.range 8).find? (fun k => L.pwr.wakePend.getLsbD k)).getD 0
  let L1 := { L with
    pwr := { L.pwr with dormStep := 0, wakePend := 0, ap2Abandon := if ap = 2 then some L.time else none }
    ring := { L.ring with noFetch := false } }
  let L2 := (((L1.setB F.AOS_DORM_ENTRY false).setB F.AOS_WAKE_LAST_DORMANT false).putN F.AOS_WAKE_LAST_AP ap).putN
    F.AOS_WAKE_LAST_SRC src
  raise 0x006 (plicRaise 1 ((L2.put F.AOS_WAKE_TIME_TIME (L2.fld F.AOS_TMR_TMR)).inc F.AOS_ERR_ABANDON_CNT))

/-- An abort point of Dormant entry is reached: passed with step `next` begun, or entry is abandoned (R408, R410). -/
def dormPoint (ap next : Nat) (L : Lane) : Lane :=
  let L1 := (L.putN F.AOS_DORM_PASSED ap).setB F.AOS_DORM_ENTRY true
  if L1.pwr.wakePend ≠ 0 then dormAbandon ap L1
  else { L1 with pwr := { L1.pwr with dormStep := next }, ring := { L1.ring with noFetch := true } }

/-- The target becomes the current point, with its bank, sets and mode; the list goes on after its CKPT entry (R80, R95,
R113). DEDUCED: log 17. -/
def switchTo (p : Nat) (L : Lane) : Lane :=
  match bankWith L p 2 with
  | none => L
  | some n =>
    let old := curBank L
    let pt := pointRec L p
    let L1 := ((L.setB (F.TLS_MS_BANKn_CURRENT old) false).setB (F.TLS_MS_BANKn_CURRENT n) true).putN F.TLS_STAT_BANK n
    let nx := posAfter n (L1.n F.TLS_STAT_CYCLE) (L1.n F.TLS_OFFSET_SEG) (L1.n F.TLS_OFFSET_OFFSET) pt.tlEntries 0 0 L1
    let L2 := ((nx.2.putN F.TLS_MS_STAT_POINT p).putN F.TLS_MS_STAT_MODE pt.mode).put F.TLS_MS_CKPT_CKPT L1.ckpt
    let L3 := setSubstate (if pt.mode = mStartup then 6 else 0xF) L2
    let L4 := withTls (fun t => { t with
      pos := nx.1, edgeDue := none, safeWait := false, faultWait := false, lateSwitch := none }) L3
    let L5 := lpeSelect (enterSets (plicRaise 49 L4))
    let L6 := vduEnable { L5 with dsp := { L5.dsp with aguPoint := pt.agu } }
    if pt.mode = mDormant then dormPoint 0 1 L6 else L6

/-- Edge `i` of the current point is taken (R80); a request that it answers is DONE, another goes back to R74 (R81).
DEDUCED: log 36. -/
def takeEdge (i : Nat) (mine : Bool) (L : Lane) : Lane :=
  let frm := curPoint L
  let e := edgeAt L (curRec L) i
  let L1 := (((L.putN F.TLS_MS_LAST_EDGE i).putN F.TLS_MS_LAST_KIND e.kind).putN F.TLS_MS_LAST_TO e.target).putN
    F.TLS_MS_LAST_FROM frm
  let L2 := evrEvent 3 (at' 20 i ||| at' 16 e.kind ||| at' 8 e.target ||| at' 0 frm) (switchTo e.target L1)
  let L3 := if (e.kind = kFault ∨ e.kind = kSafe) ∧ L2.b F.EVR_FRZCFG_EDGE then (freezeTrigger 2 L2).1 else L2
  if mine then reqFinish 0 stDone e.target L3
  else if L3.tls.reqStage = 2 then withTls (fun t => { t with reqStage := 3 }) L3 else L3

/-- The SAFE edge of the current point is due: taken, or waited for with source 0x07F raised once (R81).
DEDUCED: log 36. -/
def safeEdge (L : Lane) : Lane :=
  match (edgesOf L (curRec L)).find? (fun e => decide (e.2.kind = kSafe)) with
  | none => L
  | some e =>
    if bankState L e.2.target = 2 then takeEdge e.1 false L
    else
      let L1 := withTls (fun t => { t with safeWait := true, faultWait := false }) L
      if L.tls.safeWait then L1 else raise 0x07F L1

/-- A FAULT edge is due: the first allowed edge whose bank is READY; a wait while one may still load; else SAFE (R81).
DEDUCED: log 36. -/
def faultEdge (L : Lane) : Lane :=
  let cands := (edgesOf L (curRec L)).filter (fun e =>
    decide (e.2.kind = kFault) && allowsSet L (pointRec L e.2.target) && netsUp L (pointRec L e.2.target))
  match cands.find? (fun e => decide (bankState L e.2.target = 2)) with
  | some e => takeEdge e.1 false L
  | none =>
    if cands.any (fun e => decide (bankState L e.2.target ≠ 3)) then withTls (fun t => { t with faultWait := true }) L
    else safeEdge L

/-- The triggers of R78 at a boundary: which of no edge (0), FAULT (1) and SAFE (2) is due. An excluded lane's own reactions
take none (R79). -/
def edgeTrigger (L : Lane) : Nat :=
  let m := (curRec L).mode
  let t := L.tls
  let simplex := decide (4 ≤ setCode L ∧ setCode L ≤ 6)
  let own := !L.b F.CLV_STAT_EXCL
  if m = mRoad ∨ m = mField then
    if t.safeReact || simplex || t.safeWait then 2
    else if (L.lsm.degradePend && own) || t.lossDue || t.netDue || t.faultWait then 1
    else 0
  else if m = mDegraded then
    if t.safeReact || simplex || t.safeWait || t.netDue || (t.lossDue && !allowsSet L (curRec L)) then 2 else 0
  else 0

/-- The triggers that a boundary has seen are done. DEDUCED: log 37. -/
def clearTriggers (L : Lane) : Lane :=
  { (withTls (fun t => { t with lossDue := false, netDue := false, safeReact := false }) L) with
    lsm := { L.lsm with degradePend := false } }

/-- A voted edge at its boundary (R77, R81); a SERVICE edge whose SERVICE has ended meanwhile is not taken (R59).
DESIGN CHOICE: log 36. -/
def votedEdge (hp : Bool) (L : Lane) : Lane :=
  match L.tls.edgeDue with
  | none => L
  | some (i, mine) =>
    let e := edgeAt L (curRec L) i
    if e.hp && !hp then L
    else
      let L1 := withTls (fun t => { t with edgeDue := none }) L
      if !allowsSet L (pointRec L e.target) then (if mine then reqReject 5 L1 else L1)
      else if e.kind = kService ∧ ¬ L.lcs.svc then (if mine then reqReject 7 L1 else L1)
      else if bankState L e.target ≠ 2 then badDecision mine 0xA L1
      else takeEdge i mine L1

/-- The edges of a checkpoint boundary: FAULT and SAFE drop a voted edge, and the request passes R74 again (R78, R81). Where a
loss both makes such an edge due and shuts the voted target out, this first row of R81 is followed and not the row on a changed
lane set. DESIGN CHOICE: log 36. -/
def boundaryEdges (hp : Bool) (L : Lane) : Lane :=
  if L.clv.unsaid then votedEdge hp L
  else
    let k := edgeTrigger L
    let L1 := clearTriggers L
    if k = 0 then votedEdge hp L1
    else
      let L2 := withTls (fun t => { t with
        edgeDue := none, reqStage := if t.reqStage = 2 then 3 else t.reqStage }) L1
      if k = 2 then safeEdge L2 else faultEdge L2

/-- The mode step of a checkpoint boundary (R74, R77, R78, R161). DEDUCED: log 35. -/
def modeStep (hp : Bool) (L : Lane) : Lane :=
  if !pointValid L then L
  else
    match L.tls.lateSwitch with
    | some p =>
      let L1 := clearTriggers L
      if hp && decide (bankState L1 p = 2) then safeOutputs (switchTo p L1) else L1
    | none =>
      if L.tls.svcHoldDue then
        vduEnable (reqFinish 0 stDone (curPoint L) (setSubstate 8
          (withTls (fun t => { t with svcHoldDue := false, edgeDue := none }) L)))
      else boundaryEdges hp L

/-- A late lane follows to the point that the members hold (R161). DEDUCED: log 37, 59. -/
def lateJoin (p : Nat) (L : Lane) : Lane :=
  if !pointValid L || decide (L.n F.TLS_MS_CFG_NPOINTS ≤ p) || decide (p = curPoint L) then L
  else startLoad (withTls (fun t => { t with lateSwitch := some p, edgeDue := none }) L)

/-- TLS_MS_REJ is cleared by a write of 1 (R84, R85). -/
def msRejClr (val : Word) (L : Lane) : Lane :=
  if bitAt val 0 then
    L.zero [F.TLS_MS_REJ_COUNT, F.TLS_MS_REJ_POINT, F.TLS_MS_REJ_REQ_CODE, F.TLS_MS_REJ_REASON] else L

/-- Words 0, 1, 2, 3 and 5 of the selection block at the start of X memory, written at every CKPT (R188). -/
def selectionBlock (L : Lane) : Lane :=
  let p := curRec L
  let w3 := at' 0 (curPoint L) ||| at' 8 p.mode ||| at' 12 (setCode L)
  let L1 := (writeWords xBase [imgWord L p.tableOff, imgWord L (p.tableOff + 8), imgWord L p.limitOff, w3] L).2
  (writeW (xBase + 20) L1.ckpt L1).2

end Sys2Proof.Machine
end

