-- ==== Sys2Proof/Machine/NetCore.lean ====
section
/-! DEFINITION. Network time of a lane, cold start and integration as operations on its state (R333, R334, R348 to R352), and
the schedule records (R310, R311). -/

namespace Sys2Proof.Machine

/-- An update of the network engine's own state. -/
def withNte (f : NteSt → NteSt) (L : Lane) : Lane := { L with nte := f L.nte }

/-- The network cycle in ns; network time now; the macrotick (R334). -/
def cycNs (L : Lane) : Nat := L.n F.TLS_TIMING_CYCLE_US * 1000
def ntNow (L : Lane) : Int := (L.time : Int) + L.nte.ofs
def mtick (L : Lane) : Word := BitVec.ofInt 32 (ntNow L / 1000)

/-- A stamp or an offset at its resolution of 8 ns (R336, R343). DESIGN CHOICE: log 82. -/
def at8 (t : Int) : Int := t / 8 * 8

/-- COLDSTART_RANK of the running image (R88), and this EK3's node number. -/
def coldRank (L : Lane) : Nat := hAt L.tls.hdr 0x22
def ownNode (L : Lane) : Nat := L.n F.SSG_CFG_EK3_NODE

/-- CS_STATE and SYNCED. -/
def csState (L : Lane) : Nat := L.n F.NTE_TIME_STAT_CS_STATE
def setCs (v : Nat) (L : Lane) : Lane := L.putN F.NTE_TIME_STAT_CS_STATE v
def synced (L : Lane) : Bool := L.b F.NTE_TIME_STAT_SYNCED

/-- A port's part beside its registers, and its replacement; port 15 is the thirteenth. -/
def portIx (p : Nat) : Nat := if p = 15 then 12 else p
def portOf (L : Lane) (p : Nat) : PortSt := nth L.nte.ports (portIx p) default
def setPort (p : Nat) (f : PortSt → PortSt) (L : Lane) : Lane :=
  withNte (fun n => { n with ports := setNth n.ports (portIx p) (f (portOf L p)) }) L

/-- The role of a port; port 15 has none of them. -/
def portRole (L : Lane) (p : Nat) : Nat := if p < 12 then L.n (F.SSG_PORTp_STAT_ROLE p) else 3
def isTrunk (L : Lane) (p : Nat) : Bool := decide (portRole L p = 2)

/-- D_T in ns (R309). -/
def dTrunk : Int := 2640

/-- A schedule record (R311). -/
structure SlotRec where
  start : Nat
  len : Nat
  pexp : Nat
  phase : Nat
  node : Nat
  port : Nat
  kind : Nat
  xt : Bool
  payload : Nat
  fwd : Nat
  rxirq : Bool
  cls : Nat
deriving DecidableEq, Repr, Inhabited

/-- The lane address of record `i`, and the record (R310, R319). -/
def recAddr (i : Nat) : Nat := netBase + 0x200000 + 48 + 16 * i
def slotRec (L : Lane) (i : Nat) : SlotRec :=
  let w0 := L.rdW (recAddr i)
  let w1 := L.rdW (recAddr i + 4)
  let w2 := L.rdW (recAddr i + 8)
  let w3 := L.rdW (recAddr i + 12)
  { start := bitsOf w0 16 13, len := bitsOf w0 0 12, pexp := bitsOf w1 24 3, phase := bitsOf w1 16 6, node := bitsOf w1 8 8
    port := bitsOf w1 4 4, kind := bitsOf w1 0 4, xt := bitAt w2 31, payload := bitsOf w2 16 11, fwd := bitsOf w2 0 13
    rxirq := bitAt w3 8, cls := bitsOf w3 0 8 }

/-- The number of records of this network. -/
def nRec (L : Lane) : Nat := L.n F.SSG_NREC_NREC

/-- A record exists in frame cycle `c`. -/
def slotExists (r : SlotRec) (c : Nat) : Bool := decide (c % 2 ^ r.pexp = r.phase)

/-- The records of the schedule that a test picks, with their indices. -/
def slotsWhere (L : Lane) (f : Nat → SlotRec → Bool) : List (Nat × SlotRec) :=
  (List.range (nRec L)).filterMap (fun i => let r := slotRec L i; if f i r then some (i, r) else none)

/-- A SPARE record is claimed. -/
def claimed (L : Lane) (i : Nat) : Bool := L.nte.claims.any (fun k => decide (k.slot = i))

/-- The frame cycle (R334). -/
def frameCyc (L : Lane) : Nat := L.nte.cyc % 64

/-- What a peer reported over a link, and its replacement. -/
def peerOf (L : Lane) (link : Nat) : PeerTime := if link = 0 then L.nte.peer0 else L.nte.peer1
def setPeer (link : Nat) (f : PeerTime → PeerTime) (L : Lane) : Lane :=
  withNte (fun n => if link = 0 then { n with peer0 := f n.peer0 } else { n with peer1 := f n.peer1 }) L

/-- Step 1 of R348: the lane listens, and nothing is heard yet. -/
def csListen (L : Lane) : Lane :=
  (setCs 1 (withNte (fun n => { n with
    bestNode := 0, bestPort := none, bestLane := none, folPort := none, folLane := none, conf := 0, abandoned := false
    lead := false, alone := false, csLast := none }) L)).putN F.NTE_TIME_STAT_HEARD_RANK 0xFFFF

/-- The network of the lane starts at step 1 of R348, at E; a CLOCK_DEGRADED lane keeps its PHYs down and starts nothing
(R335). -/
def nteStart (L : Lane) : Lane :=
  let L1 := withNte (fun n => { n with late := false, held := false }) L
  if L.b F.CLK_STAT_DEGRADED then L1 else csListen (L1.setBit F.AOS_STAT_ON 6 true)

/-- A guardian event (SSG_EVSTAT): PLIC source 70 as enabled. -/
def ssgEvent (b : Nat) (L : Lane) : Lane :=
  eventBits F.SSG_EVSTAT_EV (L.fld F.SSG_EVEN_EV) (fun _ => some 70) (toW (2 ^ b)) L

/-- A count of a port steps; port 15 has no registers. -/
def portInc (p : Nat) (f : Nat → Fld) (L : Lane) : Lane := if p < 12 then L.inc (f p) else L

/-- An admitted frame fails on the way: counted, source 0x0C7; nothing of it is delivered (R328). -/
def frameBad (p : Nat) (L : Lane) : Lane :=
  raise 0x0C7 (ssgEvent 7 (portInc p F.SSG_PORTp_ERR1_FRAME_CNT (setPort p (fun x => { x with cur := none }) L)))

/-- A port's link goes down: counted, source 0x0C8; a frame on its way fails; claims of the port are released at the next
boundary (R308, R328, R355). -/
def phyDown (p : Nat) (L : Lane) : Lane :=
  if L.b (F.SSG_PORTp_STAT_LINK p) then
    let L1 := ((L.setB (F.SSG_PORTp_STAT_LINK p) false).setBit F.SSG_STAT_LINK p false).inc (F.SSG_PORTp_ERR1_DOWN_CNT p)
    let L2 := if (portOf L1 p).cur.isSome then frameBad p L1 else L1
    let mine := L2.nte.claims.filter (fun k => decide (k.port = p))
    let L3 := withNte (fun n => { n with due := n.due ++ mine.map (fun k => ⟨false, k, L.nte.cyc / 64 + 1⟩) }) L2
    raise 0x0C8 (ssgEvent 8 L3)
  else L
/-- The PHYs lose power: every link that is up goes down (R308). -/
def physOff (L : Lane) : Lane := forEach (List.range 12) phyDown (L.setBit F.AOS_STAT_ON 6 false)

/-- The network engine stops for Dormant: SYNCED clears and the PHYs go OFF (step C of R408). -/
def nteStop (L0 : Lane) : Lane :=
  let L := physOff L0
  let L1 := setCs 0 (((L.setB F.NTE_TIME_STAT_SYNCED false).setB F.SSG_STAT_RUN false).setB F.NTE_STAT_RUN false)
  withNte (fun n => { n with
    held := false, adm := [], prep := [], ports := n.ports.map (fun p => { p with cur := none }) }) L1

/-- The clock monitor acts: source 0x003, then CLOCK_DEGRADED with CAUSE 3 (R406). A released lane in STARTUP, but for Service
hold, enters Hold (R61). The PHYs lose power (R335). DEDUCED: log 27. -/
def clockLost (why : ClockLoss) (L : Lane) : Lane :=
  if L.live ∧ ¬ L.b F.CLK_STAT_DEGRADED then
    let L1 := clockDegraded 3 (physOff (raise 0x003 L))
    let L2 := plicRaise 2 (match why with
      | .pllUnlock => L1.setB F.CLK_STAT_PLL_LOCK false
      | _ => L1.setB F.CLK_STAT_XTAL_OK false)
    if curMode L2 = mStartup ∧ 1 ≤ substate L2 ∧ substate L2 ≤ 6 then enterHold L2 else L2
  else L
def execClockLost (l : LaneId) (why : ClockLoss) (s : State) : Host.Outcome State Fault Refusal :=
  .next (s.onLane l (clockLost why))

/-- The lane sets SYNCED: the schedule is enforced, own slots are sent, and substate 0x4 ends (R60, R348, R351, R352). A
CLOCK_DEGRADED lane never does (R335). -/
def setSynced (L : Lane) : Lane :=
  if L.b F.CLK_STAT_DEGRADED then L
  else
    let L1 := setCs 5 (((L.setB F.NTE_TIME_STAT_SYNCED true).setB F.SSG_STAT_RUN true).setB F.NTE_STAT_RUN true)
    let L2 := withNte (fun n => { n with held := true, conf := 0, lostRun := 0, trunkMiss := 0 }) L1
    if substate L2 = 4 then setSubstate 5 L2 else L2

/-- SRC and SRC_PORT. -/
def setSrc (src port : Nat) (L : Lane) : Lane := (L.putN F.NTE_TIME_STAT_SRC src).putN F.NTE_TIME_STAT_SRC_PORT port

/-- NT_OFS moves by a difference; the stamps that are held in network time move with it (R334, R352). -/
def shiftNt (d : Int) (L : Lane) : Lane :=
  let f (p : PeerTime) : PeerTime := { p with
    sPrev := p.sPrev + d, sLast := p.sLast + d, rx := p.rx.map (fun x => (x.1, x.2 + d)) }
  withNte (fun n => { n with ofs := n.ofs + d, peer0 := f n.peer0, peer1 := f n.peer1 }) L

/-- Network time takes a value at an instant of lane time (R351). -/
def setNt (nt : Int) (time : Nat) (L : Lane) : Lane :=
  let L1 := shiftNt (nt - (time : Int) - L.nte.ofs) L
  withNte (fun n => { n with held := true, cyc := (nt / (max 1 (cycNs L) : Nat)).toNat }) L1

/-- Integration from a port begins with a frame that started at lane time `time` and whose action point is `ap` (step 1 of
R351). -/
def integrateFrom (p : Nat) (ap : Int) (time : Nat) (L : Lane) : Lane :=
  setCs 4 (setNt (ap + if isTrunk L p then dTrunk else 0) time (withNte (fun n => { n with
    folPort := some p, folLane := none, conf := 1, lead := false }) L))

/-- The device abandons its cold start: counted, source 0x0D4 (R349). -/
def csAbandon (L : Lane) : Lane :=
  raise 0x0D4 ((withNte (fun n => { n with abandoned := true, lead := false }) L).inc F.NTE_CS_ERR_ABANDON_CNT)

/-- The lane waits to integrate from a port, or from another lane; nothing is confirmed yet. -/
def follow (p : Option Nat) (x : Option LaneId) (L : Lane) : Lane :=
  setCs 4 (withNte (fun n => { n with folPort := p, folLane := x, conf := 0, lead := false }) L)

/-- The cold start of this lane is under way: it leads, or waits for the leader. -/
def coldStarting (L : Lane) : Bool := decide (csState L = 2 ∨ csState L = 3)

/-- A lane in cold start abandons with the device, and takes its time from the lane that abandoned first (R349). -/
def abandonTo (x : LaneId) (L : Lane) : Lane :=
  if L.live && coldStarting L then follow none (some x) (csAbandon L) else L

/-- What one lane hears binds the device: where lane `l` has abandoned in going from `s0` to `s1`, the lanes behind its links
that are up abandon too (R349). DEDUCED: log 84. -/
def abandonAll (l : LaneId) (s0 s1 : State) : State :=
  if !(s0.lane l).nte.abandoned && (s1.lane l).nte.abandoned then
    [0, 1].foldl (fun a k =>
      if (s1.lane l).b (F.LLK_LINKl_STAT_UP k) then a.onLane (linkPeer l k) (abandonTo l) else a) s1
  else s1

end Sys2Proof.Machine
end

