-- ==== Sys2Proof/Machine/Clove.lean ====
section
/-! DEFINITION. Clove: the checkpoint round from the frozen sample to the vote, exclusion, the lane links and the receipt of
transfers (R144 to R158, R162 to R164, R173, R174, R298, R491, R492). What a lane sends is an output and is not held. -/

namespace Sys2Proof.Machine

/-- An update of Clove's own state. -/
def withClv (f : ClvSt → ClvSt) (L : Lane) : Lane := { L with clv := f L.clv }

/-- The other lanes of the set that a lane sees. -/
def otherMembers (L : Lane) : List LaneId := [LaneId.a, LaneId.b, LaneId.c].filter (fun x =>
  decide (x ≠ L.id) && inSet L.clv.members x)

/-- The lane takes part in the vote: a member, not excluded. -/
def voter (L : Lane) : Bool := inSet L.clv.members L.id

/-- The link to a peer of this lane; the receipts of a peer, by link. -/
def linkOf (L : Lane) (x : LaneId) : Nat := if x = nextLane L.id then 0 else 1
def rxS (L : Lane) (link : Nat) : RxSample := if link = 0 then L.clv.rxS0 else L.clv.rxS1
def rxV (L : Lane) (link : Nat) : RxVote := if link = 0 then L.clv.rxV0 else L.clv.rxV1
def rxM (L : Lane) (link : Nat) : RxMirror := if link = 0 then L.clv.rxM0 else L.clv.rxM1
def rxC (L : Lane) (link : Nat) : RxCatch := if link = 0 then L.clv.rxC0 else L.clv.rxC1
def rxF (L : Lane) (link : Nat) : Option RxForm := if link = 0 then L.clv.rxF0 else L.clv.rxF1
def putRxS (link : Nat) (x : RxSample) (L : Lane) : Lane :=
  withClv (fun c => if link = 0 then { c with rxS0 := x } else { c with rxS1 := x }) L
def putRxV (link : Nat) (x : RxVote) (L : Lane) : Lane :=
  withClv (fun c => if link = 0 then { c with rxV0 := x } else { c with rxV1 := x }) L
def putRxM (link : Nat) (x : RxMirror) (L : Lane) : Lane :=
  withClv (fun c => if link = 0 then { c with rxM0 := x } else { c with rxM1 := x }) L
def putRxC (link : Nat) (x : RxCatch) (L : Lane) : Lane :=
  withClv (fun c => if link = 0 then { c with rxC0 := x } else { c with rxC1 := x }) L
def quietOf (L : Lane) (link : Nat) : Nat := if link = 0 then L.clv.quiet0 else L.clv.quiet1
def putQuiet (link n : Nat) (L : Lane) : Lane :=
  withClv (fun c => if link = 0 then { c with quiet0 := n } else { c with quiet1 := n }) L

/-- A link is up. -/
def linkIsUp (L : Lane) (link : Nat) : Bool := L.b (F.LLK_LINKl_STAT_UP link)

/-- Transfers launched on a link: eligible events of Pepper's LINK_DELAY (R431). DEDUCED: log 63. -/
def launch (link n : Nat) (L : Lane) : Lane :=
  if linkIsUp L link then (List.range n).foldl (fun a _ => (pepper 4 link (fun _ => true) a).2) L else L

/-- The number of transfers that carry `n` words (R155). -/
def xfers (n : Nat) : Nat := (n + 63) / 64

/-- The image's checkpoint rounds per hyperperiod in the current point (R111, R112). -/
def roundsPerHp (L : Lane) : Nat := 64 * L.n F.TLS_TIMING_CYCLE_US / max 1 (curRec L).ckptUs

/-- A lane that this lane saw as a member is gone from the set: a lane loss (R78), PLIC source 51. -/
def dropPeer (x : LaneId) (L : Lane) : Lane :=
  if x ≠ L.id ∧ inSet L.clv.members x then
    plicRaise 51 (withTls (fun t => { t with lossDue := true })
      (withClv (fun c => { c with disagree := false }) (setMembers (L.clv.members &&& ~~~ laneBit x) L)))
  else L

/-- This lane leaves the set as the members know: it holds its safe states, its claims are withdrawn (R162, R163, R295). -/
def leaveSet (L : Lane) : Lane :=
  if voter L then withClv (fun c => { c with unsaid := false, disagree := false }) (safeOutputs (excludeSelf L)) else L

/-- An input word's rule and fields (R149). -/
structure InRec where
  rule : Nat
  vword : Nat
  vbit : Nat
  vsel : Bool
  dflt : Word
deriving DecidableEq, Repr

/-- The record of input word `i`; rules 6 to 15 act as DISCRETE. -/
def inRec (L : Lane) (i : Nat) : InRec :=
  let w := agreeW L (32 + 8 * i)
  let r := bitsOf w 0 4
  ⟨if r ≤ 5 then r else 2, bitsOf w 4 10, bitsOf w 14 5, bitAt w 19, agreeW L (36 + 8 * i)⟩

/-- DEST_KIND and DEST_INDEX of vote word `j` (R149). -/
def voteDest (L : Lane) (j : Nat) : Nat × Nat :=
  let w := agreeW L (32 + 8 * nIn L + 4 * j)
  (bitsOf w 28 4, bitsOf w 16 12)

/-- The median of three integers, and half the sum of two, rounded down (R150). -/
def med3 (a b c : Int) : Int := max (min a b) (min (max a b) c)
def mean2 (a b : Int) : Int := (a + b) / 2

/-- One agreed word from its copies, in lane order, with the lane of each (R150). DEDUCED: log 61. -/
def agreeRule (r : InRec) (cs : List (LaneId × Word)) : Word :=
  let ws := cs.map (·.2)
  if cs.isEmpty then r.dflt
  else if r.rule = 4 then
    (List.range 32).foldl (fun a b =>
      match cs.find? (fun p => decide (laneNo p.1 = b % 8)) with
      | some p => Machine.setBit a b (bitAt p.2 b)
      | none => a) 0
  else if r.rule = 5 then
    cs.foldl (fun a p => a ||| at' (8 * laneNo p.1) (bitsOf p.2 (8 * laneNo p.1) 8)) 0
  else
    match ws with
    | [a] => a
    | [a, b] =>
      if r.rule = 0 then BitVec.ofInt 32 (mean2 a.toInt b.toInt)
      else if r.rule = 1 then BitVec.ofInt 32 (mean2 a.toNat b.toNat)
      else if r.rule = 3 then a &&& b
      else if a = b then a else r.dflt
    | [a, b, c] =>
      if r.rule = 0 then BitVec.ofInt 32 (med3 a.toInt b.toInt c.toInt)
      else if r.rule = 1 then BitVec.ofInt 32 (med3 a.toNat b.toNat c.toNat)
      else if r.rule = 3 then (a &&& b) ||| (a &&& c) ||| (b &&& c)
      else if a = b ∨ a = c then a else if b = c then b else r.dflt
    | _ => r.dflt

/-- The sample of a lane as this lane holds it, and its SCRC. DEDUCED: log 41. -/
def sampleOf (L : Lane) (x : LaneId) : Option (List Word × Word) :=
  if x = L.id then L.clv.own.map (fun ws => (ws, L.clv.ownScrc))
  else
    let r := rxS L (linkOf L x)
    if r.done then some (r.words, r.scrc) else none

/-- A lane's own LANESTAT byte reports EXCLUDE_REACT or IMMEDIATE (R150). -/
def reportsOut (x : LaneId) (ws : List Word) : Bool := bitsOf (nth ws 2 0) (8 * laneNo x + 2) 2 ≠ 0

/-- An agreed input vector from the samples of a set of lanes (R150). MODE_REQ, word 0, of a set of two or three lanes needs two
copies that agree (R73). DEDUCED: log 61. -/
def formVector (use : BitVec 3) (L : Lane) : List Word :=
  let simplex := voter L && decide (L.clv.members = laneBit L.id)
  (List.range (nIn L)).map (fun i =>
    let r := inRec L i
    let copies := [LaneId.a, LaneId.b, LaneId.c].filterMap (fun x =>
      if !inSet use x || (simplex && decide (x ≠ L.id)) || (!inSet L.clv.members x && decide (r.rule ≠ 4 ∧ r.rule ≠ 5)) then none
      else
        match sampleOf L x with
        | none => none
        | some (ws, _) =>
          if decide (i ≠ 2) && reportsOut x ws then none
          else if r.vsel && !bitAt (nth ws r.vword 0) r.vbit then none
          else some (x, nth ws i 0))
    if i = 0 ∧ copies.length < 2 ∧ 2 ≤ laneCount (laneSetCode L.clv.members) then 0 else agreeRule r copies)

/-- The lanes whose samples this lane holds. -/
def heldSamples (L : Lane) : BitVec 3 :=
  [LaneId.a, LaneId.b, LaneId.c].foldl (fun m x => if (sampleOf L x).isSome then m ||| laneBit x else m) 0

/-- One word of the vote vector as Pepper's VOTE_FLIP leaves it (R431). -/
def voteFlip (ws : List Word) (i : Nat) (L : Lane) : List Word × Lane :=
  let p := pepper 9 i (fun _ => true) L
  match p.1 with
  | some m => (setNth ws i (nth ws i 0 ^^^ m), p.2)
  | none => (ws, p.2)

/-- The own vote vector is read once, at the checkpoint that ends its period; none where a word cannot be read (R144, R492). -/
def readVote (L : Lane) : Lane :=
  let r := readWords (voteOff L) (nVote L) L
  match r.1 with
  | none => withClv (fun c => { c with vote := none }) r.2
  | some ws =>
    let f := (List.range (nVote L)).foldl (fun (q : List Word × Lane) i => voteFlip q.1 i q.2) (ws, r.2)
    withClv (fun c => { c with vote := some f.1 }) f.2

/-- The most frequent of the values when at least `need` lanes hold it. DEDUCED: log 61. -/
def majority (need : Nat) (vs : List Word) : Option Word := vs.find? (fun v => decide (need ≤ vs.count v))

/-- A duplex disagreement of the previous round is resolved by the SELF_FAIL flags of this one (R174). -/
def resolveDuplex (L : Lane) : Lane :=
  if L.clv.disagree ∧ voter L then
    let L0 := withClv (fun c => { c with disagree := false }) L
    match otherMembers L0 with
    | [p] =>
      let v := rxV L0 (linkOf L0 p)
      let mine := L0.b F.CLV_STAT_SELF_FAIL
      let his := v.flags.getLsbD 0
      if v.done ∧ his ≠ mine then
        if his then dropPeer p L0 else raise 0x062 (leaveSet L0)
      else
        let L1 := raise 0x065 (withClv (fun c => { c with noReint := true }) (L0.setB F.CLV_STAT_UNRESOLVED true))
        if mine then forEach (List.range 4) giveUp (withClv (fun c => { c with barred := true }) L1) else L1
    | _ => L0
  else L

/-- The samples that step 5 finds usable (R151), bit per lane. -/
def usable (L : Lane) : BitVec 3 :=
  let present := (otherMembers L).filter (fun m => (rxV L (linkOf L m)).done)
  [LaneId.a, LaneId.b, LaneId.c].foldl (fun acc x =>
    match sampleOf L x with
    | none => acc
    | some (_, scrc) =>
      let ok := if x = L.id then present.all (fun m => (rxV L (linkOf L m)).flags.getLsbD 2)
        else present.all (fun m => decide (m = x) ||
          ((rxV L (linkOf L m)).flags.getLsbD 1 && decide ((rxV L (linkOf L m)).echo = scrc)))
      if ok then acc ||| laneBit x else acc) 0

/-- The latest vote difference (CLV_MISM). -/
def noteMism (word : Nat) (minority : Nat) (L : Lane) : Lane :=
  plicRaise 51 (((L.putN F.CLV_MISM_WORD word).putN F.CLV_MISM_MINORITY minority).putN F.CLV_MISM_SEQ (L.ckpt.toNat % 65536))

/-- What comparing the copies of the vote vector gives: the voted words, the lanes in the minority, the first difference,
split words other than word 0, and whether word 0 is split (R153). -/
structure VoteOut where
  words : List (Option Word)
  minor : BitVec 3
  diffs : List Nat
  splits : List Nat
deriving DecidableEq, Repr, Inhabited

/-- The copies of the vote vector compared word by word against a majority of `need` (R153). DEDUCED: log 61. -/
def compareVotes (need n : Nat) (copies : List (LaneId × List Word)) : VoteOut :=
  (List.range n).foldl (fun (o : VoteOut) i =>
    match majority need (copies.map (fun p => nth p.2 i 0)) with
    | none => { o with words := o.words ++ [none], diffs := o.diffs ++ [i], splits := o.splits ++ [i] }
    | some v =>
      let bad := copies.foldl (fun m p => if nth p.2 i 0 = v then m else m ||| laneBit p.1) (0 : BitVec 3)
      { o with words := o.words ++ [some v], minor := o.minor ||| bad, diffs := if bad = 0 then o.diffs else o.diffs ++ [i] })
    ⟨[], 0, [], []⟩

/-- Peers that the agreed LANESTAT reports: first IMMEDIATE (0x073), and members that have taken EXCLUDE_LANE or IMMEDIATE_SAFE
(R78, R162, R178). -/
def peerReports (lanestat : Word) (L : Lane) : Lane :=
  [LaneId.a, LaneId.b, LaneId.c].foldl (fun a x =>
    if x = a.id then a
    else
      let imm := bitAt lanestat (8 * laneNo x + 3)
      let exc := bitAt lanestat (8 * laneNo x + 2)
      let a1 := if imm && !inSet a.clv.peerImm x then raise 0x073 a else a
      let a2 := withClv (fun c => { c with peerImm := if imm then c.peerImm ||| laneBit x else c.peerImm &&& ~~~ laneBit x }) a1
      if imm || exc then dropPeer x a2 else a2) L

/-- The link rules of R162 in a triplex, on the link bits of the agreed NETSTAT: a link counts as up only when both of its ends
report it up. A lane is lost with both of its links where a copy that counts reports each of them down. DEDUCED: log 61. -/
def linkRule (netstat lanestat : Word) (L : Lane) : Lane :=
  if voter L ∧ L.clv.members = 7 then
    let tells (x y : LaneId) : Bool := bitAt netstat ((if y = nextLane x then 8 else 16) + laneNo x)
    let counts (x : LaneId) : Bool := bitAt lanestat (8 * laneNo x)
    let down (x : LaneId) : Bool := !(tells x (nextLane x) && tells (nextLane x) x)
    let said (x : LaneId) : Bool := (counts x && !tells x (nextLane x)) || (counts (nextLane x) && !tells (nextLane x) x)
    let ds := [LaneId.a, LaneId.b, LaneId.c].filter down
    let out : List LaneId := match ds with
      | [] => []
      | [x] => [nextLane x]
      | _ => [LaneId.a, LaneId.b, LaneId.c].filter (fun x => said x && said (prevLane x))
    if out.contains L.id then leaveSet L else out.foldl (fun a x => dropPeer x a) L
  else L

/-- A re-integration attempt ends without success (R167). -/
def reintFail (src : Nat) (L : Lane) : Lane :=
  raise src (withClv (fun c => { c with reintReady := false, reintAge := 0, shadowLeft := 0 })
    ((L.putN F.CLV_STAT_REINT_STATE 0).setB F.CLV_CTL_REINT false))

/-- An excluded lane compares its own vote vector with the voted vector; a difference is recorded only, as the latest vote
difference with this lane in the minority (R163). DESIGN CHOICE: log 61. -/
def shadowNote (voted : List (Option Word)) (L : Lane) : Lane :=
  match L.clv.vote with
  | some ws =>
    match (List.range (nVote L)).find? (fun i => decide (nth voted i none ≠ none ∧ nth voted i none ≠ some (nth ws i 0))) with
    | some i => if L.b F.CLV_STAT_EXCL && !voter L then
        ((L.putN F.CLV_MISM_WORD i).putN F.CLV_MISM_MINORITY (laneBit L.id).toNat).putN F.CLV_MISM_SEQ (L.ckpt.toNat % 65536)
      else L
    | none => L
  | none => L

/-- The shadow vote of re-integration: the own vote vector must equal the voted vector (R167, step 5). DEDUCED: log 59. -/
def shadowRound (voted : List (Option Word)) (L : Lane) : Lane :=
  if L.n F.CLV_STAT_REINT_STATE = 3 ∧ 0 < L.clv.shadowLeft then
    let same := match L.clv.vote with
      | some ws => decide (ws.map some = voted)
      | none => false
    if same then
      withClv (fun c => { c with shadowLeft := c.shadowLeft - 1, reintReady := decide (c.shadowLeft = 1) }) L
    else reintFail 0x06F L
  else L

/-- The vote of the round is complete (step 5 of R145): R151 to R154, R162, R174 and what follows. Two differing decision words of
a duplex are a duplex disagreement alone, with no 0x07E and the request still held; two different AGREE_CRC of a triplex whose
third member is silent name no minority and raise nothing. DESIGN CHOICE: log 61. -/
def voteStep (L : Lane) : Lane :=
  if !L.clv.round || L.clv.voteDone || L.clv.prov.isNone then L
  else
    let L0 := resolveDuplex (withClv (fun c => { c with voteDone := true }) L)
    let vt := voter L0
    let others := otherMembers L0
    let present := others.filter (fun m => (rxV L0 (linkOf L0 m)).done)
    let use := usable L0
    let lost := (L.clv.provUse &&& ~~~ use)
    let nLost := ([LaneId.a, LaneId.b, LaneId.c].filter (inSet lost)).length
    let L1 := L0.putN F.CLV_STAT_USABLE use.toNat
    let L2 := if nLost = 0 then L1 else raise 0x068 (L1.incBy F.CLV_ERR_DROP_CNT nLost)
    let final : List Word := if use = L.clv.provUse then L.clv.prov.getD [] else formVector use L2
    let crcs : List (LaneId × Word) := (if vt && L2.clv.vote.isSome then [(L2.id, L2.clv.provCrc)] else []) ++
      present.map (fun m => (m, (rxV L2 (linkOf L2 m)).agreeCrc))
    let asplit := decide (crcs.length = 3) && (majority 2 (crcs.map (·.2))).isNone
    let L3 := if asplit then
        let a := raise 0x066 (L2.inc F.CLV_ERR_SPLIT_CNT)
        let b := withClv (fun c => { c with splitRun := c.splitRun + 1 }) a
        noteMism 0xFF 0 (if b.clv.splitRun = 4 then raise 0x067 b else b)
      else withClv (fun c => { c with splitRun := 0 }) L2
    let n := (if vt then 1 else 0) + others.length
    let copies : List (LaneId × List Word) :=
      (match L3.clv.vote with
       | some ws => if vt then [(L3.id, ws)] else []
       | none => []) ++ present.map (fun m => (m, (rxV L3 (linkOf L3 m)).words))
    let alone := L3.b F.CLV_STAT_UNRESOLVED || (vt && decide (n = 1))
    let need := if vt then 2 else min 2 copies.length
    let short := if alone then L3.clv.vote.isNone else decide (copies.length < need ∨ copies = [])
    let out : VoteOut :=
      if asplit || short then ⟨List.replicate (nVote L3) none, 0, [], []⟩
      else if alone then ⟨((L3.clv.vote).getD []).map some, 0, [], []⟩
      else compareVotes need (nVote L3) copies
    let duplex := vt && decide (n = 2) && !alone && !asplit && !short
    let crcMajor := majority 2 (crcs.map (·.2))
    let crcBad : BitVec 3 := match crcMajor with
      | some v => crcs.foldl (fun m p => if p.2 = v then m else m ||| laneBit p.1) 0
      | none => 0
    let minor : BitVec 3 := if vt && !duplex && !alone && !asplit && !short then out.minor ||| crcBad else 0
    let L4 := withClv (fun c => { c with voted := out.words, late := short && !asplit, minor := minor,
                                         unsaid := c.unsaid && !c.said }) L3
    let firstDiff := out.diffs.head?.getD 0xFF
    let differ := decide (out.diffs ≠ [] ∨ crcMajor.isNone)
    let L5 := if duplex then
        (if differ then withClv (fun c => { c with disagree := true })
          (noteMism firstDiff 0 ((raise 0x064 L4).inc F.CLV_ERR_MISM_CNT)) else L4)
      else
        let a := out.splits.foldl (fun a i =>
          (if i ≠ 0 ∧ vt then raise 0x063 a else a).inc F.CLV_ERR_SPLIT_CNT) L4
        if minor ≠ 0 then noteMism firstDiff minor.toNat (a.inc F.CLV_ERR_MISM_CNT)
        else if vt ∧ out.diffs ≠ [] then noteMism firstDiff 0 a else a
    let you := decide (others ≠ []) && others.all (fun m =>
      (rxV L5 (linkOf L5 m)).done && (rxV L5 (linkOf L5 m)).flags.getLsbD 3)
    let L6 := withClv (fun c => { c with exclYou := you })
      (if you && !L5.clv.exclYou then raise 0x062 (leaveSet L5) else L5)
    let same := (vt && !inSet minor L6.id) ||
      (decide (present ≠ []) && present.all (fun m => decide ((rxV L6 (linkOf L6 m)).agreeCrc = L6.clv.provCrc)))
    let L7 := if asplit then L6 else
      let a := withClv (fun c => { c with
        nextAgreed := some final
        agreedReady := BitVec.ofNat 3 (b2n (bitAt (nth final 2 0) 5) + 2 * b2n (bitAt (nth final 2 0) 13) +
          4 * b2n (bitAt (nth final 2 0) 21)) }) (peerReports (nth final 2 0) L6)
      let b := msAgreed (nth final 0 0) (nth final 1 0) (nth final 2 0) same a
      if (voteDest b 0).1 = 5 ∧ ¬ short then
        match out.words.head? with
        | some (some w) =>
          if b.clv.lateWait then
            (if bitsOf w 0 7 = curPoint b then safeOutputs (withClv (fun c => { c with lateWait := false }) b)
             else lateJoin (bitsOf w 0 7) b)
          else decision (some w) b
        | some none => if duplex then b else decision none b
        | none => b
      else b
    let L8 := if asplit then L7 else linkRule (nth final 1 0) (nth final 2 0) L7
    let L9 := [LaneId.a, LaneId.b, LaneId.c].foldl (fun a x =>
      if inSet minor x then (if x = a.id then raise 0x060 (leaveSet a) else dropPeer x (raise 0x061 a)) else a) L8
    let sent := (List.range 4).filter (fun g => L9.b (F.DEI_GRPg_STAT_OWN g) && !L9.clv.mirBad.getLsbD g)
    let words := (sent.map (fun g => L9.n (F.DEI_GRPg_CTL_MCOUNT g))).foldl (· + ·) 0
    let L10 := if voter L9 then (otherMembers L9).foldl (fun a m => launch (linkOf a m) (xfers words) a) L9 else L9
    plicRaise 50 (shadowRound out.words (shadowNote out.words L10))

/-- Every other member's vote has arrived. -/
def votesIn (L : Lane) : Bool := (otherMembers L).all (fun m => (rxV L (linkOf L m)).done)

/-- The provisional vector is formed and the vote vector sent (steps 3 and 4 of R145). DEDUCED: log 61. -/
def provStep (L : Lane) : Lane :=
  if !L.clv.round || L.clv.prov.isSome then L
  else
    let use := heldSamples L &&& L.clv.members
    let v := formVector use L
    let L2 := withClv (fun c => { c with prov := some v, provCrc := crcWords v, provUse := use }) L
    let L3 := if voter L2 && L2.clv.vote.isSome then launch 1 1 (launch 0 1 L2) else L2
    if votesIn L3 then voteStep L3 else L3

/-- Every other member's sample has arrived. -/
def samplesIn (L : Lane) : Bool := (otherMembers L).all (fun m => (rxS L (linkOf L m)).done)

/-- The sample deadline: a member's missing sample is unusable (R147). -/
def sampleDeadline (L : Lane) : Lane :=
  if L.clv.round ∧ L.clv.prov = none then
    provStep ((otherMembers L).foldl (fun a m =>
      if (rxS a (linkOf a m)).done then a else raise 0x06E (a.inc F.CLV_ERR_DROP_CNT)) L)
  else L
def execSampleDeadline (l : LaneId) (s : State) : Host.Outcome State Fault Refusal := .next (onLaneReq l sampleDeadline s)

/-- The vote deadline: members whose votes are missing are silent (R147, R153). -/
def execVoteDeadline (l : LaneId) (s : State) : Host.Outcome State Fault Refusal := .next (onLaneReq l voteStep s)

/-- The own words 0 to 2 of the input sample (R150); the flags that they report are taken. -/
def laneStat (L : Lane) : Word :=
  let s := L.lsm
  at' (8 * laneNo L.id) (1 + 2 * b2n s.degradeSeen + 4 * b2n s.excludeReact + 8 * b2n (L.b F.LSM_STAT_IMM) +
    16 * b2n s.safestopReact + 32 * b2n L.clv.reintReady + 64 * b2n s.selfFail + 128 * b2n L.lcs.svc)
def netStat (L : Lane) : Word :=
  at' (laneNo L.id) (b2n (L.b F.NTE_TIME_STAT_SYNCED)) ||| at' (8 + laneNo L.id) (b2n (linkIsUp L 0)) |||
    at' (16 + laneNo L.id) (b2n (linkIsUp L 1))

/-- One mirror word read at the checkpoint instant: whether it can be sent. -/
def mirrorRead (r : Word) (L : Lane) : Bool × Lane :=
  match bitsOf r 30 2 with
  | 0 => let q := readW (xBase + 4 * bitsOf r 0 17) L; (q.1.isSome, q.2)
  | 1 => let q := readW (slotSt (bitsOf r 8 6) + 4 * bitsOf r 0 3) L; (q.1.isSome, q.2)
  | _ => (true, L)

/-- The mirror words of the groups that the lane owns are read at the checkpoint instant; a group with a word that cannot be read
sends none in this round (R298, R492). -/
def mirrorSnapshot (L : Lane) : Lane :=
  (List.range 4).foldl (fun a g =>
    if a.b (F.DEI_GRPg_STAT_OWN g) then
      (mirrorRefs a g).foldl (fun b r =>
        let q := mirrorRead r b
        if q.1 then q.2 else withClv (fun c => { c with mirBad := c.mirBad ||| BitVec.ofNat 4 (2 ^ g) }) q.2) a
    else a) (withClv (fun c => { c with mirBad := 0 }) L)

/-- Words that go out in transfers of at most 64, each transfer read on its own: the words where every one could be read, and the
number of transfers that can be sent (R151, R492). DEDUCED: log 61. -/
def readXfers (a n : Nat) (L : Lane) : Option (List Word) × Nat × Lane :=
  (List.range (xfers n)).foldl (fun (q : Option (List Word) × Nat × Lane) k =>
    let r := readWords (a + 256 * k) (min 64 (n - 64 * k)) q.2.2
    (match q.1, r.1 with
      | some x, some y => some (x ++ y)
      | _, _ => none, q.2.1 + b2n r.1.isSome, r.2)) (some [], 0, L)

/-- Rounds without a good SAMPLE transfer are counted as each round ends (R157, LLK_LINKl_STAT). DEDUCED: log 62. -/
def countQuiet (link : Nat) (L : Lane) : Lane :=
  if linkIsUp L link then
    let L1 := if 0 < quietOf L link then L.inc (F.LLK_LINKl_STAT_MISS_CNT link) else L
    putQuiet link (quietOf L link + 1) L1
  else L

/-- A mirror set of the ended round whose last transfer never came (R298). -/
def mirrorMissed (link : Nat) (L : Lane) : Lane :=
  let m := rxM L link
  if L.clv.round && !m.bad && decide (m.words ≠ []) then mirrorRound (linkPeer L.id link) [] false L else L

/-- The previous round is settled at the next checkpoint: its agreed vector is written, or counts as late (R144, R147). -/
def settleRound (L0 : Lane) : Lane :=
  let L := mirrorMissed 1 (mirrorMissed 0 L0)
  if !L.clv.round then L
  else
    let L1 := withClv (fun c => { c with round := false, nextAgreed := none }) L
    if !L.clv.voteDone then raise 0x069 (L1.inc F.CLV_ERR_LATE_CNT)
    else
      match L.clv.nextAgreed with
      | some ws => (writeWords (agreedOff L) ws L1).2
      | none => L1

/-- A checkpoint of a lane without a lane set, in substates 0x4 and 0x5 and in Hold: its own request is the agreed one, and in Hold
its own decision word is the decision (R62, R63, R72, R74). DESIGN CHOICE: log 35. -/
def loneRound (L : Lane) : Lane :=
  if pointValid L && decide (curMode L = mStartup) && (decide (substate L = 4) || decide (substate L = 5) || decide (substate L = 7))
  then
    let req := sampleReq L
    let ls := laneStat req.2
    let ns := netStat req.2
    let L1 := msAgreed req.1 ns ls true (writeWords (sampleOff L) [req.1, ns, ls] req.2).2
    if substate L1 = 7 ∧ (voteDest L1 0).1 = 5 then
      let L2 := readVote L1
      match L2.clv.vote with
      | some ws => decision (some (nth ws 0 0)) L2
      | none => L2
    else L1
  else L

/-- The sample of the round is frozen and sent, the vote vector is read, and the round is open (R144, step 1 of R145). -/
def openRound (L : Lane) : Lane :=
  if L.clv.members = 0 then loneRound L
  else
    let L0 := countQuiet 1 (countQuiet 0 L)
    let req := sampleReq L0
    let ls := laneStat req.2
    let ns := netStat req.2
    let sf := req.2.lsm.selfFail
    let L1 := (writeWords (sampleOff L) [req.1, ns, ls] req.2).2
    let said := L1.lsm.excludeReact || L1.b F.LSM_STAT_IMM
    let L2 := { L1 with lsm := { L1.lsm with
      degradeSeen := false, excludeReact := false, safestopReact := false, selfFail := false } }
    let r := readXfers (sampleOff L) (nIn L) L2
    let scrc := match r.1 with
      | some ws => crcWords ws
      | none => 0
    let L3 := withClv (fun c => { c with
      round := true, said := said, own := r.1, ownScrc := scrc, rxS0 := default, rxS1 := default, rxV0 := default
      rxV1 := default, rxM0 := default, rxM1 := default, vote := none, prov := none, provCrc := 0, provUse := 0
      nextAgreed := none, voteDone := false, voted := [], late := false, released := false, minor := 0 })
      (r.2.2.setB F.CLV_STAT_SELF_FAIL sf)
    let L4 := readVote (launch 1 r.2.1 (launch 0 r.2.1 L3))
    let L5 := if voter L4 then
        let a := mirrorSnapshot L4
        if a.b F.LSM_STAT_IMM then a else { a with lsm := { a.lsm with alive := !a.lsm.alive } }
      else L4
    if samplesIn L5 then provStep L5 else L5

/-- A transfer fails the checks of R157: counted, source 0x06B. DEDUCED: log 60. -/
def discardXfer (link : Nat) (L : Lane) : Lane := raise 0x06B (L.inc (F.LLK_LINKl_STAT_CRC_CNT link))

/-- The fields of a transfer's header (R155). -/
def xfTyp (x : Xfer) : Nat := bitsOf x.hdr0 13 3
def xfLast (x : Xfer) : Bool := bitAt x.hdr0 6
def xfFlags (x : Xfer) : Nat := bitsOf x.hdr0 2 4
def xfSeq (x : Xfer) : Nat := bitsOf x.hdr0 16 16

/-- The checks of R157 on a transfer of a type on a link: the lane when it is discarded, and whether it is good. A lane that is
not a member applies the SEQ check once it has taken the members' number (R491). DEDUCED: log 60. -/
def checkXfer (typ link : Nat) (x : Xfer) (L : Lane) : Bool × Lane :=
  let p := pepper 8 link (fun prm => decide (bitsOf prm 0 3 = typ)) L
  let L1 := p.2
  let good := p.1.isNone && decide (xfTyp x = typ) && decide (crcWords (x.hdr0 :: x.aux0 :: x.payload) = x.crc) &&
    decide (x.payload.length = bitsOf x.hdr0 7 6 + 1) && decide (bitsOf x.hdr0 0 2 = laneNo (linkPeer L.id link))
  let seqFree := decide (typ = 0 ∨ typ = 5) || (!voter L1 && !L1.clv.tookNum)
  if good && (seqFree || decide (xfSeq x = L1.ckpt.toNat % 65536)) then (true, L1) else (false, discardXfer link L1)

/-- A transfer arrives on a link that is up in a live lane. DEDUCED: log 60. -/
def onLink (typ link : Nat) (x : Xfer) (f : Lane → Lane) (bad : Lane → Lane) (L : Lane) : Lane :=
  if linkIsUp L link then
    let r := checkXfer typ link x L
    if r.1 then f r.2 else bad r.2
  else L

/-- What a lane hears of the set: before it knows one, that a formed set is there (R161); an excluded lane takes the lanes that
send it VOTE transfers as the members (R163). -/
def hear (vote : Bool) (link : Nat) (L : Lane) : Lane :=
  if L.clv.members = 0 then
    let b := laneBit (linkPeer L.id link)
    withClv (fun c => { c with heard := c.heard ||| b, heardVote := if vote then c.heardVote ||| b else c.heardVote }) L
  else if vote && !voter L && L.b F.CLV_STAT_EXCL && !inSet L.clv.members (linkPeer L.id link) then
    setMembers (L.clv.members ||| laneBit (linkPeer L.id link)) L
  else L

/-- A good SAMPLE transfer (R151, R157, R491). DEDUCED: log 60. -/
def sampleIn (link : Nat) (x : Xfer) (L : Lane) : Lane :=
  let peer := linkPeer L.id link
  let L0 := hear false link (putQuiet link 0 L)
  let L1 := if !voter L0 && inSet L0.clv.members peer then
      withClv (fun c => { c with tookNum := true }) (if L0.ckpt = x.aux0 then L0 else L0.put F.TLS_CKPT_NUM_CKPT x.aux0)
    else L0
  if !L1.clv.round || L1.clv.voteDone || (L1.clv.prov.isSome && inSet L1.clv.members peer) || (rxS L1 link).done then L1
  else
    let r := rxS L1 link
    let ws := r.words ++ x.payload
    let r1 : RxSample := if xfLast x then ⟨ws, decide (ws.length = nIn L1), x.aux1, x.aux0⟩ else { r with words := ws }
    let L2 := putRxS link r1 L1
    if samplesIn L2 then provStep L2 else L2
def execSampleTransfer (l : LaneId) (link : Fin 2) (x : Xfer) (s : State) : Host.Outcome State Fault Refusal :=
  .next (onLaneReq l (onLink 1 link.val x (sampleIn link.val x) id) s)

/-- A good VOTE transfer (R153, R156). DEDUCED: log 60. -/
def voteIn (link : Nat) (x : Xfer) (L : Lane) : Lane :=
  let L0 := hear true link L
  if !L0.clv.round || L0.clv.voteDone || (rxV L0 link).done then L0
  else
    let L1 := putRxV link ⟨x.payload, decide (x.payload.length = nVote L0), x.aux0, x.aux1, BitVec.ofNat 4 (xfFlags x)⟩ L0
    if votesIn L1 && L1.clv.prov.isSome then voteStep L1 else L1
def execVoteTransfer (l : LaneId) (link : Fin 2) (x : Xfer) (s : State) : Host.Outcome State Fault Refusal :=
  .next (onLaneReq l (onLink 2 link.val x (voteIn link.val x) id) s)

/-- A MIRROR transfer: the words of the round are installed with the last; a failed one discards the set (R298). -/
def mirrorIn (link : Nat) (x : Xfer) (L : Lane) : Lane :=
  let peer := linkPeer L.id link
  let m := rxM L link
  if m.bad then L
  else if xfLast x then mirrorRound peer (m.words ++ x.payload) (!inSet L.clv.minor peer) (putRxM link ⟨[], true⟩ L)
  else putRxM link ⟨m.words ++ x.payload, false⟩ L
def mirrorBad (link : Nat) (L : Lane) : Lane :=
  if (rxM L link).bad then L else mirrorRound (linkPeer L.id link) [] false (putRxM link ⟨[], true⟩ L)
def execMirrorTransfer (l : LaneId) (link : Fin 2) (x : Xfer) (s : State) : Host.Outcome State Fault Refusal :=
  .next (s.onLane l (whenLive (onLink 3 link.val x (mirrorIn link.val x) (mirrorBad link.val))))

/-- A CATCHUP transfer (R167). -/
def catchupIn (link : Nat) (x : Xfer) (L : Lane) : Lane :=
  if L.n F.CLV_STAT_REINT_STATE = 2 then
    let c := rxC L link
    let ws := c.words ++ x.payload
    putRxC link ⟨ws, xfLast x && decide (ws.length = agreeH L 0x16)⟩ L
  else L
def execCatchupTransfer (l : LaneId) (link : Fin 2) (x : Xfer) (s : State) : Host.Outcome State Fault Refusal :=
  .next (s.onLane l (whenLive (onLink 4 link.val x (catchupIn link.val x) id)))

/-- A FORM transfer (R159, R491). -/
def formIn (link : Nat) (x : Xfer) (L : Lane) : Lane :=
  withClv (fun c =>
    let f : Option RxForm := some ⟨nth x.payload 0 0, x.aux0⟩
    if link = 0 then { c with rxF0 := f } else { c with rxF1 := f }) L
def execFormTransfer (l : LaneId) (link : Fin 2) (x : Xfer) (s : State) : Host.Outcome State Fault Refusal :=
  .next (s.onLane l (whenLive (onLink 0 link.val x (formIn link.val x) id)))

/-- A MAILBOX transfer: its words go into the inbox of the link. With the last transfer of the message LLK_MBX_RX records the
arrival of all its words, PLIC source 52 (R50, R155, R165). DEDUCED: log 63. -/
def mailboxIn (link : Nat) (x : Xfer) (L : Lane) : Lane :=
  let off := x.aux0.toNat % 4096
  let base := mbxBase + 0x8000 + 0x4000 * link
  let ws := x.payload.take (4096 - off)
  let L1 := (writeWords (base + 4 * off) ws L).2
  let msg : Nat × Nat := match (if link = 0 then L.clv.mbx0 else L.clv.mbx1) with
    | some (o, n) => if o + n = off then (o, n + ws.length) else (off, ws.length)
    | none => (off, ws.length)
  let keep (m : Option (Nat × Nat)) (L : Lane) : Lane :=
    withClv (fun c => if link = 0 then { c with mbx0 := m } else { c with mbx1 := m }) L
  if xfLast x then
    let L2 := if L1.b F.LLK_MBX_RX_VALID then L1.setB F.LLK_MBX_RX_OVR true else L1
    plicRaise 52 ((((keep none L2).setB F.LLK_MBX_RX_VALID true).putN F.LLK_MBX_RX_FROM link).putN F.LLK_MBX_RX_LEN_W msg.2
      |>.putN F.LLK_MBX_RX_OFF_W msg.1)
  else keep (some msg) L1
def execMailboxTransfer (l : LaneId) (link : Fin 2) (x : Xfer) (s : State) : Host.Outcome State Fault Refusal :=
  .next (s.onLane l (whenLive (onLink 5 link.val x (mailboxIn link.val x) id)))

/-- Every FAULT of the mailbox role raises 0x071. -/
def mbFault (ld : LD) : LD := onL (raise 0x071) ld

/-- The link that a MB_SEND uses. -/
def mbLink (r : Run) : Nat := if bitAt r.d.w4 31 then 1 else 0

/-- A message on its way when its link is down ends FAULT ERR_LINK; PROGRESS is the bytes that the peer has acknowledged, a free
number of whole transfers short of the last (R165). -/
def mbLost (ld : LD) : LD :=
  match runningOp ld.1 3 0x01 with
  | none => ld
  | some r =>
    if r.aux = 1 ∧ ¬ linkIsUp ld.1 (mbLink r) then
      let f := ld.1.freeW
      mbFault (finish 3 { r with progress := 256 * (f.1.toNat % xfers (r.d.length / 4)) } errLink stFault 0 (f.2, ld.2))
    else ld

/-- A link is declared down (R157): source 0x06C, PLIC source 53; a duplex peer is lost, and a triplex lane with no link to a
member leaves (R162). DEDUCED: log 62. -/
def linkDrop (link : Nat) (L : Lane) : Lane :=
  if linkIsUp L link then
    let L1 := plicRaise 53 (raise 0x06C (putQuiet link 0 (L.setB (F.LLK_LINKl_STAT_UP link) false)))
    let peer := linkPeer L1.id link
    match otherMembers L1 with
    | [p] => if voter L1 ∧ p = peer then dropPeer p L1 else L1
    | [_, _] => if voter L1 && !linkIsUp L1 0 && !linkIsUp L1 1 then leaveSet L1 else L1
    | _ => L1
  else L
/-- Three rounds in a row have ended without a good SAMPLE transfer: the round in progress is the fourth (R157). -/
def execLinkDown (l : LaneId) (link : Fin 2) (s : State) : Host.Outcome State Fault Refusal :=
  .next (onDie l mbLost (onLaneReq l (fun L => if 4 ≤ quietOf L link.val then linkDrop link.val L else L) s))

/-- The link loses its block lock (R157). -/
def execBlockLockLoss (l : LaneId) (link : Fin 2) (s : State) : Host.Outcome State Fault Refusal :=
  .next (onDie l mbLost (onLaneReq l (linkDrop link.val) s))

/-- The links train: from substate 0x3 on; a woken lane only once it rejoins, but for one that is CLOCK_DEGRADED (R158, R411,
R412). DEDUCED: log 62. -/
def mayTrain (L : Lane) : Bool :=
  (decide (L.n F.TLS_MS_STAT_MODE ≠ mStartup) || decide (3 ≤ L.n F.TLS_MS_STAT_SUBSTATE)) &&
    (decide (L.pwr.phase = .run) || L.b F.CLK_STAT_DEGRADED)

/-- A training attempt ends (R158): counted; with the peer's FORM exchange the link is up; three failures in substate 0x3 give
it up with source 0x06D. Substate 0x3 ends when both links are up or given up. DEDUCED: log 62. -/
def linkTraining (link : Nat) (res : Option TrainInfo) (L : Lane) : Lane :=
  if linkIsUp L link || !mayTrain L then L
  else
    let L1 := L.inc (F.LLK_LINKl_STAT_TRAIN_CNT link)
    let gave (c : ClvSt) : Bool := if link = 0 then c.gaveUp0 else c.gaveUp1
    let peer := linkPeer L.id link
    let L2 := match res with
      | some t =>
        if t.letter = peer then
          plicRaise 53 (putQuiet link 0 (withClv (fun c =>
            if link = 0 then { c with dig0 := t.digest, digDiff0 := false, train0 := 0 }
            else { c with dig1 := t.digest, digDiff1 := false, train1 := 0 })
            (((L1.setB (F.LLK_LINKl_STAT_UP link) true).setB (F.LLK_LINKl_STAT_TRAINED link) true).putN
              (F.LLK_LINKl_STAT_PEER link) (laneNo peer))))
        else L1
      | none => L1
    let L3 := if linkIsUp L2 link || gave L2.clv || decide (substate L2 ≠ 3) then L2
      else
        let k := (if link = 0 then L2.clv.train0 else L2.clv.train1) + 1
        let a := withClv (fun c => if link = 0 then { c with train0 := k, gaveUp0 := decide (3 ≤ k) }
          else { c with train1 := k, gaveUp1 := decide (3 ≤ k) }) L2
        if 3 ≤ k then raise 0x06D a else a
    if substate L3 = 3 && (linkIsUp L3 0 || L3.clv.gaveUp0) && (linkIsUp L3 1 || L3.clv.gaveUp1) then nteStart (setSubstate 4 L3)
    else L3
def execLinkTraining (l : LaneId) (link : Fin 2) (res : Option TrainInfo) (s : State) : Host.Outcome State Fault Refusal :=
  .next (s.onLane l (whenLive (linkTraining link.val res)))

/-- A write to CLV_CTL (R166): the request waits until its conditions hold. -/
def execReint (l : LaneId) (val : Word) (s : State) : Host.Outcome State Fault Refusal :=
  .next (s.onLane l (whenLive (fun L => if bitAt val 0 then L.setB F.CLV_CTL_REINT true else L)))

/-- Every slice of the BIST plan has passed: REINT_READY, and the catch-up set is awaited (R167, steps 2 and 3). -/
def reintBist (L : Lane) : Lane :=
  if L.n F.CLV_STAT_REINT_STATE = 1 ∧ (List.range (L.n F.BSC_STAT_NSLICE)).all (fun r => L.bsc.done.contains r) then
    withClv (fun c => { c with reintReady := true, reintAge := 0, rxC0 := default, rxC1 := default })
      (L.putN F.CLV_STAT_REINT_STATE 2)
  else L
def execReintBistComplete (l : LaneId) (s : State) : Host.Outcome State Fault Refusal :=
  .next (s.onLane l (whenLive reintBist))

/-- A peer's cross-lane halt request is seen; it is obeyed at the next checkpoint instant (R177). -/
def execCrossLaneHaltRequest (l : LaneId) (peer : LaneId) (s : State) : Host.Outcome State Fault Refusal :=
  .next (s.onLane l (whenLive (fun L =>
    if peer = L.id then L else { L with lsm := { L.lsm with haltSeen := L.lsm.haltSeen ||| laneBit peer } })))

def clvErrFlds : List Fld :=
  [F.CLV_ERR_SPLIT_CNT, F.CLV_ERR_LATE_CNT, F.CLV_ERR_DROP_CNT, F.CLV_ERR_MISM_CNT]
def execClvErrClr (l : LaneId) (val : Word) (s : State) : Host.Outcome State Fault Refusal :=
  .next (s.onLane l (whenLive (clearBy clvErrFlds val)))
def llkLinkFlds (link : Nat) : List Fld :=
  [F.LLK_LINKl_STAT_CRC_CNT link, F.LLK_LINKl_STAT_MISS_CNT link, F.LLK_LINKl_STAT_TRAIN_CNT link]
def execLlkLinkClr (l : LaneId) (link : Fin 2) (val : Word) (s : State) : Host.Outcome State Fault Refusal :=
  .next (s.onLane l (whenLive (clearBy (llkLinkFlds link.val) val)))
def execLsmRawClear (l : LaneId) (n : Fin 8) (val : Word) (s : State) : Host.Outcome State Fault Refusal :=
  .next (s.onLane l (whenLive (fun L => L.clrF (F.LSM_RAWn_RAW n.val) val)))

/-- MB_SEND (R165): the message is read and sent, and completes with the peer's acknowledgement; a link that is down ends it FAULT
ERR_LINK. DESIGN CHOICE: log 20; DEDUCED: log 63. -/
def mbSend (ld : LD) : LD :=
  match runningOp ld.1 3 0x01 with
  | none => ld
  | some r =>
    if r.aux = 1 then ld
    else if !linkIsUp ld.1 (mbLink r) then mbFault (finish 3 r errLink stFault 0 ld)
    else
      match iovaReadN 3 r.d.ctx r.d.src r.d.length ld with
      | (.error e, ld1) => if e.code = errWait then ld1 else mbFault (finishErr 3 r e ld1)
      | (.ok _, ld1) =>
        onL (fun L => setEng 3 { getEng L 3 with run := some { r with aux := 1 } } (launch (mbLink r) (xfers (r.d.length / 4)) L))
          ld1
def execMbSend (l : LaneId) (s : State) : Host.Outcome State Fault Refusal := .next (onDie l mbSend s)

/-- The peer acknowledges the last transfer of the message (R165). DEDUCED: log 63. -/
def mbAcked (ld : LD) : LD :=
  match runningOp ld.1 3 0x01 with
  | none => ld
  | some r => if r.aux = 1 then finish 3 { r with progress := r.d.length } 0 stDone 0 ld else ld
def execMailboxAcknowledged (l : LaneId) (s : State) : Host.Outcome State Fault Refusal := .next (onDie l mbAcked s)

/-- MB_SEND past the end of the inbox, or with other ARG0 bits set, is ERR_PARAM at fetch (R132, R165).
DEDUCED: log 56. -/
def parmMailbox (r : Run) : Option (Nat × Nat × Word) :=
  if bitsOf r.d.w4 14 17 ≠ 0 ∨ bitsOf r.d.w4 0 2 ≠ 0 ∨ 16384 < 4 * bitsOf r.d.w4 2 12 + r.d.length then
    some (errParam, stFault, 0) else none

end Sys2Proof.Machine
end

