-- ==== Sys2Proof/Machine/Star.lean ====
section
/-! DEFINITION. The star: PHY links, the guardian, drift, isolation and truncation (R306 to R314, R326 to R330, R332, R343 to
R347, R349). -/

namespace Sys2Proof.Machine

/-- The latest violation or refusal of a port. -/
def portLast (p : Nat) (slot : Option Nat) (kind : Nat) (L : Lane) : Lane :=
  if p < 12 then
    let L1 := L.putN (F.SSG_PORTp_LAST_KIND p) kind
    match slot with
    | some i => L1.putN (F.SSG_PORTp_LAST_SLOT p) i
    | none => L1
  else L

/-- A port is isolated. -/
def portIso (L : Lane) (p : Nat) : Bool := if p < 12 then L.b (F.SSG_PORTp_STAT_ISO p) else (portOf L p).iso

/-- ISO and PROB of a port as the registers show them. DEDUCED: log 83. -/
def showIso (p : Nat) (iso prob : Bool) (L : Lane) : Lane :=
  if p < 12 then
    (((L.setB (F.SSG_PORTp_STAT_ISO p) iso).setBit F.SSG_STAT_ISO p iso).setB (F.NTE_SVIEWp_ISO p) iso).setB
      (F.NTE_SVIEWp_PROB p) prob
  else L

/-- A port is isolated from this frame start on; the fourth time until lane reset, with source 0x0D2 (R329, R345, R346).
DEDUCED: log 83. -/
def isolate (p : Nat) (L : Lane) : Lane :=
  if portIso L p then L
  else
    let n := (smFind L.pwr.isos (portIx p)).getD 0
    let last := decide (3 ≤ n)
    let L0 := { L with pwr := { L.pwr with isos := smSet L.pwr.isos (portIx p) (n + 1) } }
    let L1 := setPort p (fun x => { x with iso := true, goodRun := 0, hold := last }) (showIso p true (!last) L0)
    ssgEvent 6 (if last then raise 0x0D2 L1 else L1)

/-- A violation of a port is counted; at BABBLE_LIM the port is isolated (R329). DEDUCED: log 83. -/
def babble (p : Nat) (L : Lane) : Lane :=
  let n := (if p < 12 then L.n (F.SSG_PORTp_STAT_BAB_CNT p) else (portOf L p).bab) + 1
  let L1 := if p < 12 then L.inc (F.SSG_PORTp_STAT_BAB_CNT p) else setPort p (fun x => { x with bab := n }) L
  if L.n F.SSG_CFG_BABBLE_LIM ≤ n ∧ ¬ portIso L1 p then raise 0x0C6 (isolate p L1) else L1

/-- What refuses a frame (R326): 1 EARLY, 2 LATE, 3 UNSCHED, 4 HEADER, 5 LENGTH, 6 FOREIGN, the codes of SSG_PORTp_LAST. -/
def refuse (p kind : Nat) (slot : Option Nat) (L : Lane) : Lane :=
  let L0 := portLast p slot kind (setPort p (fun x => { x with failed := true }) L)
  match kind with
  | 1 => babble p (raise 0x0C0 (ssgEvent 0 (portInc p F.SSG_PORTp_ERR0_EARLY_CNT L0)))
  | 2 => babble p (raise 0x0C1 (ssgEvent 1 (portInc p F.SSG_PORTp_ERR0_LATE_CNT L0)))
  | 3 => babble p (raise 0x0C5 (ssgEvent 5 (portInc p F.SSG_PORTp_ERR1_UNSCHED_CNT L0)))
  | 4 => raise 0x0C4 (ssgEvent 4 (portInc p F.SSG_PORTp_ERR1_HDR_CNT L0))
  | 5 => raise 0x0C3 (ssgEvent 3 (portInc p F.SSG_PORTp_ERR0_LEN_CNT L0))
  | _ => raise 0x0C7 (ssgEvent 7 (portInc p F.SSG_PORTp_ERR1_FRAME_CNT L0))

/-- Header words of a frame from its first octets, and its fields (R313). -/
def hdr0Of (h : List Byte) : Nat := beNat ((h.drop 14).take 4)
def hdr1Of (h : List Byte) : Nat := beNat ((h.drop 18).take 4)
def fTyp (h : List Byte) : Nat := hdr0Of h / 2 ^ 24 % 16
def fNode (h : List Byte) : Nat := hdr0Of h / 2 ^ 16 % 256
def fSlot (h : List Byte) : Nat := hdr0Of h % 2 ^ 16
def fCyc (h : List Byte) : Nat := hdr1Of h / 2 ^ 26
def fLen (h : List Byte) : Nat := hdr1Of h / 2 ^ 15 % 2 ^ 11

/-- The first octets of an Ahnul frame (R313). -/
def mkHdr (L : Lane) (slot node typ c len reason : Nat) : List Byte :=
  let net := BitVec.ofNat 8 (laneNo L.id)
  [0x03, 0x41, 0x48, net] ++ natBytesBe 2 slot ++ [0x02, 0x41, 0x48, net, 0x00, BitVec.ofNat 8 node, 0x88, 0xB5] ++
    natBytesBe 4 (2 * 2 ^ 28 + typ * 2 ^ 24 + node * 2 ^ 16 + slot) ++ natBytesBe 4 (c * 2 ^ 26 + len * 2 ^ 15 + reason)

/-- An Ahnul frame: destination prefix and EtherType. -/
def isAhnul (h : List Byte) : Bool := decide (h.take 3 = [0x03, 0x41, 0x48] ∧ (h.drop 12).take 2 = [0x88, 0xB5])

/-- A TYPE is admitted in a record (R314). -/
def typeOk (L : Lane) (i : Nat) (r : SlotRec) (typ : Nat) : Bool :=
  match r.kind with
  | 0 => decide (typ ≤ 1)
  | 1 => claimed L i && decide (typ ≤ 1)
  | 2 => decide (typ = 2 ∨ typ = 3)
  | 3 => decide (typ = 4)
  | _ => false

/-- Condition 2 of R326: every octet up to HDR1 is as the record gives it; the cycle is checked where `c` gives one, NODE_ID but
in a CLAIM record (R347, R354). DEDUCED: log 82. -/
def headerOk (L : Lane) (i : Nat) (r : SlotRec) (c : Option Nat) (h : List Byte) : Bool :=
  let node := if r.kind = 3 then fNode h else r.node
  let cyc := c.getD (fCyc h)
  typeOk L i r (fTyp h) && decide (node ≠ 255) &&
    decide (h.take 22 = mkHdr L i node (fTyp h) cyc (fLen h) (hdr1Of h % 256))

/-- Condition 3 of R326. -/
def lengthOk (r : SlotRec) (h : List Byte) : Bool :=
  let reason := hdr1Of h % 256
  decide (fLen h ≤ r.payload) && (if fTyp h = 1 then decide (fLen h = 0 ∧ reason ≠ 0) else decide (reason = 0))

/-- A record counts as owned by a port (condition 1 of R326). -/
def ownedBy (L : Lane) (p i : Nat) (r : SlotRec) : Bool :=
  if r.kind = 1 && !claimed L i then
    (slotsWhere L (fun _ q => decide (q.kind = 3 ∧ q.cls = r.cls ∧ q.port = p))).length != 0
  else decide (r.port = p)

/-- The start of a slot in ns, and what its window is shifted by at a port that receives it over a trunk (R326). -/
def slotTs (r : SlotRec) : Int := 250 * r.start
def winShift (L : Lane) (p : Nat) (r : SlotRec) : Int := if r.xt && isTrunk L p then dTrunk else 0

/-- The offset of a frame that starts at `t` in a slot: from the action point, with D_T for a frame received over a trunk, at a
resolution of 8 ns (R343). -/
def offsetOf (L : Lane) (p : Nat) (r : SlotRec) (t : Int) : Int :=
  at8 (t - (slotTs r + 2000 + if isTrunk L p then dTrunk else 0))

/-- An admitted frame is being received. -/
def admitFrame (p i : Nat) (h : List Byte) (nt : Int) (L : Lane) : Lane :=
  let L1 := setPort p (fun x => { x with cur := some ⟨i, fTyp h, fLen h, hdr1Of h % 256, fNode h, L.time, nt⟩ }) L
  let L2 := if p < 12 then L1.incMod (F.SSG_PORTp_STAT_ADM_CNT p) else L1
  withNte (fun n => { n with adm := n.adm ++ [i] }) L2

/-- A signed number of ns as a 16-bit field, saturating. -/
def sat16 (o : Int) : Nat := (BitVec.ofInt 16 (max (-32767) (min 32767 o))).toNat

/-- The offset of a frame on a NODE or TRUNK port is measured (R343, R344): the first of a cycle counts. -/
def measure (p : Nat) (o : Int) (L : Lane) : Lane :=
  if portRole L p = 1 ∨ portRole L p = 2 then
    let L1 := L.putN (F.NTE_SVIEWp_OFS p) (sat16 o)
    let x := portOf L1 p
    if x.meas then L1
    else
      let big := decide (750 < o.natAbs)
      let hi := if big then x.hiRun + 1 else 0
      let lo := if big then 0 else x.loRun + 1
      let L2 := setPort p (fun x => { x with meas := true, measOk := decide (o.natAbs ≤ 500), hiRun := hi, loRun := lo }) L1
      if 4 ≤ hi ∧ ¬ L2.b (F.NTE_SVIEWp_DRIFT_WARN p) then raise 0x0D0 (L2.setB (F.NTE_SVIEWp_DRIFT_WARN p) true)
      else if 4 ≤ lo then L2.setB (F.NTE_SVIEWp_DRIFT_WARN p) false
      else L2
  else L

/-- The offset of a frame exceeds 1.25 us on a port where it is measured (R345). -/
def driftBad (L : Lane) (p : Nat) (o : Int) : Bool :=
  decide (portRole L p = 1 ∨ portRole L p = 2) && decide (1250 < o.natAbs)

/-- A port isolated by drift; `was`: it was isolated before this frame. -/
def driftIsolate (p : Nat) (o : Int) (was : Bool) (L : Lane) : Lane :=
  if driftBad L p o then
    let L1 := isolate p L
    if was then L1 else raise 0x0D1 L1
  else L

/-- The slots that a port owns in the cycle, with their starts; those of the next cycle stand after them, since an early frame
may belong to it. DEDUCED: log 82. -/
def ownedSlots (L : Lane) (p : Nat) : List (Nat × SlotRec × Int) :=
  let c := frameCyc L
  (slotsWhere L (fun i r => slotExists r c && ownedBy L p i r)).map (fun x => (x.1, x.2, slotTs x.2)) ++
  (slotsWhere L (fun i r => slotExists r ((c + 1) % 64) && ownedBy L p i r)).map
    (fun x => (x.1, x.2, slotTs x.2 + (cycNs L : Int)))

/-- The owned slot whose start is nearest. DEDUCED: log 82. -/
def nearest (t : Int) : List (Nat × SlotRec × Int) → Option (Nat × SlotRec × Int)
  | [] => none
  | x :: xs =>
    match nearest t xs with
    | none => some x
    | some y => if (t - x.2.2).natAbs ≤ (t - y.2.2).natAbs then some x else some y

/-- A frame start is judged while the schedule is enforced (R326, R343, R345); `t` ns after the cycle start.
DEDUCED: log 82. -/
def judgeRun (p : Nat) (t : Int) (h : List Byte) (L : Lane) : Lane :=
  let was := portIso L p
  let slots := ownedSlots L p
  let lo (ts : Int) (r : SlotRec) : Int := ts + 500 + winShift L p r
  match slots.find? (fun x => decide (lo x.2.2 x.2.1 ≤ t ∧ t ≤ lo x.2.2 x.2.1 + 3000) &&
      slotExists x.2.1 (frameCyc L) && decide (x.2.2 = slotTs x.2.1)) with
  | some (i, _, _) =>
    let rd := readWords (recAddr i) 4 L
    let r := slotRec rd.2 i
    let o := offsetOf L p r t
    if L.nte.adm.contains i then refuse p 3 (some i) L
    else if rd.1.isNone then refuse p 4 (some i) rd.2
    else if !isAhnul h then refuse p 6 (some i) rd.2
    else if !headerOk rd.2 i r (some (frameCyc L)) h then refuse p 4 (some i) rd.2
    else if !lengthOk r h then refuse p 5 (some i) rd.2
    else
      let L1 := measure p o rd.2
      if driftBad L1 p o then driftIsolate p o was (portInc p F.NTE_SVIEWp_DRIFT_CNT L1)
      else if portIso L1 p then L1
      else admitFrame p i h ((L.nte.cyc : Int) * (cycNs L : Int) + t) L1
  | none =>
    match nearest t slots with
    | none => refuse p 3 none L
    | some (i, r, ts) =>
      let o := offsetOf L p r (t - (ts - slotTs r))
      if ts - 8000 ≤ t ∧ t < lo ts r then driftIsolate p o was (refuse p 1 (some i) (measure p o L))
      else if lo ts r + 3000 < t ∧ t < ts + 250 * r.len then driftIsolate p o was (refuse p 2 (some i) (measure p o L))
      else refuse p 3 (some i) L

/-- This EK3 loses a collision at its own star: it abandons, and follows the winner (R349). -/
def csLose (winner : Nat) (L : Lane) : Lane := follow (some winner) none (csAbandon L)

/-- Network time at a frame start before RUN: by the cycle where the lane holds a time, else by lane time. -/
def coldNt (t : Int) (L : Lane) : Int := if L.nte.held then (L.nte.cyc : Int) * (cycNs L : Int) + t else ntNow L

/-- A COLDSTART start before RUN: a collision within 1 us goes to the lower port number (R349). DEDUCED: log 84. -/
def coldCollide (p i : Nat) (t : Int) (h : List Byte) (L : Lane) : Lane :=
  let take (L : Lane) : Lane :=
    withNte (fun n => { n with csLast := some (p, t, L.time) }) (admitFrame p i h (coldNt t L) L)
  match L.nte.csLast with
  | some (q, t', time') =>
    if q ≠ p ∧ (t - t').natAbs ≤ 1000 ∧ L.time - time' ≤ 2000 then
      let L1 := raise 0x0D3 (L.inc F.NTE_CS_ERR_COLL_CNT)
      if p < q then
        let L2 := take (setPort q (fun x => { x with cur := none }) L1)
        if q = 15 then csLose p L2 else L2
      else if p = 15 then csLose q L1 else L1
    else take L
  | none => take L

/-- A frame start is judged before RUN: only SYNC and COLDSTART frames of a port that owns the SYNC record, without slot timing
and cycle; nothing refused is counted (R347). DEDUCED: log 84. -/
def judgeCold (p : Nat) (t : Int) (h : List Byte) (L : Lane) : Lane :=
  let i := fSlot h
  if nRec L ≤ i then L
  else
    let rd := readWords (recAddr i) 4 L
    let r := slotRec rd.2 i
    if rd.1.isSome && isAhnul h && decide (r.kind = 2 ∧ r.port = p) && headerOk rd.2 i r none h && lengthOk r h then
      if fTyp h = 3 then coldCollide p i t h rd.2 else admitFrame p i h (coldNt t rd.2) rd.2
    else rd.2

/-- A frame start at a port of the star (R326, R330, R347). DEDUCED: log 82. -/
def judge (p : Nat) (t : Int) (h : List Byte) (L : Lane) : Lane :=
  let L0 := setPort p (fun x => { x with cur := none }) L
  if L.b F.SSG_STAT_RUN then judgeRun p t h L0 else judgeCold p t h L0

/-- The PHYs are powered, and a port can be in use. -/
def portLive (L : Lane) (p : Nat) : Bool :=
  decide (p = 15) || (decide (p < 12) && L.bit F.AOS_STAT_ON 6 && L.b (F.SSG_PORTp_STAT_LINK p))

def execFrameStart (l : LaneId) (port : Fin 16) (t : Int) (hdr : List Byte) (s : State) : Host.Outcome State Fault Refusal :=
  .next (abandonAll l s (s.onLane l (whenLive (fun L => if portLive L port.val then judge port.val t hdr L else L))))

/-- A port's link comes up (R308). -/
def phyUp (p : Nat) (L : Lane) : Lane :=
  if L.bit F.AOS_STAT_ON 6 && (decide (portRole L p = 1 ∨ portRole L p = 2)) && !L.b (F.SSG_PORTp_STAT_LINK p) then
    ssgEvent 8 ((L.setB (F.SSG_PORTp_STAT_LINK p) true).setBit F.SSG_STAT_LINK p true)
  else L
def execPhyLinkUp (l : LaneId) (p : Fin 12) (s : State) : Host.Outcome State Fault Refusal :=
  .next (s.onLane l (whenLive (phyUp p.val)))

def execPhyLinkDown (l : LaneId) (p : Fin 12) (s : State) : Host.Outcome State Fault Refusal :=
  .next (s.onLane l (whenLive (phyDown p.val)))

/-- An admitted frame overruns its slot: truncated, counted, source 0x0C2 (R327). -/
def truncate (p : Nat) (L : Lane) : Lane :=
  match (portOf L p).cur with
  | some c =>
    raise 0x0C2 (ssgEvent 2 (portLast p (some c.slot) 7 (portInc p F.SSG_PORTp_ERR0_TRUNC_CNT
      (setPort p (fun x => { x with cur := none }) L))))
  | none => L
def execFrameTruncation (l : LaneId) (port : Fin 16) (s : State) : Host.Outcome State Fault Refusal :=
  .next (s.onLane l (whenLive (truncate port.val)))

/-- The admitted frame of a type that ends at a port, with the lane as the star's last checks leave it: FCS, octet count, link
(R328). -/
def frameEnd (p : Nat) (typs : List Nat) (f : FrameEnd) (L : Lane) : Option Cur × Lane :=
  match (portOf L p).cur with
  | some c =>
    if !typs.contains c.typ then (none, L)
    else if f.fcsOk && f.linkOk && decide (f.octets = 26 + max c.len 38) then
      (some c, setPort p (fun x => { x with cur := none }) L)
    else (none, frameBad p L)
  | none => (none, L)

/-- The state of the ports at a cycle start: the cycle's measurement counts towards probation (R346). DEDUCED: log 83. -/
def portCycle (hp : Bool) (p : Nat) (L : Lane) : Lane :=
  let x := portOf L p
  let run := if x.failed then 0 else if x.meas then (if x.measOk then x.goodRun + 1 else 0) else x.goodRun
  let L1 := setPort p (fun x => { x with meas := false, measOk := false, failed := false, goodRun := run }) L
  if hp then
    let L2 := if p < 12 then L1.putN (F.SSG_PORTp_STAT_BAB_CNT p) 0 else setPort p (fun x => { x with bab := 0 }) L1
    if portIso L2 p && decide (8 ≤ run) && !x.hold then
      let L3 := setPort p (fun x => { x with iso := false, goodRun := 0 }) (showIso p false false L2)
      portInc p F.NTE_SVIEWp_REINT_CNT L3
    else L2
  else L1

/-- The counts of every port (SSG_ERR_CLR). -/
def ssgErrFlds : List Fld :=
  (List.range 12).flatMap (fun p => [F.SSG_PORTp_ERR0_EARLY_CNT p, F.SSG_PORTp_ERR0_LATE_CNT p, F.SSG_PORTp_ERR0_TRUNC_CNT p,
    F.SSG_PORTp_ERR0_LEN_CNT p, F.SSG_PORTp_ERR1_HDR_CNT p, F.SSG_PORTp_ERR1_UNSCHED_CNT p, F.SSG_PORTp_ERR1_FRAME_CNT p,
    F.SSG_PORTp_ERR1_DOWN_CNT p, F.SSG_PORTp_LAST_SLOT p, F.SSG_PORTp_LAST_KIND p])
def execSsgErrClr (l : LaneId) (val : Word) (s : State) : Host.Outcome State Fault Refusal :=
  .next (s.onLane l (whenLive (clearBy ssgErrFlds val)))

end Sys2Proof.Machine
end

