-- ==== Sys2Proof/Machine/Net.lean ====
section
/-! DEFINITION. The network engine: signals and end-to-end protection, sending and receiving, network time, cold start and
integration, spare-slot claims (R315 to R325, R333 to R356). What the engine sends is an output; of it, what it changes in the
lane is modelled. -/

namespace Sys2Proof.Machine

/-- A directory entry (R319). -/
structure DirEnt where
  valid : Bool
  tx : Bool
  netmask : Nat
  len : Nat
  maxgap : Nat
  tmo : Nat
  slot : Nat
  offset : Nat
  buf : Nat
  map : Nat
  idx : Nat
  staten : Bool
  sword : Nat
  sbit : Nat
deriving DecidableEq, Repr, Inhabited

/-- Directory entry `i` from its four words. -/
def dirOf (w0 w1 w2 w3 : Word) : DirEnt :=
  { valid := bitAt w0 31, tx := bitAt w0 30, netmask := bitsOf w0 27 3, len := bitsOf w0 21 6 + 1, maxgap := bitsOf w0 13 8
    tmo := bitsOf w0 5 8, slot := bitsOf w1 16 16, offset := bitsOf w1 0 10, buf := w2.toNat, map := bitsOf w3 30 2
    idx := bitsOf w3 22 8, staten := bitAt w3 21, sword := bitsOf w3 13 8, sbit := bitsOf w3 8 5 }
def dirAddr (i : Nat) : Nat := netBase + 16 * i
def dirRaw (L : Lane) (i : Nat) : DirEnt :=
  dirOf (L.rdW (dirAddr i)) (L.rdW (dirAddr i + 4)) (L.rdW (dirAddr i + 8)) (L.rdW (dirAddr i + 12))

/-- The entries of this lane's network whose VALID bit is set, in index order. -/
def dirList (L : Lane) : List (Nat × DirEnt) :=
  (L.mem.filter (fun c => inRange c.1 netBase 0x200000 && decide (c.1 % 16 = 3) && c.2.getLsbD 7)).filterMap (fun c =>
    let i := (c.1 - netBase) / 16
    let e := dirRaw L i
    if e.netmask.testBit (laneNo L.id) then some (i, e) else none)

/-- Entries in ascending OFFSET order. -/
def insOff (x : Nat × DirEnt) : List (Nat × DirEnt) → List (Nat × DirEnt)
  | [] => [x]
  | y :: ys => if x.2.offset ≤ y.2.offset then x :: y :: ys else y :: insOff x ys
def sortOff : List (Nat × DirEnt) → List (Nat × DirEnt)
  | [] => []
  | x :: xs => insOff x (sortOff xs)

/-- The signals of a slot that are sent, or received. -/
def slotSigs (L : Lane) (slot : Nat) (tx : Bool) : List (Nat × DirEnt) :=
  sortOff ((dirList L).filter (fun e => decide (e.2.slot = slot) && (e.2.tx == tx)))

/-- A signal's buffer in lane memory: status word 0, word 1, data. -/
def bufAddr (e : DirEnt) : Nat := netBase + e.buf

/-- A status word 0 with its LAST_ERR replaced. -/
def withErr (w : Word) (k : Nat) : Word := (w &&& 0xFF00FFFF) ||| at' 16 k

/-- An event of the network engine: bit 0 CYC, 1 RX, 2 ERR, with PLIC sources 67 to 69 (NTE_EVSTAT). -/
def nteEvent (b : Nat) (L : Lane) : Lane :=
  let on (st en : Fld) (src : Nat) : Lane := let L1 := L.setB st true; if L.b en then plicRaise src L1 else L1
  match b with
  | 0 => on F.NTE_EVSTAT_CYC F.NTE_EVEN_CYC 67
  | 1 => on F.NTE_EVSTAT_RX F.NTE_EVEN_RX 68
  | _ => on F.NTE_EVSTAT_ERR F.NTE_EVEN_ERR 69

/-- A receive error of a signal: NTE_LAST, LAST_ERR, and for all but REPEAT the error event (R317, R319). -/
def rxErr (i : Nat) (e : DirEnt) (kind : Nat) (L : Lane) : Lane :=
  let L1 := (L.putN F.NTE_LAST_KIND kind).putN F.NTE_LAST_SIGNAL i
  let st := readW (bufAddr e) L1
  let L2 := match st.1 with
    | some w => (writeW (bufAddr e) (withErr w kind) st.2).2
    | none => st.2
  if kind = 3 then L2 else nteEvent 2 L2

/-- A delivery (R318): data, then the status with VALID 1, AGE 0, LASTF and the macrotick. DEDUCED: log 87. -/
def deliver (e : DirEnt) (fresh : Byte) (data : List Byte) (L : Lane) : Lane :=
  let a := bufAddr e
  let w := (L.rdW a &&& 0x40FF0000) ||| 0x80000000 ||| fresh.setWidth 32
  (writeWords a [w, mtick L] (writeBytes (a + 8) data L).2).2

/-- One element of a DATA frame (R317): the lane afterwards, and whether it was delivered. An unreadable directory entry or
buffer delivers nothing (R492). DEDUCED: log 87. -/
def element (payload : List Byte) (len : Nat) (i : Nat) (L : Lane) : Lane × Bool :=
  let rd := readWords (dirAddr i) 4 L
  let e := dirRaw rd.2 i
  let st := readW (bufAddr e) rd.2
  match rd.1, st.1 with
  | some _, some w =>
    let L1 := st.2
    let el := (payload.drop e.offset).take (e.len + 5)
    let fresh := nth el 0 0
    let data := (el.drop 1).take e.len
    let delta := (fresh.toNat + 256 - bitsOf w 0 8) % 256
    if len < e.offset + e.len + 5 then (raise 0x0CE (rxErr i e 1 (L1.inc F.NTE_RXERR0_SHORT_CNT)), false)
    else if beNat (el.drop (e.len + 1)) ≠ (crc32c (natBytesBe 4 i ++ fresh :: data)).toNat then
      (raise 0x0C9 (rxErr i e 2 (L1.inc F.NTE_RXERR0_CRC_CNT)), false)
    else if !bitAt w 31 then (deliver e fresh data L1, true)
    else if delta = 0 then (rxErr i e 3 (L1.inc F.NTE_RXERR1_REPEAT_CNT), false)
    else if delta ≤ e.maxgap then (deliver e fresh data L1, true)
    else
      let L2 := (writeW (bufAddr e) ((w &&& 0xFFFFFF00) ||| fresh.setWidth 32) L1).2
      (raise 0x0CA (rxErr i e 4 (L2.inc F.NTE_RXERR0_GAP_CNT)), false)
  | none, _ => (rd.2, false)
  | _, none => (st.2, false)

/-- An admitted DATA frame ends (R317, R318). -/
def dataFrame (p : Nat) (f : FrameEnd) (L : Lane) : Lane :=
  let r := frameEnd p [0] f L
  match r.1 with
  | none => r.2
  | some c =>
    let rec' := slotRec r.2 c.slot
    if !rec'.fwd.testBit 12 then r.2
    else
      let payload := (f.payload.drop 8).take c.len
      let o := (slotSigs r.2 c.slot false).foldl (fun (q : Lane × Bool) s =>
        let x := element payload c.len s.1 q.1
        (x.1, q.2 || x.2)) (r.2, false)
      if o.2 && rec'.rxirq then nteEvent 1 o.1 else o.1
def execDataFrame (l : LaneId) (port : Fin 16) (f : FrameEnd) (s : State) : Host.Outcome State Fault Refusal :=
  .next (s.onLane l (whenLive (dataFrame port.val f)))

/-- An admitted NULL frame ends; its REASON is recorded (R323, R324). DESIGN CHOICE: log 87. -/
def nullFrame (p : Nat) (f : FrameEnd) (L : Lane) : Lane :=
  let r := frameEnd p [1] f L
  match r.1 with
  | none => r.2
  | some c =>
    if !(slotRec r.2 c.slot).fwd.testBit 12 then r.2
    else
      let L0 := withNte (fun n => { n with nulls := smSet n.nulls c.slot c.reason }) r.2
      let L1 := (slotSigs L0 c.slot false).foldl (fun a s => rxErr s.1 s.2 6 a) L0
      raise 0x0CC (nteEvent 2 (L1.inc F.NTE_RXERR1_NULL_CNT))
def execNullFrame (l : LaneId) (port : Fin 16) (f : FrameEnd) (s : State) : Host.Outcome State Fault Refusal :=
  .next (s.onLane l (whenLive (nullFrame port.val f)))

/-- The data bytes of `n` words, most significant byte first; and the words of data bytes, unused trailing bytes 0 (R321,
R325). -/
def wordsBe (ws : List Word) : List Byte := ws.flatMap wordBytesBe
def beWords : Nat → List Byte → List Word
  | 0, _ => []
  | n + 1, bs => leWord ((bs.take 4 ++ List.replicate (4 - (bs.take 4).length) 0).reverse) :: beWords n (bs.drop 4)

/-- One send signal taken by NET_TX (R321): FRESH and data as they will be sent; whether the value is new; none where a word
cannot be read. FRESH stays 0 until a value of the signal has been sent (R317). DEDUCED: log 87. -/
def takeSig (slot : Nat) (i : Nat) (e : DirEnt) (L : Lane) : Option (Bool × Nat × List Byte) × Lane :=
  let prev := smFind L.nte.sent i
  let step (data : List Byte) (L : Lane) : Option (Bool × Nat × List Byte) × Lane :=
    let f := match prev with
      | some p => if L.nte.onAir.contains i then (p.1 + 1) % 256 else 0
      | none => 0
    (some (true, f, data), withNte (fun n => { n with sent := smSet n.sent i (f, data) }) L)
  let old (data : List Byte) (L : Lane) : Option (Bool × Nat × List Byte) × Lane :=
    match prev with
    | some p => (some (false, p), L)
    | none => (some (false, 0, data), withNte (fun n => { n with sent := smSet n.sent i (0, data) }) L)
  if e.map = 2 then
    let r := readWords (votedOff L + 4 * e.idx) ((e.len + 3) / 4) L
    match r.1 with
    | none => (none, r.2)
    | some ws =>
      let data := (wordsBe ws).take e.len
      if L.nte.rel && !L.nte.relSeen.contains slot then step data r.2 else old data r.2
  else
    let st := readW (bufAddr e) L
    let d := readBytes (bufAddr e + 8) e.len st.2
    match st.1, d.1 with
    | some w, some data =>
      if bitAt w 30 then step data (writeW (bufAddr e) (setBit w 30 false) d.2).2 else old data d.2
    | _, _ => (none, d.2)

/-- NET_TX for record `slot` (R321): the frame of its next existence is prepared. `pos`: ns from the cycle start.
DEDUCED: log 87. -/
def netTx (slot : Nat) (pos : Int) (L : Lane) : Lane :=
  let sigs := slotSigs L slot true
  let len := (sigs.map (fun s => s.2.offset + s.2.len + 5)).foldl max 0
  let go := sigs.foldl (fun (q : (Bool × Bool × List (Nat × Nat × List Byte)) × Lane) s =>
    let rd := readWords (dirAddr s.1) 4 q.2
    match rd.1 with
    | none => ((q.1.1, true, q.1.2.2), rd.2)
    | some _ =>
      let r := takeSig slot s.1 s.2 rd.2
      match r.1 with
      | none => ((q.1.1, true, q.1.2.2), r.2)
      | some v => ((q.1.1 || v.1, q.1.2.1, q.1.2.2 ++ [(s.1, v.2)]), r.2)) ((false, false, []), L)
  let reason := if go.1.2.1 then 4 else if go.1.1 then 0 else 1
  withNte (fun n => { n with
    prep := smSet n.prep slot ⟨reason, go.1.1, go.1.2.2, len, n.cyc, pos⟩
    relSeen := if n.relSeen.contains slot then n.relSeen else slot :: n.relSeen }) go.2

/-- One bit of a word in memory; a word that cannot be read stays as it is (R492). -/
def putBit (a i : Nat) (v : Bool) (L : Lane) : Lane :=
  let r := readW a L
  match r.1 with
  | some w => (writeW a (setBit w i v) r.2).2
  | none => r.2

/-- NET_RX for record `slot` (R325): data words and validity bits go into the input sample. -/
def netRx (slot : Nat) (L : Lane) : Lane :=
  (slotSigs L slot false).foldl (fun a s =>
    let e := s.2
    let rd := readWords (dirAddr s.1) 4 a
    if rd.1.isNone then rd.2
    else
      let st := readW (bufAddr e) rd.2
      let d := readBytes (bufAddr e + 8) e.len st.2
      let valid := match st.1, d.1 with
        | some w, some _ => bitAt w 31
        | _, _ => false
      let a1 := if valid && decide (e.map = 1) then
          (writeWords (sampleOff d.2 + 4 * e.idx) (beWords ((e.len + 3) / 4) (d.1.getD [])) d.2).2
        else d.2
      if e.staten then
        putBit (sampleOff a1 + 4 * e.sword) e.sbit valid a1
      else a1) L

/-- The first three cases of R322 for a slot: the reason, 0 none. DEDUCED: log 87. -/
def nullCase (slot : Nat) (L : Lane) : Nat :=
  if curMode L = mStartup ∧ (substate L < 6 ∨ substate L = 7) then 2
  else if L.b F.CLV_STAT_EXCL && (slotSigs L slot true).any (fun e => decide (e.2.map = 2)) then 5
  else if L.b F.LSM_STAT_IMM then 7
  else 0

/-- The shift that Pepper's TX_SHIFT gives an own frame, in ns (R431). -/
def txShift (slot : Nat) (L : Lane) : Int × Lane :=
  let p := pepper 5 0 (fun prm => decide (bitsOf prm 0 16 = slot)) L
  match p.1 with
  | some prm => (8 * sext16 (bitsOf prm 16 16), p.2)
  | none => (0, p.2)

/-- An own frame starts at the internal port: at the action point, as shifted. -/
def sendOwn (slot : Nat) (r : SlotRec) (typ len reason : Nat) (L : Lane) : Lane :=
  let sh := txShift slot L
  setPort 15 (fun x => { x with cur := none })
    (judge 15 (250 * r.start + 2000 + sh.1) (mkHdr sh.2 slot (ownNode sh.2) typ (frameCyc sh.2) len reason) sh.2)

/-- The status of a sent signal's buffer: FRESH and the macrotick of the transmission (R319). -/
def sentStatus (i : Nat) (fresh : Nat) (L : Lane) : Lane :=
  let e := dirRaw L i
  let a := bufAddr e
  let fl := (pepper 10 0 (fun prm => decide (bitsOf prm 0 17 = i)) L).2
  let st := readW a (withNte (fun n => { n with onAir := if n.onAir.contains i then n.onAir else i :: n.onAir }) fl)
  match st.1 with
  | some w => (writeWords a [(w &&& 0x40FF0000) ||| toW fresh, mtick fl] st.2).2
  | none => st.2

/-- The own CLAIM record comes round: the CLAIM frame of GO leaves port 15, once (R356). DEDUCED: log 86. -/
def claimSend (slot : Nat) (r : SlotRec) (L : Lane) : Lane :=
  if L.b F.NTE_CLAIM_TX_GO && !L.nte.claimSent then
    sendOwn slot r 4 (4 + 2 * L.n F.NTE_CLAIM_TX_COUNT) 0 (withNte (fun n => { n with claimSent := true }) L)
  else L

/-- The action point of an own slot (R321, R322, R356): a DATA, NULL or CLAIM frame leaves port 15. DEDUCED: log 87. -/
def ownSend (slot : Nat) (L : Lane) : Lane :=
  let r := slotRec L slot
  if !L.b F.NTE_STAT_RUN || decide (nRec L ≤ slot) || decide (r.port ≠ 15) || decide (r.kind = 2 ∨ 3 < r.kind) ||
      !slotExists r (frameCyc L) then L
  else if r.kind = 3 then claimSend slot r L
  else
    let p := smFind L.nte.prep slot
    let inTime := match p with
      | some q => decide (q.cyc ≠ L.nte.cyc ∨ q.pos ≤ 250 * r.start - 4000)
      | none => false
    let c := nullCase slot L
    let reason := if c ≠ 0 then c else if !inTime then 6
      else match p with
        | some q => q.reason
        | none => 6
    let L1 := if inTime then withNte (fun n => { n with prep := smErase n.prep slot }) L else L
    match reason, p with
    | 0, some q => sendOwn slot r 0 q.len 0 (q.sigs.foldl (fun a s => sentStatus s.1 s.2.1 a) L1)
    | _, _ =>
      let L2 := if reason = 6 then L1.inc F.NTE_RXERR1_LATE_TX_CNT else L1
      sendOwn slot r 1 0 reason (raise 0x0CD (nteEvent 2 (L2.inc F.NTE_RXERR1_TXNULL_CNT)))
def execOwnFrameSend (l : LaneId) (slot : BitVec 16) (s : State) : Host.Outcome State Fault Refusal :=
  .next (s.onLane l (whenLive (ownSend slot.toNat)))

/-- The own SYNC record: kind SYNC, port 15 (R339). -/
def ownSync (L : Lane) : Option (Nat × SlotRec) := (slotsWhere L (fun _ r => decide (r.kind = 2 ∧ r.port = 15))).head?

/-- The lane holds the time of a lane that leads the cold start, or leads itself (step 4 of R348). -/
def ledTime (L : Lane) : Bool :=
  L.nte.held && (coldStarting L || (decide (csState L = 4) && !L.nte.abandoned &&
    (match L.nte.folLane with
     | some x => (peerOf L (linkOf L x)).lead
     | none => false)))

/-- The action point of the own SYNC slot: a SYNC frame of a SYNCED lane (R340), or a COLDSTART frame of a lane that holds the
time of its cold start, in cycles 56 to 63 (R348). -/
def syncSend (L : Lane) : Lane :=
  match ownSync L with
  | none => L
  | some (i, r) =>
    if !slotExists r (frameCyc L) then L
    else if synced L then sendOwn i r 2 48 0 L
    else if ledTime L && decide (56 ≤ frameCyc L) then sendOwn i r 3 16 0 L
    else L
def execSyncFrameSend (l : LaneId) (s : State) : Host.Outcome State Fault Refusal :=
  .next (abandonAll l s (s.onLane l (whenLive syncSend)))

/-- The fields of a SYNC or COLDSTART payload (R339). -/
def syRank (f : FrameEnd) : Nat := beNat ((f.payload.drop 8).take 2)
def syTime (f : FrameEnd) : Nat := beNat ((f.payload.drop 12).take 8)
def syAns (f : FrameEnd) : List Byte := (f.payload.drop 48).take 8

/-- A frame of the followed port confirms or breaks an integration (steps 2 and 3 of R351). -/
def confirmFrame (p : Nat) (ap : Int) (c : Cur) (L : Lane) : Lane :=
  if L.nte.conf = 0 then integrateFrom p ap c.time L
  else if 3 ≤ L.nte.conf then L
  else
    let want := ap + if isTrunk L p then dTrunk else 0
    if (c.nt - want).natAbs ≤ 1000 then withNte (fun n => { n with conf := n.conf + 1, confCyc := n.cyc % 64 }) L
    else csListen L

/-- A SYNC frame is received (R341, R348 to R353, R356). -/
def syncFrame (p : Nat) (f : FrameEnd) (L : Lane) : Lane :=
  let r := frameEnd p [2] f L
  match r.1 with
  | none => r.2
  | some c =>
    let L1 := r.2
    let ap : Int := syTime f
    if synced L1 then
      if L1.n F.NTE_TIME_STAT_SRC = 3 ∧ L1.n F.NTE_TIME_STAT_SRC_PORT = p then
        let o := offsetOf L1 p (slotRec L1 c.slot) (c.nt - (L1.nte.cyc : Int) * (cycNs L1 : Int))
        let L2 := withNte (fun n => { n with trunkMiss := 0 }) (L1.put F.NTE_TRUNKOFS_VALUE (BitVec.ofInt 32 o))
        let a := syAns f
        if L2.b F.NTE_CLAIM_TX_GO ∧ (nth a 0 0).toNat = ownNode L2 ∧ nth a 1 0 ≠ 0 then
          (L2.putN F.NTE_CLAIM_TX_RESULT (nth a 1 0).toNat).setB F.NTE_CLAIM_TX_GO false
        else L2
      else L1
    else if csState L1 = 1 then integrateFrom p ap c.time L1
    else if coldStarting L1 then integrateFrom p ap c.time (csAbandon L1)
    else if csState L1 = 4 ∧ L1.nte.folLane = none ∧ (L1.nte.folPort = some p ∨ L1.nte.conf = 0) then
      confirmFrame p ap c (withNte (fun n => { n with folPort := some p }) L1)
    else L1
def execSyncFrame (l : LaneId) (port : Fin 16) (f : FrameEnd) (s : State) : Host.Outcome State Fault Refusal :=
  .next (abandonAll l s (s.onLane l (whenLive (syncFrame port.val f))))

/-- A COLDSTART frame heard is kept where it ranks best; of equal ranks the lower NODE_ID ranks better (R348, R349).
DEDUCED: log 84. -/
def keepBest (rank node : Nat) (p : Option Nat) (x : Option LaneId) (L : Lane) : Lane :=
  let h := L.n F.NTE_TIME_STAT_HEARD_RANK
  if rank < h ∨ (rank = h ∧ node < L.nte.bestNode) then
    withNte (fun n => { n with bestNode := node, bestPort := p, bestLane := x }) (L.putN F.NTE_TIME_STAT_HEARD_RANK rank)
  else L

/-- A rank with its node is better than the own one. -/
def betterThanOwn (rank node : Nat) (L : Lane) : Bool :=
  decide (rank < coldRank L) || (decide (rank = coldRank L) && decide (node < ownNode L))

/-- A COLDSTART frame is received (R348, R349, R351). No SYNCED lane acts on it. -/
def coldFrame (p : Nat) (f : FrameEnd) (L : Lane) : Lane :=
  let r := frameEnd p [3] f L
  match r.1 with
  | none => r.2
  | some c =>
    let L1 := r.2
    let rank := syRank f
    if synced L1 ∨ csState L1 = 0 then L1
    else
      let L2 := keepBest rank c.node (some p) none L1
      let L3 := if rank = coldRank L2 ∧ c.node ≠ ownNode L2 then raise 0x0D5 L2 else L2
      if coldStarting L3 then
        if betterThanOwn rank c.node L3 then integrateFrom p (syTime f) c.time (csAbandon L3) else L3
      else if csState L3 = 4 ∧ L3.nte.folPort = some p then confirmFrame p (syTime f) c L3
      else L3
def execColdstartFrame (l : LaneId) (port : Fin 16) (f : FrameEnd) (s : State) : Host.Outcome State Fault Refusal :=
  .next (abandonAll l s (s.onLane l (whenLive (coldFrame port.val f))))

/-- A lower-lettered lane reports READY, as its TIME transfers say (R348). -/
def lowerReady (L : Lane) : Bool :=
  [LaneId.a, LaneId.b, LaneId.c].any (fun x => decide (laneNo x < laneNo L.id) && linkIsUp L (linkOf L x) &&
    (peerOf L (linkOf L x)).ready)

/-- 4T after E (step 3 of R348). DEDUCED: log 84. -/
def listenEnd (L : Lane) : Lane :=
  if csState L ≠ 1 then L
  else if betterThanOwn (L.n F.NTE_TIME_STAT_HEARD_RANK) L.nte.bestNode L then
    follow L.nte.bestPort (if L.nte.bestPort.isSome then none else L.nte.bestLane) L
  else if lowerReady L then setCs 2 L
  else setCs 3 (withNte (fun n => { n with lead := true }) L)
def execColdstartListenEnd (l : LaneId) (s : State) : Host.Outcome State Fault Refusal :=
  .next (s.onLane l (whenLive listenEnd))

/-- No LEAD within 6T of entering WAIT_LEAD: the lower lanes are treated as not ready, and the lane leads (R348). -/
def waitLeadEnd (L : Lane) : Lane :=
  if csState L = 2 ∧ L.nte.conf = 0 then setCs 3 (withNte (fun n => { n with lead := true, alone := true }) L) else L
def execWaitLeadTimeout (l : LaneId) (s : State) : Host.Outcome State Fault Refusal :=
  .next (s.onLane l (whenLive waitLeadEnd))

/-- The leader sets NT_OFS so that frame cycle 56 begins (step 4 of R348). DEDUCED: log 84. -/
def coldBegin (L : Lane) : Lane :=
  if csState L = 3 ∧ L.nte.lead then
    withNte (fun n => { n with cyc := 56 }) (setNt (56 * cycNs L : Nat) L.time L)
  else L
def execColdstartBegin (l : LaneId) (s : State) : Host.Outcome State Fault Refusal :=
  .next (s.onLane l (whenLive coldBegin))

/-- After abandoning, no SYNC or COLDSTART frame for 4T: back to step 1 (R349). -/
def execWinnerSilent (l : LaneId) (s : State) : Host.Outcome State Fault Refusal :=
  .next (s.onLane l (whenLive (fun L => if csState L = 4 ∧ L.nte.abandoned then csListen L else L)))

/-- 80 ms after E without SYNCED: source 0x0D6, once (R350). -/
def execStartTimeout (l : LaneId) (s : State) : Host.Outcome State Fault Refusal :=
  .next (s.onLane l (whenLive (fun L =>
    if !synced L && decide (csState L ≠ 0 ∨ substate L = 4) && !L.nte.late then raise 0x0D6 (withNte (fun n => { n with late := true }) L)
    else L)))

/-- No SYNC frame on the followed trunk for 4 cycles (R353). -/
def execTrunkLost (l : LaneId) (s : State) : Host.Outcome State Fault Refusal :=
  .next (s.onLane l (whenLive (fun L =>
    if L.n F.NTE_TIME_STAT_SRC = 3 ∧ 4 ≤ L.nte.trunkMiss then raise 0x0D9 (setSrc 1 0 L) else L)))

/-- The offset has exceeded 1 us in 4 consecutive cycles (R338): in a triplex the member clears SYNCED and integrates again; in a
duplex only the source is raised. -/
def timeLost (L : Lane) : Lane :=
  if 4 ≤ L.nte.lostRun ∧ synced L ∧ inSet L.clv.members L.id then
    let L1 := withNte (fun n => { n with lostRun := 0 }) L
    match otherMembers L1 with
    | [_, _] => raise 0x0D7 (csListen ((L1.setB F.NTE_TIME_STAT_SYNCED false).inc F.NTE_CS_ERR_TLOST_CNT))
    | [_] => raise 0x0D8 L1
    | _ => L1
  else L
def execTimeLost (l : LaneId) (s : State) : Host.Outcome State Fault Refusal := .next (s.onLane l (whenLive timeLost))

/-- The lane takes its time from another lane of the EK3 (R352). DEDUCED: log 85. -/
def laneIntegrate (link : Nat) (x : LaneId) (d : Int) (L : Lane) : Lane :=
  let p := peerOf L link
  if synced L || L.b F.CLK_STAT_DEGRADED || !(p.synced || p.lead) then L
  else
    let mine := decide (L.nte.folLane = some x)
    let may := decide (csState L = 1 ∨ csState L = 2) || (decide (csState L = 4) && (mine || decide (L.nte.folPort = none)))
    if !may then L
    else if !mine ∨ L.nte.conf = 0 then
      let L1 := withNte (fun n => { n with folLane := some x, folPort := none, conf := 1, held := true }) (shiftNt d L)
      let L2 := withNte (fun n => { n with cyc := (ntNow L1 / (max 1 (cycNs L1) : Nat)).toNat }) L1
      if csState L2 = 1 then setCs 4 L2 else L2
    else if 3 ≤ L.nte.conf then L
    else if d.natAbs ≤ 100 then withNte (fun n => { n with conf := n.conf + 1, confCyc := n.cyc % 64 }) L
    else csListen L

/-- A TIME transfer (R336, R337, R349, R352): the offset to the peer is formed from two consecutive exchanges; `port` is the
peer's SRC_PORT. DEDUCED: log 85. -/
def timeIn (link : Nat) (x : Xfer) (stamp : Int) (port : Nat) (L : Lane) : Lane :=
  let w (i : Nat) : Word := nth x.payload i 0
  let peer := linkPeer L.id link
  let sPeer : Int := (cat64 (w 1) (w 0)).toInt
  let rPeer : Int := (cat64 (w 3) (w 2)).toInt
  let o := peerOf L link
  let sMe := if o.sent then o.sPrev else o.sLast
  let d : Option Int := match o.rx with
    | some (c, rMe) => if c + 1 = L.nte.cyc ∨ c = L.nte.cyc then some (((rPeer - sMe) - (rMe - sPeer)) / 2) else none
    | none => none
  let heard := bitsOf (w 4) 16 16
  let L1 := setPeer link (fun p => { p with
    rx := some (L.nte.cyc, at8 stamp), d := d, synced := bitAt (w 4) 15, lead := bitAt (w 4) 14, ready := bitAt (w 4) 13
    src := bitsOf (w 4) 11 2, heard := heard, e := (w 5).toInt, port := port }) L
  let L2 := match d with
    | some v => L1.putN (if link = 0 then F.NTE_LANEOFS_NEXT else F.NTE_LANEOFS_PREV) (sat16 v)
    | none => L1
  let L3 := if csState L2 = 1 ∨ coldStarting L2 then keepBest heard 255 none (some peer) L2 else L2
  let L4 := if coldStarting L3 && decide (heard < coldRank L3) then follow none (some peer) (csAbandon L3) else L3
  match d with
  | some v => laneIntegrate link peer v L4
  | none => L4
def execTimeTransfer (l : LaneId) (link : Fin 2) (x : Xfer) (stamp : Word64) (s : State) : Host.Outcome State Fault Refusal :=
  .next (s.onLane l (whenLive (onLink 6 link.val x
    (timeIn link.val x stamp.toInt ((s.lane (linkPeer l link.val)).n F.NTE_TIME_STAT_SRC_PORT)) id)))

/-- The trunk port that a lane which integrates from lane `x` takes as its source: the lanes share PORT_CFG, so it is the port
of the same number (R310, R352). DEDUCED: log 85. -/
def trunkOf (x : LaneId) (L : Lane) : Option Nat :=
  let p := peerOf L (linkOf L x)
  if p.src = 3 && isTrunk L p.port then some p.port else none

/-- A confirmed integration waits for cycle 0: confirmed in cycles 56 to 63, and not from a lane that is SYNCED (R348, R351,
R352). -/
def waitsZero (L : Lane) : Bool :=
  decide (56 ≤ L.nte.confCyc) &&
  (match L.nte.folLane with
   | some x => !(peerOf L (linkOf L x)).synced
   | none => true)

/-- An integration that is confirmed sets SYNCED at a cycle start: at the next, or at cycle 0 (R351, R352); `zero` says that
cycle 0 has come. DEDUCED: log 85. -/
def integrateEnd (zero : Bool) (L : Lane) : Lane :=
  if !synced L && decide (3 ≤ L.nte.conf) && (decide (csState L = 4 ∨ csState L = 2)) &&
      (!waitsZero L || zero) then
    match L.nte.folLane with
    | some x =>
      match trunkOf x L with
      | some p => setSynced (setSrc 3 p L)
      | none => setSynced (setSrc 2 (laneNo x) L)
    | none =>
      match L.nte.folPort with
      | some p => if isTrunk L p then setSynced (setSrc 3 p L) else setSynced (setSrc 1 0 L)
      | none => L
  else L

/-- Cycle 0 of a cold start (step 6 of R348): the leader, and every lane that has taken the leader's time, sets SYNCED.
DEDUCED: log 84. -/
def coldSync (L : Lane) : Lane :=
  if frameCyc L ≠ 0 then L
  else if csState L = 3 ∧ L.nte.lead ∧ L.nte.held then setSynced (setSrc 1 0 (L.setB F.NTE_TIME_STAT_LEAD true))
  else if waitsZero L then integrateEnd true L
  else L
def execColdstartSync (l : LaneId) (s : State) : Host.Outcome State Fault Refusal := .next (s.onLane l (whenLive coldSync))

/-- The correction of lane time for the next cycle (R337). DEDUCED: log 85. -/
def correct (L : Lane) : Lane :=
  let cyc := L.n F.TLS_TIMING_CYCLE_US
  let others := otherMembers L
  let ds := others.filterMap (fun x => (peerOf L (linkOf L x)).d)
  let member := inSet L.clv.members L.id
  let c0 : Int :=
    if member then
      match others, ds with
      | [_, _], [a, b] => med3 0 a b
      | [_], [d] => d / 2
      | _, _ => 0
    else
      match ds with
      | [] => 0
      | [d] => d
      | a :: b :: _ => (a + b) / 2
  let e0 : Int := (L.fld F.NTE_TRUNKOFS_VALUE).toInt
  let es : List Int := (if member then [e0] else []) ++ others.map (fun x => (peerOf L (linkOf L x)).e)
  let e : Int := if L.n F.NTE_TIME_STAT_SRC = 3 then
      (match es with
       | [a, b, c] => med3 a b c
       | [a, b] => (a + b) / 2
       | [a] => a
       | _ => 0)
    else 0
  let c := c0 + e
  let lim : Int := cyc / 2
  let rmax : Int := cyc * 3 / 10
  let step := max (-lim) (min lim (c + L.nte.carry))
  let rate := max (-rmax) (min rmax (L.nte.rate + c / 4))
  let far := decide (others ≠ []) && decide (ds.length = others.length) && ds.all (fun d => decide (1000 < d.natAbs))
  let L1 := withNte (fun n => { n with
    carry := c + n.carry - step, rate := rate, gain := step + rate, gained := 0, ticks := 0
    lostRun := if member && far then n.lostRun + 1 else 0
    peer0 := { n.peer0 with d := none, sent := false }, peer1 := { n.peer1 with d := none, sent := false } }) L
  L1.put F.NTE_RATE_VALUE (BitVec.ofInt 32 (rate * 1000000 / (max 1 cyc : Nat)))

/-- The TIME transfer of the cycle leaves on each link that is up, at the first moment at which no checkpoint round runs
(R336). -/
def timeSend (stamp : Int) (L : Lane) : Lane :=
  let one (link : Nat) (a : Lane) : Lane :=
    if linkIsUp a link && !(peerOf a link).sent then
      launch link 1 (setPeer link (fun p => { p with sPrev := p.sLast, sLast := at8 stamp, sent := true }) a)
    else a
  one 1 (one 0 L)

/-- AGE of a receive buffer steps at a cycle start, and its timeout (R318). -/
def ageSig (i : Nat) (e : DirEnt) (L : Lane) : Lane :=
  let a := bufAddr e
  let rd := readW a L
  match rd.1 with
  | none => rd.2
  | some w =>
    let age := min 255 (bitsOf w 8 8 + 1)
    let w1 := (w &&& 0xFFFF00FF) ||| at' 8 age
    if e.tmo ≠ 0 ∧ e.tmo ≤ age ∧ bitAt w 31 then
      let L1 := (writeW a (setBit w1 31 false) rd.2).2
      raise 0x0CB (rxErr i e 5 (L1.inc F.NTE_RXERR0_TMO_CNT))
    else (writeW a w1 rd.2).2

/-- A mapping record of the CAN gateway (R358). -/
def canRecAddr (m : Nat) : Nat := netBase + 0x3E0000 + 16 * m
def canBufAddr (n : Nat) : Nat := netBase + 0x3E8000 + 72 * n
def nMap (L : Lane) : Nat := L.n F.CGW_NMAP_NMAP

/-- AGE of a CAN buffer that a receive mapping fills. -/
def ageCan (m : Nat) (L : Lane) : Lane :=
  let r := readWords (canRecAddr m) 4 L
  match r.1 with
  | some (w0 :: _ :: w2 :: _) =>
    if bitAt w0 31 && !bitAt w0 30 && decide (bitsOf w2 30 2 = 1) then
      let a := canBufAddr (bitsOf w2 0 17)
      let rd := readW a r.2
      match rd.1 with
      | none => rd.2
      | some w => (writeW a ((w &&& 0xFFFF00FF) ||| at' 8 (min 255 (bitsOf w 8 8 + 1))) rd.2).2
    else r.2
  | _ => r.2

/-- The network keeps a time: it is SYNCED, or has set NT_OFS on its way there. -/
def keepsTime (L : Lane) : Bool := L.nte.held && decide (csState L ≠ 0)

/-- The number of the cycle that network time has reached (R334). -/
def cycleNow (L : Lane) : Nat := (ntNow L / (max 1 (cycNs L) : Nat)).toNat

/-- Cycle `num` starts (R318, R329, R334, R336, R337, R346, R351 to R353, R356). -/
def cycleBegins (num : Nat) (L : Lane) : Lane :=
  let L0 := withNte (fun n => { n with cyc := num, adm := [], trunkMiss := n.trunkMiss + 1, claimAge := n.claimAge + 1 }) L
  let hp := decide (num % 64 = 0)
  let L1 := (List.range 13).foldl (fun a p => portCycle hp (if p = 12 then 15 else p) a) L0
  let L2 := (dirList L1).foldl (fun a s => if s.2.tx then a else ageSig s.1 s.2 a) L1
  let L3 := (List.range (nMap L2)).foldl (fun a m => ageCan m a) L2
  let L4 := { L3 with cgw := { L3.cgw with age := L3.cgw.age.map (fun x => (x.1, x.2 + 1)) } }
  let L5 := correct L4
  let L6 := if L5.clv.round then L5 else timeSend ((num : Int) * (cycNs L5 : Int)) L5
  nteEvent 0 (integrateEnd hp L6)

/-- Network time has come to another cycle than the one in progress (R334). DEDUCED: log 85. -/
def cycleDue (L : Lane) : Bool := keepsTime L && decide (cycleNow L ≠ L.nte.cyc)
def execNetworkCycleStart (l : LaneId) (num : Nat) (s : State) : Host.Outcome State Fault Refusal :=
  .next (s.onLane l (whenLive (fun L => if cycleDue L && decide (num = cycleNow L) then cycleBegins num L else L)))

/-- Claims in force and claims that are granted and wait. -/
def allClaims (L : Lane) : List Claim := L.nte.claims ++ (L.nte.due.filter (fun d => d.grant)).map (fun d => d.claim)

/-- The result of a claim (R354): the first check that fails, in the table's order. DEDUCED: log 86. -/
def claimResult (p node : Nat) (c : Cur) (pl : List Byte) (L : Lane) : Nat :=
  let r := slotRec L c.slot
  let cls := bAt pl 0
  let count := bAt pl 1
  let ids := (List.range count).map (fun k => beNat ((pl.drop (4 + 2 * k)).take 2))
  if count = 0 then 2
  else if cls ≠ r.cls then 3
  else if 16 < count ∨ c.len ≠ 4 + 2 * count ∨ bAt pl 2 ≠ 0 ∨ bAt pl 3 ≠ 0 then 4
  else if node = ownNode L || ((allClaims L).any (fun k => decide (k.node = node ∧ k.port ≠ p))) ||
      decide ((slotsWhere L (fun _ q => decide (q.kind = 0 ∧ q.node = node))).length ≠ 0) then 5
  else if ids.any (fun i => decide (nRec L ≤ i) || decide ((slotRec L i).kind ≠ 1 ∨ (slotRec L i).cls ≠ cls)) then 6
  else if ids.any (fun i => (allClaims L).any (fun k => decide (k.slot = i ∧ k.node ≠ node))) then 7
  else 1

/-- A CLAIM frame is received (R354, R355). DEDUCED: log 86. -/
def claimFrame (p : Nat) (f : FrameEnd) (L : Lane) : Lane :=
  let r := frameEnd p [4] f L
  match r.1 with
  | none => r.2
  | some c =>
    let L1 := r.2
    let pl := (f.payload.drop 8).take c.len
    let node := c.node
    let res := claimResult p node c pl L1
    let count := bAt pl 1
    let ids := (List.range count).map (fun k => beNat ((pl.drop (4 + 2 * k)).take 2))
    let hp := L1.nte.cyc / 64 + if frameCyc L1 < 63 then 1 else 2
    let new : List ClaimDue :=
      if res = 1 then ids.map (fun i => ⟨true, ⟨node, p, i⟩, hp⟩)
      else if res = 2 then ((allClaims L1).filter (fun k => decide (k.node = node ∧ k.port = p))).map (fun k => ⟨false, k, hp⟩)
      else []
    let L2 := withNte (fun n => { n with due := n.due ++ new }) L1
    let L3 := ((((L2.putN F.NTE_CLAIM_LAST_NODE_ID node).putN F.NTE_CLAIM_LAST_PORT p).putN F.NTE_CLAIM_LAST_RESULT res).putN
      F.NTE_CLAIM_LAST_CLASS (bAt pl 0)).putN F.NTE_CLAIM_LAST_COUNT count
    if res ≤ 2 then L3 else raise 0x0DA (L3.inc F.NTE_CS_ERR_CLREF_CNT)
def execClaimFrame (l : LaneId) (port : Fin 16) (f : FrameEnd) (s : State) : Host.Outcome State Fault Refusal :=
  .next (s.onLane l (whenLive (claimFrame port.val f)))

/-- A grant or a release is written into its record (R355). DEDUCED: log 86. -/
def claimWrite (d : ClaimDue) (L : Lane) : Lane :=
  let a := recAddr d.claim.slot + 4
  let r := readW a L
  let put (w : Word) : Word :=
    let w0 := w &&& 0xFFFF000F
    if d.grant then w0 ||| at' 8 d.claim.node ||| at' 4 d.claim.port else w0
  let L1 := match r.1 with
    | some w => (writeW a (put w) r.2).2
    | none => r.2
  withNte (fun n => { n with
    claims := let rest := n.claims.filter (fun k => decide (k.slot ≠ d.claim.slot))
              if d.grant then rest ++ [d.claim] else rest }) L1

/-- A hyperperiod boundary at which grants and releases take effect (R355). DEDUCED: log 86. -/
def claimEffect (L : Lane) : Lane :=
  if L.nte.cyc % 64 = 0 then
    let now := L.nte.due.filter (fun d => decide (d.hp ≤ L.nte.cyc / 64))
    let rest := L.nte.due.filter (fun d => !decide (d.hp ≤ L.nte.cyc / 64))
    now.foldl (fun a d => claimWrite d a) (withNte (fun n => { n with due := rest }) L)
  else L
def execClaimEffect (l : LaneId) (s : State) : Host.Outcome State Fault Refusal :=
  .next (s.onLane l (whenLive claimEffect))

/-- A write to NTE_CLAIM_TX (R356): CLASS and COUNT, and GO where the value sets it. DEDUCED: log 86. -/
def claimGo (val : Word) (L : Lane) : Lane :=
  let L1 := (L.putN F.NTE_CLAIM_TX_CLASS (bitsOf val 16 8)).putN F.NTE_CLAIM_TX_COUNT (bitsOf val 8 8)
  if bitAt val 31 then
    withNte (fun n => { n with claimAge := 0, claimSent := false }) ((L1.setB F.NTE_CLAIM_TX_GO true).putN F.NTE_CLAIM_TX_RESULT 0)
  else L1
def execClaimGo (l : LaneId) (val : Word) (s : State) : Host.Outcome State Fault Refusal :=
  .next (s.onLane l (whenLive (claimGo val)))

/-- No answer within 64 cycles (R356). -/
def execClaimNoAnswer (l : LaneId) (s : State) : Host.Outcome State Fault Refusal :=
  .next (s.onLane l (whenLive (fun L =>
    if L.b F.NTE_CLAIM_TX_GO ∧ 64 ≤ L.nte.claimAge then
      (L.setB F.NTE_CLAIM_TX_GO false).putN F.NTE_CLAIM_TX_RESULT 0xF
    else L)))

def nteErrFlds : List Fld :=
  [F.NTE_RXERR0_CRC_CNT, F.NTE_RXERR0_GAP_CNT, F.NTE_RXERR0_TMO_CNT, F.NTE_RXERR0_SHORT_CNT, F.NTE_RXERR1_NULL_CNT,
   F.NTE_RXERR1_REPEAT_CNT, F.NTE_RXERR1_TXNULL_CNT, F.NTE_RXERR1_LATE_TX_CNT, F.NTE_LAST_KIND, F.NTE_LAST_SIGNAL]
def execNteErrClr (l : LaneId) (val : Word) (s : State) : Host.Outcome State Fault Refusal :=
  .next (s.onLane l (whenLive (clearBy nteErrFlds val)))
def nteTerrFlds : List Fld :=
  [F.NTE_CS_ERR_COLL_CNT, F.NTE_CS_ERR_ABANDON_CNT, F.NTE_CS_ERR_CLREF_CNT, F.NTE_CS_ERR_TLOST_CNT] ++
  (List.range 12).map (fun p => F.NTE_SVIEWp_DRIFT_CNT p)
def execNteTerrClr (l : LaneId) (val : Word) (s : State) : Host.Outcome State Fault Refusal :=
  .next (s.onLane l (whenLive (clearBy nteTerrFlds val)))

end Sys2Proof.Machine
end

