-- ==== Sys2Proof/Machine/Cgw.lean ====
section
/-! DEFINITION. The CAN gateway: mappings, queues, addresses, and the CAN ring role (R357 to R362, R365). -/

namespace Sys2Proof.Machine

/-- A channel's part beside its registers, and its replacement. -/
def canOf (L : Lane) (c : Nat) : CanCh := nth L.cgw.ch c default
def setCan (c : Nat) (f : CanCh → CanCh) (L : Lane) : Lane :=
  { L with cgw := { L.cgw with ch := setNth L.cgw.ch c (f (canOf L c)) } }

/-- Gateway events: bits 0 and 2 receive, 1 and 3 error, 4 CAN buffer delivery; PLIC sources 71 to 73 (CGW_EVEN). -/
def cgwEvent (b : Nat) (L : Lane) : Lane :=
  eventBits F.CGW_EVSTAT_EV (L.fld F.CGW_EVEN_EV) (fun i => some (71 + i / 2)) (toW (2 ^ b)) L

/-- A fault of a channel: its count, its source and its error event. -/
def canErr (c : Nat) (f : Nat → Fld) (src : Nat) (L : Lane) : Lane := raise src (cgwEvent (2 * c + 1) (L.inc (f c)))
def canRxErr (c : Nat) (L : Lane) : Lane := canErr c F.CGW_CHc_ERR_RXDROP_CNT 0x0DD L
def canTxDrop (c : Nat) (L : Lane) : Lane := canErr c F.CGW_CHc_ERR_TXDROP_CNT 0x0DF L
def canTpAbort (c : Nat) (L : Lane) : Lane := canErr c F.CGW_CHc_ERR_TPABORT_CNT 0x0DE L

/-- A channel is on the bus. -/
def canEn (L : Lane) (c : Nat) : Bool := L.b (F.CGW_CHc_CFG_EN c)
def canIso (L : Lane) (c : Nat) : Bool := L.b (F.CGW_CHc_CFG_ISO c)
def canFd (L : Lane) (c : Nat) : Bool := L.b (F.CGW_CHc_CFG_FD c) && !canIso L c
def busOff (L : Lane) (c : Nat) : Bool := L.b (F.CGW_CHc_STAT_BUSOFF c)
def canAddr (L : Lane) (c : Nat) : Nat := L.n (F.CGW_CHc_STAT_ADDR c)

/-- A mapping record (R358). -/
structure CanMap where
  valid : Bool
  out : Bool
  ch : Nat
  id : Nat
  mode : Nat
  brs : Bool
  len : Nat
  da : Nat
  tmo : Nat
  tgt : Nat
  index : Nat
  staten : Bool
  sbit : Nat
  sword : Nat
deriving DecidableEq, Repr, Inhabited

/-- A mapping from its four words. -/
def canMapOf (w0 w1 w2 w3 : Word) : CanMap :=
  { valid := bitAt w0 31, out := bitAt w0 30, ch := b2n (bitAt w0 29), id := bitsOf w0 0 29, mode := bitsOf w1 29 3
    brs := bitAt w1 28, len := bitsOf w1 16 12, da := bitsOf w1 8 8, tmo := bitsOf w1 0 8, tgt := bitsOf w2 30 2
    index := bitsOf w2 0 17, staten := bitAt w3 31, sbit := bitsOf w3 26 5, sword := bitsOf w3 18 8 }

/-- Mapping `m` as the gateway reads it; none where the record cannot be read (R492). -/
def canMap (m : Nat) (L : Lane) : Option CanMap × Lane :=
  let r := readWords (canRecAddr m) 4 L
  match r.1 with
  | some [a, b, c, d] => (some (canMapOf a b c d), r.2)
  | _ => (none, r.2)

/-- The directory entry of a signal as the gateway reads it (R492). -/
def canSignal (i : Nat) (L : Lane) : Option DirEnt × Lane :=
  let r := readWords (dirAddr i) 4 L
  match r.1 with
  | some [a, b, c, d] => (some (dirOf a b c d), r.2)
  | _ => (none, r.2)

/-- The arbitration rank of an identifier: a lower number goes first; base identifiers compare first. PRESUMED: log 88. -/
def canKey (mode id : Nat) : Nat :=
  if mode = 0 ∨ mode = 2 then id % 2048 * 2 ^ 19 else id / 2 ^ 18 % 2048 * 2 ^ 19 + 1 + id % 2 ^ 18

/-- PDU1: the PDU format is below 240; its identifier carries the destination (R357). -/
def isPdu1 (id : Nat) : Bool := decide (id / 2 ^ 16 % 256 < 240)
def isoId (id da sa : Nat) : Nat :=
  (if isPdu1 id then id / 2 ^ 16 * 2 ^ 16 + da * 256 else id / 256 * 256) + sa

/-- The item of lowest identifier, and the rest. -/
def lowest : List CanItem → Option CanItem
  | [] => none
  | x :: xs =>
    match lowest xs with
    | none => some x
    | some y => if x.key ≤ y.key then some x else some y

/-- An idle channel starts the waiting frame of lowest identifier (R360). PRESUMED: log 88. -/
def canStart (c : Nat) (L : Lane) : Lane :=
  let x := canOf L c
  if x.cur.isSome || !canEn L c || busOff L c then L
  else
    match lowest x.q with
    | none => L
    | some i => setCan c (fun y => { y with cur := some i, q := y.q.filter (fun k => decide (k.map ≠ i.map)) }) L

/-- Transmit sessions in use on a channel: messages of more than 8 bytes that wait or are sent (R357). -/
def canSessions (L : Lane) (c : Nat) : Nat :=
  let x := canOf L c
  ((x.q ++ x.cur.toList).filter (fun i => i.big)).length

/-- A frame or message joins a channel's queue; one that is still queued takes the new data (R360). -/
def canQueue (c : Nat) (i : CanItem) (L : Lane) : Lane :=
  let x := canOf L c
  canStart c (setCan c (fun y => { y with
    q := if x.q.any (fun k => decide (k.map = i.map)) then x.q.map (fun k => if k.map = i.map then i else k)
         else x.q ++ [i] }) L)

/-- CAN_TX of mapping `m` on channel `c` (R360): queued, or dropped with its count and source. -/
def canTx (m c : Nat) (L : Lane) : Lane :=
  let r := canMap m L
  match r.1 with
  | none => canTxDrop c r.2
  | some k =>
    let src : Option (List Byte) × Lane :=
      match k.tgt with
      | 0 =>
        let e := canSignal k.index r.2
        (match e.1 with
         | some x => readBytes (bufAddr x + 8) k.len e.2
         | none => (none, e.2))
      | 1 => readBytes (canBufAddr k.index + 8) k.len r.2
      | _ =>
        let w := readWords (votedOff r.2 + 4 * k.index) ((k.len + 3) / 4) r.2
        (w.1.map (fun ws => (wordsBe ws).take k.len), w.2)
    match src.1 with
    | none => canTxDrop c src.2
    | some bs =>
      let L1 := src.2
      let x := canOf L1 c
      let queued := x.q.any (fun i => decide (i.map = m))
      let big := decide (k.mode = 4 ∧ 8 < bs.length)
      if !k.valid || !k.out || busOff L1 c || !canEn L1 c || (decide (k.mode = 2 ∨ k.mode = 3) && !canFd L1 c) ||
          (decide (k.mode = 4) && !L1.b (F.CGW_CHc_STAT_ADDR_OK c)) || (!queued && decide (16 ≤ x.q.length)) ||
          (big && !queued && decide (4 ≤ canSessions L1 c)) then canTxDrop c L1
      else
        let id := if k.mode = 4 then isoId k.id k.da (canAddr L1 c) else k.id
        canQueue c ⟨m, canKey k.mode id, big, k.da, bs⟩ L1

/-- A running CAN_SEND of a channel that has been handed to the channel. -/
def canSending (L : Lane) (c : Nat) : Option Run :=
  match runningOp L 8 0x01 with
  | some r => if r.aux = 1 ∧ b2n (bitAt r.d.w4 31) = c then some r else none
  | none => none

/-- A CAN_SEND fails: FAULT ERR_ENGINE with a DETAIL (R362); its frame leaves the channel. -/
def canSendFail (c det : Nat) (ld : LD) : LD :=
  match canSending ld.1 c with
  | none => ld
  | some r =>
    let ld1 := onL (setCan c (fun y => { y with
      q := y.q.filter (fun k => decide (k.map ≠ 2048))
      cur := match y.cur with
        | some i => if i.map = 2048 then none else some i
        | none => none })) ld
    finish 8 r errEngine stFault (toW det) ld1

/-- CAN_SEND starts (R362). It waits where its channel is disabled or every transport session is in use.
DEDUCED: log 89. -/
def canSend (ld : LD) : LD :=
  match runningOp ld.1 8 0x01 with
  | none => ld
  | some r =>
    let c := b2n (bitAt r.d.w4 31)
    let mode := bitsOf r.d.w5 29 3
    let big := decide (mode = 4 ∧ 8 < r.d.length)
    if r.aux = 1 ∨ ¬ canEn ld.1 c ∨ (big ∧ 4 ≤ canSessions ld.1 c) then ld
    else if busOff ld.1 c then finish 8 r errEngine stFault 2 ld
    else if mode = 4 ∧ ¬ ld.1.b (F.CGW_CHc_STAT_ADDR_OK c) then finish 8 r errEngine stFault 4 ld
    else
      match iovaReadN 8 r.d.ctx r.d.src r.d.length ld with
      | (.error e, ld1) => finishErr 8 r e ld1
      | (.ok bs, ld1) =>
        let id0 := bitsOf r.d.w4 0 29
        let id := if mode = 4 then isoId id0 (bitsOf r.d.w5 8 8) (canAddr ld1.1 c) else id0
        onL (fun L => canQueue c ⟨2048, canKey mode id, big, bitsOf r.d.w5 8 8, bs⟩
          (setEng 8 { getEng L 8 with run := some { r with aux := 1 } } L)) ld1
def execCanSend (l : LaneId) (s : State) : Host.Outcome State Fault Refusal := .next (onDie l canSend s)

/-- A transmitted frame is acknowledged: the channel sends its next; a CAN_SEND is DONE (R360, R362). -/
def canAcked (c : Nat) (ld : LD) : LD :=
  match (canOf ld.1 c).cur with
  | none => ld
  | some i =>
    let ld1 := onL (fun L => canStart c (setCan c (fun y => { y with cur := none }) L)) ld
    if i.map = 2048 then
      match canSending ld1.1 c with
      | some r => finish 8 { r with progress := r.d.length } 0 stDone 0 ld1
      | none => ld1
    else ld1
def execCanFrameAcknowledged (l : LaneId) (ch : Fin 2) (s : State) : Host.Outcome State Fault Refusal :=
  .next (onDie l (canAcked ch.val) s)

/-- CAN_RECV starts to wait: the engine goes on with other work (R362). DEDUCED: log 89. -/
def canRecv (ld : LD) : LD :=
  match runningOp ld.1 8 0x02 with
  | none => ld
  | some r =>
    if r.abort then finish 8 r 1 stAborted 0 ld
    else engineNext 8 (onL (fun L =>
      let L1 := setEng 8 { getEng L 8 with run := none } L
      { L1 with ring := { L1.ring with recv := L1.ring.recv ++ [r] } }) ld)
def execCanRecv (l : LaneId) (s : State) : Host.Outcome State Fault Refusal := .next (onDie l canRecv s)

/-- The mode code of a message. -/
def modeOf : CanMode → Nat
  | .can11 => 0
  | .can29 => 1
  | .fd11 => 2
  | .fd29 => 3
  | .iso => 4

/-- A mode that a channel takes part in: ISO 11783 messages on an ISO channel only, FD frames with FD = 1 (R357). -/
def modeAllowed (L : Lane) (c : Nat) (m : CanMode) : Bool :=
  match m with
  | .iso => canIso L c
  | .fd11 => canFd L c
  | .fd29 => canFd L c
  | _ => !canIso L c

/-- A mapping matches a message (R359). DEDUCED: log 89. -/
def mapMatches (L : Lane) (c : Nat) (k : CanMap) (m : CanMsg) : Bool :=
  k.valid && !k.out && decide (k.ch = c ∧ k.mode = modeOf m.mode) &&
  (match m.mode with
   | .can11 => decide (k.id % 2048 = m.id.toNat % 2048)
   | .fd11 => decide (k.id % 2048 = m.id.toNat % 2048)
   | .iso => decide (k.id / 256 % 2 ^ 18 = m.id.toNat / 256 % 2 ^ 18) &&
       (!isPdu1 m.id.toNat || decide (m.da.toNat = canAddr L c ∨ m.da.toNat = 0xFF))
   | _ => decide (k.id = m.id.toNat))

/-- The first mapping that takes a message, in index order; a record that cannot be read takes none. -/
def takenBy (c : Nat) (m : CanMsg) : List Nat → Lane → Option (Nat × CanMap) × Lane
  | [], L => (none, L)
  | i :: is, L =>
    let r := canMap i L
    match r.1 with
    | some k => if mapMatches r.2 c k m then (some (i, k), r.2) else takenBy c m is r.2
    | none => takenBy c m is r.2

/-- A mapping takes a message (R359). DEDUCED: log 89. -/
def mapDeliver (c i : Nat) (k : CanMap) (m : CanMsg) (L : Lane) : Lane :=
  if m.data.length < k.len then canRxErr c L
  else
    let data := m.data.take k.len
    let L0 := cgwEvent (2 * c) { L with cgw := { L.cgw with age := smSet L.cgw.age i 0 } }
    match k.tgt with
    | 0 =>
      let e := canSignal k.index L0
      match e.1 with
      | some x => putBit (bufAddr x) 30 true (writeBytes (bufAddr x + 8) data e.2).2
      | none => e.2
    | 1 =>
      let a := canBufAddr k.index
      let r := readW a L0
      match r.1 with
      | some w =>
        let st := (w &&& 0x40FF0000) ||| 0x80000000 ||| toW ((bitsOf w 0 8 + 1) % 256)
        cgwEvent 4 (writeWords a [st, mtick r.2] (writeBytes (a + 8) data r.2).2).2
      | none => r.2
    | _ =>
      let L1 := (writeWords (sampleOff L0 + 4 * k.index) (beWords ((k.len + 3) / 4) data) L0).2
      if k.staten then putBit (sampleOff L1 + 4 * k.sword) k.sbit true L1 else L1

/-- A waiting CAN_RECV matches a message. -/
def recvMatches (c : Nat) (m : CanMsg) (r : Run) : Bool :=
  let mask := bitsOf r.d.w5 0 29
  decide (b2n (bitAt r.d.w4 31) = c ∧ bitsOf r.d.w5 29 3 = modeOf m.mode) &&
    decide ((bitsOf r.d.w4 0 29) &&& mask = m.id.toNat &&& mask)

/-- The waiting descriptor that comes first: ring priority, ring number, index (R362). -/
def recvFirst (L : Lane) : List Run → Option Run
  | [] => none
  | x :: xs =>
    match recvFirst L xs with
    | none => some x
    | some y =>
      let k (r : Run) : Nat := (ringPrio L r.ring * 32 + r.ring) * 65536 + r.seq
      if k x ≤ k y then some x else some y

/-- A CAN_RECV waits no longer. -/
def recvDrop (r : Run) (L : Lane) : Lane :=
  { L with ring := { L.ring with recv := L.ring.recv.filter (fun q => !decide (q.ring = r.ring ∧ q.seq = r.seq)) } }

/-- The identifier of a message as it was received: an ISO 11783 one with its addresses (R357, R362). -/
def canIdent (m : CanMsg) : Word :=
  match m.mode with
  | .iso => toW (isoId m.id.toNat m.da.toNat m.sa.toNat)
  | _ => m.id.setWidth 32

/-- A waiting CAN_RECV ends: DONE with the message written, or FAULT where the message is longer than LENGTH. -/
def recvEnd (m : CanMsg) (r : Run) (ld : LD) : LD :=
  let ld1 := onL (recvDrop r) ld
  if r.d.length < m.data.length then endStatus 8 r errEngine stFault 1 ld1
  else
    match iovaWrite 8 r.d.ctx r.d.dst m.data ld1 with
    | (.error e, ld2) => endStatus 8 r e.code stFault (if e.lmmu ∨ e.code = errEcc then faultDetail e else 0) ld2
    | (.ok _, ld2) => endStatus 8 { r with progress := m.data.length } 0 stDone (canIdent m) ld2

/-- The next address to try after a lost one: AMIN to AMAX in turn where the NAME is self-configurable; else none (R361).
PRESUMED: log 88. -/
def nextAddress (c : Nat) (L : Lane) : Lane :=
  let x := canOf L c
  let self := bitAt (L.fld (F.CGW_CHc_NAME_HI_NAME c)) 31
  let a := max x.tryNext (L.n (F.CGW_CHc_CFG_AMIN c))
  let L1 := (L.setB (F.CGW_CHc_STAT_ADDR_OK c) false).putN (F.CGW_CHc_STAT_ADDR c) 0xFE
  if self && decide (a ≤ L.n (F.CGW_CHc_CFG_AMAX c)) then
    setCan c (fun y => { y with claiming := some a, tryNext := a + 1 }) L1
  else raise 0x0DC (cgwEvent (2 * c + 1) (setCan c (fun y => { y with claiming := none, lost := true }) L1))

/-- An Address Claimed message for the address that the channel uses or claims: the lower NAME keeps it (R361).
DEDUCED: log 89. -/
def addressHeard (c : Nat) (m : CanMsg) (L : Lane) : Lane :=
  let own : Option Nat := match (canOf L c).claiming with
    | some a => some a
    | none => if L.b (F.CGW_CHc_STAT_ADDR_OK c) then some (canAddr L c) else none
  let name := leNat m.data
  let mine := (cat64 (L.fld (F.CGW_CHc_NAME_HI_NAME c)) (L.fld (F.CGW_CHc_NAME_LO_NAME c))).toNat
  if m.mode = .iso ∧ m.id.toNat / 256 % 2 ^ 18 / 256 = 0xEE ∧ m.data.length = 8 ∧ own = some m.sa.toNat ∧ name < mine then
    nextAddress c L
  else L

/-- A session of the message's sender, destination and identifier is open. -/
def ofSession (m : CanMsg) (x : CanRx) : Bool := decide (x.sa = m.sa.toNat ∧ x.da = m.da.toNat ∧ x.id = m.id.toNat)

/-- A message for this channel's address, or for all. -/
def forUs (c : Nat) (m : CanMsg) (L : Lane) : Bool :=
  decide (m.da.toNat = 0xFF) || (L.b (F.CGW_CHc_STAT_ADDR_OK c) && decide (m.da.toNat = canAddr L c))

/-- A connection is refused or ended by the EK3; a broadcast has none (R357). -/
def refuseTp (c : Nat) (m : CanMsg) (L : Lane) : Lane := if m.da.toNat = 0xFF then L else canTpAbort c L

/-- A message of `n` bytes in several packets is opened: refused with reason 1 where four receive sessions are open, with reason 2
where no mapping takes it and no waiting CAN_RECV has room for it; a mapping takes up to 1,785 bytes (R357, R362).
DEDUCED: log 88. -/
def tpOpen (c n : Nat) (m : CanMsg) (ld : LD) : LD :=
  let L := ld.1
  let opened (L : Lane) : Lane := setCan c (fun y => { y with
    rx := y.rx.filter (fun x => !ofSession m x) ++ [⟨m.sa.toNat, m.da.toNat, m.id.toNat, n⟩] }) L
  if !forUs c m L then ld
  else if 4 ≤ ((canOf L c).rx.filter (fun x => !ofSession m x)).length then onL (refuseTp c m) ld
  else
    let t := if n ≤ 1785 then takenBy c m (List.range (nMap L)) L else (none, L)
    match t.1 with
    | some _ => (opened t.2, ld.2)
    | none =>
      match recvFirst t.2 (t.2.ring.recv.filter (recvMatches c m)) with
      | none => (refuseTp c m t.2, ld.2)
      | some r =>
        if r.d.length < n then endStatus 8 r errEngine stFault 1 (recvDrop r (refuseTp c m t.2), ld.2)
        else (opened t.2, ld.2)

/-- The peer ends its connections with this channel: a CAN_SEND to it ends FAULT with DETAIL 3, a queued message to it is dropped,
and its receive sessions close (R357, R362). DEDUCED: log 88. -/
def tpPeerEnd (c : Nat) (m : CanMsg) (ld : LD) : LD :=
  if !forUs c m ld.1 then ld
  else
    let mine (i : CanItem) : Bool := i.big && decide (i.da = m.sa.toNat)
    let x := canOf ld.1 c
    let send := (x.q ++ x.cur.toList).any (fun i => mine i && decide (i.map = 2048))
    let ld1 := if send then canSendFail c 3 ld else ld
    onL (fun L => canStart c (setCan c (fun y => { y with
      rx := y.rx.filter (fun s => !decide (s.sa = m.sa.toNat))
      q := y.q.filter (fun i => !mine i)
      cur := match y.cur with
        | some i => if mine i then none else some i
        | none => none }) L)) ld1

/-- A complete frame or message is offered to the mappings, then to the waiting descriptors (R359, R362); a mapping takes no
message above 1,785 bytes (R357). -/
def canOffer (c : Nat) (m : CanMsg) (ld : LD) : LD :=
  let t := if m.data.length ≤ 1785 then takenBy c m (List.range (nMap ld.1)) ld.1 else (none, ld.1)
  match t.1 with
  | some (i, k) => (mapDeliver c i k m t.2, ld.2)
  | none =>
    match recvFirst t.2 (t.2.ring.recv.filter (recvMatches c m)) with
    | some r => recvEnd m r (cgwEvent (2 * c) t.2, ld.2)
    | none => (t.2, ld.2)

/-- A frame or message arrives (R357, R359, R361, R362). A message of several packets is complete only where its session is
open. -/
def canReceived (c : Nat) (m : CanMsg) (ld : LD) : LD :=
  if !canEn ld.1 c || busOff ld.1 c || !modeAllowed ld.1 c m.mode then ld
  else
    match m.part with
    | .opens n => tpOpen c n m ld
    | .aborts => tpPeerEnd c m ld
    | .whole =>
      if m.mode = .iso ∧ 8 < m.data.length then
        if (canOf ld.1 c).rx.any (fun x => ofSession m x && decide (x.size = m.data.length)) then
          canOffer c m (onL (setCan c (fun y => { y with rx := y.rx.filter (fun x => !ofSession m x) })) ld)
        else ld
      else canOffer c m (onL (addressHeard c m) ld)
def execCanFrameReceived (l : LaneId) (ch : Fin 2) (m : CanMsg) (s : State) : Host.Outcome State Fault Refusal :=
  .next (onDie l (canReceived ch.val m) s)

/-- A receive mapping's timeout: TMO cycles since its latest delivery; once (R359). -/
def canRxTimeout (m : Nat) (L : Lane) : Lane :=
  match smFind L.cgw.age m with
  | none => L
  | some n =>
    let r := canMap m L
    match r.1 with
    | none => r.2
    | some k =>
      if k.valid && !k.out && decide (m < nMap L ∧ k.tmo ≠ 0 ∧ k.tmo ≤ n) then
        let L1 := { r.2 with cgw := { r.2.cgw with age := smErase r.2.cgw.age m } }
        let L2 :=
          if k.tgt = 1 then putBit (canBufAddr k.index) 31 false L1
          else if k.tgt = 2 ∧ k.staten then putBit (sampleOff L1 + 4 * k.sword) k.sbit false L1
          else L1
        raise 0x0DD (cgwEvent (2 * k.ch + 1) L2)
      else r.2
def execCanRxTimeout (l : LaneId) (m : Fin 2048) (s : State) : Host.Outcome State Fault Refusal :=
  .next (s.onLane l (whenLive (canRxTimeout m.val)))

/-- A channel goes bus-off (R357, R362): TEC stands at its maximum. PRESUMED: log 88. -/
def goBusOff (c : Nat) (ld : LD) : LD :=
  if canEn ld.1 c && !busOff ld.1 c then
    canSendFail c 2 (onL (fun L => canErr c F.CGW_CHc_ERR_BOFF_CNT 0x0DB
      ((L.setB (F.CGW_CHc_STAT_BUSOFF c) true).putN (F.CGW_CHc_STAT_TEC c) 0xFF)) ld)
  else ld
def execCanBusOff (l : LaneId) (ch : Fin 2) (s : State) : Host.Outcome State Fault Refusal := .next (onDie l (goBusOff ch.val) s)

/-- 128 occurrences of 11 recessive bits: the channel leaves bus-off with its error counters at 0 (R357).
PRESUMED: log 88. -/
def busOffEnds (c : Nat) (L : Lane) : Lane :=
  if busOff L c then
    canStart c ((((L.setB (F.CGW_CHc_STAT_BUSOFF c) false).setB (F.CGW_CHc_STAT_PASSIVE c) false).putN
      (F.CGW_CHc_STAT_TEC c) 0).putN (F.CGW_CHc_STAT_REC c) 0)
  else L
def execBusOffRecovery (l : LaneId) (ch : Fin 2) (s : State) : Host.Outcome State Fault Refusal :=
  .next (s.onLane l (whenLive (busOffEnds ch.val)))

/-- A transport session times out and is aborted with reason 3 (R357): the `k`th receive session in order of their start, or the
`k`th transmit session. DEDUCED: log 89. -/
def tpTimeout (c : Nat) (rx : Bool) (k : Nat) (ld : LD) : LD :=
  if !canEn ld.1 c || !canIso ld.1 c then ld
  else if rx then
    match (canOf ld.1 c).rx[k]? with
    | none => ld
    | some x => onL (fun L => setCan c (fun y => { y with rx := y.rx.eraseIdx k })
        (if x.da = 0xFF then L else canTpAbort c L)) ld
  else
    let x := canOf ld.1 c
    match ((x.cur.toList ++ x.q).filter (fun i => i.big))[k]? with
    | none => ld
    | some i =>
      let ld1 := onL (canTpAbort c) ld
      if i.map = 2048 then canSendFail c 3 ld1
      else onL (fun L => canStart c (setCan c (fun y => { y with
        q := y.q.filter (fun j => decide (j.map ≠ i.map))
        cur := match y.cur with
          | some j => if j.map = i.map then none else some j
          | none => none }) L)) ld1
def execTpTimeout (l : LaneId) (ch : Fin 2) (rx : Bool) (k : Fin 4) (s : State) : Host.Outcome State Fault Refusal :=
  .next (onDie l (tpTimeout ch.val rx k.val) s)

/-- An ISO channel that is enabled claims its preferred address (R361). -/
def addressClaim (c : Nat) (L : Lane) : Lane :=
  let x := canOf L c
  if canEn L c && canIso L c && x.claiming.isNone && !L.b (F.CGW_CHc_STAT_ADDR_OK c) && !x.lost then
    setCan c (fun y => { y with claiming := some (L.n (F.CGW_CHc_CFG_PREF c)), tryNext := 0 }) L
  else L
def execAddressClaim (l : LaneId) (ch : Fin 2) (s : State) : Host.Outcome State Fault Refusal :=
  .next (s.onLane l (whenLive (addressClaim ch.val)))

/-- 250 ms without a challenge: the address is in use (R361). -/
def addressDone (c : Nat) (L : Lane) : Lane :=
  match (canOf L c).claiming with
  | some a => setCan c (fun y => { y with claiming := none })
      ((L.setB (F.CGW_CHc_STAT_ADDR_OK c) true).putN (F.CGW_CHc_STAT_ADDR c) a)
  | none => L
def execAddressClaimComplete (l : LaneId) (ch : Fin 2) (s : State) : Host.Outcome State Fault Refusal :=
  .next (s.onLane l (whenLive (addressDone ch.val)))

/-- A channel leaves the bus as EN is cleared: what it was sending and claiming is dropped. -/
def canDisable (c : Nat) (L : Lane) : Lane :=
  setCan c (fun _ => default) (((L.setB (F.CGW_CHc_STAT_ADDR_OK c) false).putN (F.CGW_CHc_STAT_ADDR c) 0xFE))

/-- Parameters of the CAN role at fetch: a MODE code and a length that it allows, FD only where the channel allows it (R132,
R362). DEDUCED: log 56. -/
def parmCan (r : Run) (L : Lane) : Option (Nat × Nat × Word) :=
  let mode := bitsOf r.d.w5 29 3
  let c := b2n (bitAt r.d.w4 31)
  let most := if mode ≤ 1 then 8 else if mode ≤ 3 then 64 else 16777215
  if 4 < mode ∨ bitsOf r.d.w4 29 2 ≠ 0 then some (errParam, stFault, 0)
  else if r.d.opcode = 0x01 ∧ (most < r.d.length ∨ ((mode = 2 ∨ mode = 3) ∧ ¬ canFd L c)) then some (errParam, stFault, 0)
  else none

def canErrFlds (c : Nat) : List Fld :=
  [F.CGW_CHc_ERR_BOFF_CNT c, F.CGW_CHc_ERR_RXDROP_CNT c, F.CGW_CHc_ERR_TXDROP_CNT c, F.CGW_CHc_ERR_TPABORT_CNT c]
def execCgwErrClr (l : LaneId) (ch : Fin 2) (val : Word) (s : State) : Host.Outcome State Fault Refusal :=
  .next (s.onLane l (whenLive (clearBy (canErrFlds ch.val) val)))

end Sys2Proof.Machine
end

