-- ==== Sys2Proof/Machine/Storage.lean ====
section
/-! DEFINITION. The storage die: mounting and links, its registers as a lane sees them, STORAGE descriptors, corrected and
lost codewords, retired blocks and the patrol (R366 to R383, R397). Where in the NAND array a sector stands is not modelled. -/

namespace Sys2Proof.Machine

/-- The size of a partition in sectors; 0 where none has the code (R375). -/
def partSize (p : Nat) : Nat := nth [65536, 32768, 655360, 65536, 16384, 131072, 32768, 212992] p 0

/-- A partition that the lanes share. -/
def partShared (p : Nat) : Bool := decide (p = 6 ∨ p = 7)

/-- The keys of a byte and of a sector of a partition in the die's maps. -/
def byteKey (p off : Nat) : Nat := p * 4294967296 + off
def secKey (p sec : Nat) : Nat := p * 1048576 + sec

/-- The bytes of a partition and its unreadable sectors, as a lane reaches them. -/
def partBytes (d : StorageDie) (l : LaneId) (p : Nat) : List (Nat × Byte) :=
  if partShared p then d.shared else (stoOf d l).data
def partBad (d : StorageDie) (l : LaneId) (p : Nat) : List Nat := if partShared p then d.sharedBad else (stoOf d l).bad
def setPart (d : StorageDie) (l : LaneId) (p : Nat) (bs : List (Nat × Byte)) (bad : List Nat) : StorageDie :=
  if partShared p then { d with shared := bs, sharedBad := bad }
  else setStoOf d l { stoOf d l with data := bs, bad := bad }

/-- A sector cannot be read (R367). -/
def secBad (d : StorageDie) (l : LaneId) (p sec : Nat) : Bool := (partBad d l p).contains (secKey p sec)

/-- `k` sectors as they read. -/
def readSecs (d : StorageDie) (l : LaneId) (p sec k : Nat) : List Byte :=
  (List.range (4096 * k)).map (fun i => smGet (partBytes d l p) (byteKey p (4096 * sec + i)) 0)

/-- `k` sectors no longer unreadable, and zero (R380). -/
def trimSecs (p sec k : Nat) (l : LaneId) (d : StorageDie) : StorageDie :=
  setPart d l p
    ((partBytes d l p).filter (fun c => !(decide (byteKey p (4096 * sec) ≤ c.1 ∧ c.1 < byteKey p (4096 * (sec + k))))))
    ((partBad d l p).filter (fun x => !(decide (secKey p sec ≤ x ∧ x < secKey p (sec + k)))))

/-- Sectors programmed with bytes (R372). -/
def writeSecs (p sec : Nat) (bs : List Byte) (l : LaneId) (d : StorageDie) : StorageDie :=
  let d1 := trimSecs p sec ((bs.length + 4095) / 4096) l d
  setPart d1 l p (smPutBytes (partBytes d1 l p) (byteKey p (4096 * sec)) bs) (partBad d1 l p)

/-- The STE's registers as a lane with a link sees them (STE_STAT to STE_AUD_WP). DEDUCED: log 90. -/
def steShow (L : Lane) (d : StorageDie) : Lane :=
  if linkUp L d then
    let L1 := ((L.setB F.STE_STAT_MOUNTED true).setB F.STE_STAT_RO_MODE (decide (d.spare < 32))).setB F.STE_STAT_LOW_SPARE
      (decide (d.spare < 256))
    let L2 := ((L1.setB F.STE_STAT_PATROL_LATE d.patrolLate).setB F.STE_STAT_AUDIT_FULL
      (decide (65536 ≤ (stoOf d L.id).audWp))).putN F.STE_STAT_SPARE d.spare
    let L3 := ((L2.putN F.STE_WEAR_HIGH d.wearHigh).putN F.STE_WEAR_LOW d.wearLow).putN F.STE_BAD_GROWN d.grown
    let L4 := ((L3.putN F.STE_BAD_FACTORY d.factory).putN F.STE_PATROL_PASSES (min d.passes 65535)).putN F.STE_PATROL_POS
      d.patrolPos
    L4.putN F.STE_AUD_WP_AUD_WP (stoOf d L.id).audWp
  else L

/-- An effect on the lane after which its STE registers show the die. DEDUCED: log 90. -/
def steSync (ld : LD) : LD := (steShow ld.1 ld.2, ld.2)

/-- An event of the STE: PLIC 74 for bits 0, 2 and 3, PLIC 75 for bits 1, 4 and 5, as enabled (STE_EVSTAT, STE_EVEN). -/
def steEvent (bit : Nat) (L : Lane) : Lane :=
  eventBits F.STE_EVSTAT_EV (L.fld F.STE_EVEN_EV) (fun i => if i = 0 ∨ i = 2 ∨ i = 3 then some 74 else some 75)
    (toW (2 ^ bit)) L

/-- An entry of 16 bytes in the ring of the storage engine log (R377). DEDUCED: log 91. -/
def logEntry (kind blk val : Nat) (d : StorageDie) : StorageDie :=
  let bs := natBytesLe 4 (d.poweredUs / 3600000000) ++ [BitVec.ofNat 8 kind, BitVec.ofNat 8 (blk / 4096), 0, 0] ++
    natBytesLe 4 blk ++ natBytesLe 4 val
  { d with shared := smPutBytes d.shared (byteKey 6 (16 * (d.logCount % 8388608))) bs, logCount := d.logCount + 1 }

/-- The spare state of R368: 0 normal, 1 LOW_SPARE, 2 READ_ONLY. DEDUCED: log 90. -/
def spareState (n : Nat) : Nat := if n < 32 then 2 else if n < 256 then 1 else 0

/-- A block is retired: a spare block takes its place (R368). -/
def retireDie (blk : Nat) (d : StorageDie) : StorageDie :=
  if d.retired.contains blk then d
  else
    let d1 := { d with retired := insAsc blk d.retired, spare := d.spare - 1, grown := min (d.grown + 1) 65535 }
    let d2 := logEntry 1 blk d1.spare d1
    if spareState d1.spare ≠ spareState d.spare then logEntry 5 0 d1.spare d2 else d2

/-- What a lane sees of the retirement: 0x0E3, and the change of the spare state with 0x0E4 or 0x0E5. -/
def retireLane (d d1 : StorageDie) (L : Lane) : Lane :=
  if d1.retired = d.retired then L
  else
    let L1 := raise 0x0E3 (L.inc F.STE_ERR_RETIRE_CNT)
    if spareState d1.spare = spareState d.spare then L1
    else
      let L2 := steEvent 3 L1
      let L3 := if spareState d.spare < 1 then raise 0x0E4 L2 else L2
      if spareState d1.spare = 2 then raise 0x0E5 L3 else L3

/-- Each lane whose link is up sees an effect of the die. DEDUCED: log 90. -/
def onLinked (d : StorageDie) (f : Lane → Lane) (s : State) : State :=
  let g (L : Lane) : Lane := if linkUp L d then f L else L
  { s with laneA := g s.laneA, laneB := g s.laneB, laneC := g s.laneC }

/-- A block is retired, and every lane with a link sees it (R368). DEDUCED: log 90. -/
def retireAll (blk : Nat) (s : State) : State :=
  let d1 := retireDie blk s.sto
  onLinked s.sto (retireLane s.sto d1) { s with sto := d1 }

/-- A program of the NAND has its blocks erased sooner or later: erase counts step by free amounts within the spread that wear
levelling allows (R369). DESIGN CHOICE: log 22. -/
def wearStep (ld : LD) : LD :=
  let f := ld.1.freeW
  let d := ld.2
  let h := if bitAt f.1 0 ∧ d.wearHigh < d.wearLow + 2000 ∧ d.wearHigh < 49999 then d.wearHigh + 1 else d.wearHigh
  let w := if bitAt f.1 1 ∧ d.wearLow < h then d.wearLow + 1 else d.wearLow
  (f.2, { d with wearHigh := h, wearLow := w })

/-! The die's supply, mounting and links (R372, R373). -/

/-- The die powers on: the staging buffers are zero, mounting starts (R373, R379). DESIGN CHOICE: log 11, 93. -/
def diePowerOn (d : StorageDie) : StorageDie :=
  if d.powered then d
  else { d with
    powered := true
    mounted := false
    links := 0
    dieFault := false
    stoA := { d.stoA with staging := [], stagBad := [] }
    stoB := { d.stoB with staging := [], stagBad := [] }
    stoC := { d.stoC with staging := [], stagBad := [] } }
def execStorageDiePowerOn (s : State) : Host.Outcome State Fault Refusal := .next { s with sto := diePowerOn s.sto }

def execSteMount (s : State) : Host.Outcome State Fault Refusal :=
  .next { s with sto := { s.sto with mounted := s.sto.powered || s.sto.mounted } }

/-- Closed segments wait for the link (EVR_STAT). -/
def showWait (L : Lane) : Lane :=
  L.setB F.EVR_STAT_LINKWAIT (decide (L.evr.closed ≠ []) && !L.b F.STE_STAT_LINK)

/-- The running descriptor of a role ends with ERR_LINK (R140). DEDUCED: log 93. -/
def endLink (role : Nat) (ld : LD) : LD :=
  match (getEng ld.1 role).run with
  | some r => finish role r errLink stFault 0 ld
  | none => ld

/-- A link that was up goes down: 0x0E0, and what runs over it ends (R22, R140, R373). The registers hold their last values. -/
def storageLinkDown (ld : LD) : LD :=
  if linkUp ld.1 ld.2 then
    let ld1 := steSync ld
    let L1 := showWait (ld1.1.setB F.STE_STAT_LINK false)
    let d1 := { ld1.2 with links := ld1.2.links &&& ~~~ laneBit L1.id }
    let L2 := raise 0x0E0 (steEvent 1 (L1.inc F.STE_ERR_LINK_CNT))
    endLink 4 (endLink 1 ({ L2 with evr := { L2.evr with waitSeal := none } }, d1))
  else ld
def execStorageLinkDown (l : LaneId) (s : State) : Host.Outcome State Fault Refusal :=
  .next (s.onLaneDie l (fun L d => storageLinkDown (L, d)))

/-- The die loses its supply: each link goes down; sectors keep what they hold (R372). -/
def execStorageDiePowerLoss (s : State) : Host.Outcome State Fault Refusal :=
  let down (l : LaneId) (s : State) : State := s.onLaneDie l (fun L d => storageLinkDown (L, d))
  let s1 := down .c (down .b (down .a s))
  .next { s1 with sto := { s1.sto with powered := false, mounted := false, links := 0 } }

/-! Descriptors (R380 to R383). -/

/-- PART, SECTOR and COUNT of a STORAGE descriptor. -/
def dPart (r : Run) : Nat := bitsOf r.d.w4 28 4
def dSec (r : Run) : Nat := bitsOf r.d.w4 0 20
def dCount (r : Run) : Nat := bitsOf r.d.w5 0 20

/-- R375 allows the opcode for the partition. -/
def partAllows (p op : Nat) : Bool :=
  match p with
  | 0 => true
  | 1 => true
  | 2 => false
  | 3 => decide (op ≠ 0x03)
  | 4 => true
  | 5 => true
  | 6 => decide (op = 0x01 ∨ op = 0x04)
  | 7 => true
  | _ => false

/-- The lane may write the vehicle library (R375). -/
def vehicleWrite (L : Lane) : Bool := decide (L.otp.lc = 1) || inServiceHold L

/-- The checks of R381, in order. DEDUCED: log 56. -/
def parmStorage (r : Run) (ld : LD) : Option (Nat × Nat × Word) :=
  let op := r.d.opcode
  let p := dPart r
  let wr := decide (op = 0x02 ∨ op = 0x03)
  let bad : Option (Nat × Nat × Word) := some (errParam, stFault, 0)
  if r.d.w4 &&& 0x0FF00000 ≠ 0 ∨ r.d.w5 &&& 0xFFF00000 ≠ 0 then bad
  else if !partAllows p op then bad
  else if dCount r = 0 then bad
  else if (op = 0x01 ∨ op = 0x02) ∧ r.d.length ≠ 4096 * dCount r then bad
  else if partSize p < dSec r + dCount r ∨ (p = 3 ∧ op = 0x02 ∧ dSec r ≠ (stoOf ld.2 ld.1.id).audWp) then bad
  else if p = 7 ∧ wr ∧ !vehicleWrite ld.1 then some (errEngine, stFault, 4)
  else if wr ∧ ld.2.spare < 32 then some (errEngine, stFault, 2)
  else none

/-- AUD_WP advances; at 65,536 AUDIT_FULL is set and 0x0EC raised (R376). DEDUCED: log 92. -/
def audAdvance (k : Nat) (ld : LD) : LD :=
  let x := stoOf ld.2 ld.1.id
  let d1 := setStoOf ld.2 ld.1.id { x with audWp := x.audWp + k }
  let L1 := if 65536 ≤ x.audWp + k ∧ x.audWp < 65536 then raise 0x0EC ld.1 else ld.1
  steSync (L1, d1)

/-- An accepted WRITE to the audit log takes its sectors, in the order of acceptance (R376). DEDUCED: log 92. -/
def acceptStorage (r : Run) (ld : LD) : LD :=
  if dPart r = 3 ∧ r.d.opcode = 0x02 then audAdvance (dCount r) ld else ld

/-- What keeps a unit from being moved: no link, or a NAND die that does not respond. -/
def unitBlocked (r : Run) (ld : LD) : Option LD :=
  if !linkUp ld.1 ld.2 then some (finish 1 r errLink stFault 0 ld)
  else if ld.2.dieFault then some (finish 1 r errEngine stFault 3 (onL (raise 0x0E7) ld))
  else none

/-- A unit is done: the boundary, or the end (R382). -/
def unitDone (r : Run) (total : Nat) (ld : LD) : LD :=
  if r.progress = total then finish 1 r 0 stDone 0 ld else atBoundary 1 r ld

/-- Some of `k` sectors are unreadable: the first of them. -/
def firstBad (d : StorageDie) (l : LaneId) (p sec k : Nat) : Option Nat :=
  (List.range k).find? (fun i => secBad d l p (sec + i))

/-- One unit of the running READ. -/
def readUnit (r : Run) (ld : LD) : LD :=
  match unitBlocked r ld with
  | some ld1 => ld1
  | none =>
    let n := r.progress / 4096
    let k := min 4 (dCount r - n)
    match firstBad ld.2 ld.1.id (dPart r) (dSec r + n) k with
    | some _ => finish 1 r errEngine stFault 1 ld
    | none =>
      match iovaWrite 1 r.d.ctx (r.d.dst + r.progress) (readSecs ld.2 ld.1.id (dPart r) (dSec r + n) k) ld with
      | (.error e, ld1) => finishErr 1 r e ld1
      | (.ok _, ld1) => unitDone { r with progress := r.progress + 4096 * k } (4096 * dCount r) ld1

/-- One unit of the running WRITE. -/
def writeUnit (r : Run) (ld : LD) : LD :=
  match unitBlocked r ld with
  | some ld1 => ld1
  | none =>
    let n := r.progress / 4096
    let k := min 4 (dCount r - n)
    match iovaReadN 1 r.d.ctx (r.d.src + r.progress) (4096 * k) ld with
    | (.error e, ld1) => finishErr 1 r e ld1
    | (.ok bs, ld1) =>
      let ld2 := wearStep (ld1.1, writeSecs (dPart r) (dSec r + n) bs ld1.1.id ld1.2)
      unitDone { r with progress := r.progress + 4096 * k } (4096 * dCount r) ld2

/-- One unit of the running TRIM. -/
def trimUnit (r : Run) (ld : LD) : LD :=
  match unitBlocked r ld with
  | some ld1 => ld1
  | none =>
    let k := min 4 (dCount r - r.progress)
    unitDone { r with progress := r.progress + k } (dCount r)
      (ld.1, trimSecs (dPart r) (dSec r + r.progress) k ld.1.id ld.2)

/-- One unit of the running VERIFY; it ends at an unreadable sector with the sectors verified counted. -/
def verifyUnit (r : Run) (ld : LD) : LD :=
  match unitBlocked r ld with
  | some ld1 => ld1
  | none =>
    let k := min 4 (dCount r - r.progress)
    match firstBad ld.2 ld.1.id (dPart r) (dSec r + r.progress) k with
    | some _ => finish 1 r errEngine stFault 1 ld
    | none => unitDone { r with progress := r.progress + k } (dCount r) ld

/-- The running descriptor of an opcode goes on to its end, or leaves the engine. -/
def storageRun (op : Nat) (unit : Run → LD → LD) (ld : LD) : LD :=
  match runningOp ld.1 1 op with
  | some r => unitLoop unit 1 r (dCount r / 4 + 2) ld
  | none => ld
def execRead (l : LaneId) (s : State) : Host.Outcome State Fault Refusal := .next (onDie l (storageRun 0x01 readUnit) s)

/-- A WRITE runs and its link is up. -/
def writes (L : Lane) (d : StorageDie) : Bool := L.live && (runningOp L 1 0x02).isSome && linkUp L d

/-- What a WRITE meets in the NAND: a block whose program fails is retired, which every lane with a link sees, and the data goes to
another (R368); a die that does not respond stays so until the storage die's next power-on (R383). DESIGN CHOICE: log 93. -/
def meetNand (bad : NandTrouble) (s : State) : State :=
  match bad with
  | .programFails blk => retireAll blk.val s
  | .noResponse => { s with sto := { s.sto with dieFault := true } }

/-- WRITE, with what it meets in the NAND on the way. -/
def execWrite (l : LaneId) (bad : Option NandTrouble) (s : State) : Host.Outcome State Fault Refusal :=
  let s1 := match bad with
    | some b => if writes (s.lane l) s.sto then meetNand b s else s
    | none => s
  .next (onDie l (storageRun 0x02 writeUnit) s1)
def execTrim (l : LaneId) (s : State) : Host.Outcome State Fault Refusal := .next (onDie l (storageRun 0x03 trimUnit) s)
def execVerify (l : LaneId) (s : State) : Host.Outcome State Fault Refusal := .next (onDie l (storageRun 0x04 verifyUnit) s)

/-! Codewords, blocks and the patrol (R367, R370, R371). -/

/-- The place of a sector of the user capacity: lane, partition and index; 966,656 sectors for each lane, then the shared
partitions. -/
def placeSec (g : Nat) : Option (LaneId × Nat × Nat) :=
  let inLane (l : LaneId) (k : Nat) : LaneId × Nat × Nat :=
    if k < 65536 then (l, 0, k)
    else if k < 98304 then (l, 1, k - 65536)
    else if k < 753664 then (l, 2, k - 98304)
    else if k < 819200 then (l, 3, k - 753664)
    else if k < 835584 then (l, 4, k - 819200)
    else (l, 5, k - 835584)
  if g < 2899968 then
    match laneOf (g / 966656) with
    | some l => some (inLane l (g % 966656))
    | none => none
  else if g < 2932736 then some (.a, 6, g - 2899968)
  else if g < 3145728 then some (.a, 7, g - 2932736)
  else none

/-- A sector becomes unreadable. DEDUCED: log 91. -/
def markBad (g : Nat) (d : StorageDie) : StorageDie :=
  match placeSec g with
  | none => d
  | some (l, p, sec) =>
    if secBad d l p sec then d else setPart d l p (partBytes d l p) (insAsc (secKey p sec) (partBad d l p))

/-- A codeword that needed `bits` corrections: more than 72 lose its sector, more than 40 have it rewritten (R367). -/
def codeword (blk g bits : Nat) (s : State) : State :=
  if 72 < bits then
    onLinked s.sto (fun L => raise 0x0E1 (steEvent 4 (L.inc F.STE_ERR_UE_CNT)))
      { s with sto := logEntry 3 blk bits (markBad g s.sto) }
  else if 40 < bits then
    onLinked s.sto (fun L => raise 0x0E2 (steEvent 5 (L.inc F.STE_ERR_RELOC_CNT))) { s with sto := logEntry 2 blk bits s.sto }
  else s

/-- RELOCATION: the codeword's sectors are rewritten; the program of the target block may fail. -/
def execRelocation (blk : Fin 8192) (sector bits : Nat) (bad : Bool) (s : State) : Host.Outcome State Fault Refusal :=
  .next (if s.sto.mounted then
    let s1 := codeword blk.val sector bits s
    if bad ∧ 40 < bits ∧ bits ≤ 72 then retireAll blk.val s1 else s1
  else s)

/-- A block with 100,000 reads has its data relocated and is erased (R370). -/
def execReadDisturbRelocate (blk : Fin 8192) (s : State) : Host.Outcome State Fault Refusal :=
  .next (if s.sto.mounted ∧ ¬ s.sto.retired.contains blk.val then
    onLinked s.sto (fun L => steEvent 5 (L.inc F.STE_ERR_RELOC_CNT))
      { s with sto := logEntry 2 blk.val 0 { s.sto with reads := smErase s.sto.reads blk.val } }
  else s)

/-- How far the patrol is behind its pace of one pass in 168 powered hours, in us (R371). DEDUCED: log 91. -/
def patrolBehind (d : StorageDie) : Int :=
  (d.poweredUs : Int) - ((d.passes * 8192 + d.patrolPos) * 604800000000 / 8192 : Nat)

/-- PATROL_READ: the position, a completed pass, the read count of the block, the codewords read; PATROL_LATE clears when the
patrol is back on schedule. -/
def execPatrolRead (blk : Fin 8192) (sector bits : Nat) (s : State) : Host.Outcome State Fault Refusal :=
  .next (if s.sto.mounted then
    let d := s.sto
    let pass := decide (blk.val < d.patrolPos)
    let d1 := { d with
      patrolPos := blk.val
      passes := if pass then d.passes + 1 else d.passes
      reads := smSet d.reads blk.val (smGet d.reads blk.val 0 + 1) }
    let d2 := if pass then logEntry 4 0 d1.passes d1 else d1
    let d3 := { d2 with patrolLate := d2.patrolLate && decide (0 < patrolBehind d2) }
    codeword blk.val sector bits (onLinked d (fun L => if pass then steEvent 2 L else L) { s with sto := d3 })
  else s)

/-- The patrol is more than 4 powered hours behind (R371). DEDUCED: log 91. -/
def execPatrolLate (s : State) : Host.Outcome State Fault Refusal :=
  .next (if s.sto.mounted ∧ s.sto.patrolLate = false ∧ 14400000000 < patrolBehind s.sto then
    onLinked s.sto (raise 0x0E6) { s with sto := { s.sto with patrolLate := true } }
  else s)

/-- STE_ERR_CLR (R397). -/
def steErrFlds : List Fld := [F.STE_ERR_UE_CNT, F.STE_ERR_RELOC_CNT, F.STE_ERR_RETIRE_CNT, F.STE_ERR_LINK_CNT]
def execSteErrClr (l : LaneId) (val : Word) (s : State) : Host.Outcome State Fault Refusal :=
  .next (s.onLane l (whenLive (clearBy steErrFlds val)))

end Sys2Proof.Machine
end

