-- ==== Sys2Proof/Machine/Recorder.lean ====
section
/-! DEFINITION. The event recorder: records, segments, chain and seals, frozen windows, the audit log, EVR descriptors and the
tail (R384 to R395, R455). -/

namespace Sys2Proof.Machine

/-- The lane's recorder part replaced. -/
def withEvr (f : EvrSt → EvrSt) (L : Lane) : Lane := { L with evr := f L.evr }

/-- Recording runs: on, and the tail has arrived (R384, R393). -/
def evrRuns (L : Lane) : Bool := L.b F.EVR_CTL_EN && L.b F.EVR_STAT_RUN

/-- SEGNO of the open segment, or of the next where none is open. -/
def segNo (L : Lane) : Nat := L.n F.EVR_SEGNO_SEGNO

/-- A segment buffer that holds no closed segment. -/
def freeBuf (L : Lane) : Nat :=
  match (List.range 3).find? (fun b => L.evr.closed.all (fun c => decide (c.1 ≠ b))) with
  | some b => b
  | none => 0

/-- A range of memory set to zero. -/
def clearRange (a n : Nat) (L : Lane) : Lane :=
  { L with
    mem := L.mem.filter (fun c => !inRange c.1 a n)
    upsets := L.upsets.filter (fun u => !inRange u.1 a n) }

/-- The 64-byte header of a segment (R387). -/
def segHeader (L : Lane) (time fill : Nat) : List Byte :=
  natBytesLe 4 0x53474553 ++ natBytesLe 4 (segNo L) ++ natBytesLe 8 time ++ natBytesLe 4 L.ckpt.toNat ++ natBytesLe 4 fill ++
    [BitVec.ofNat 8 (laneNo L.id), if L.evr.brk then 1 else 0, 0, 0, 0, 0, 0, 0] ++ L.evr.prev

/-- Bytes a segment starts with while the seal that it carries is still to be signed: header words and 128 bytes (R387).
DEDUCED: log 94. -/
def sealSpace : Nat := 136

/-- The next segment opens, with room for a seal that is due (R386, R387). -/
def openSeg (time : Nat) (L : Lane) : Lane :=
  let b := freeBuf L
  let a := segBase L b
  let L1 := (writeBytes a (segHeader L time 0) (clearRange a 65536 L)).2
  withEvr (fun e => { e with isOpen := true, buf := b, fill := if e.sealDue.isSome then sealSpace else 0
                             hist := e.hist ++ [(segNo L, time)] }) L1

/-- The open segment can close: a buffer is left, and the seal that it carries is signed (R388). DEDUCED: log 94. -/
def canClose (L : Lane) : Bool := L.evr.isOpen && decide (L.evr.closed.length < 2) && L.evr.sealDue.isNone

/-- An open window whose end the closing segment holds closes: its last segment carries the seal (R390, R391). -/
def closeWindow (n : Nat) (L : Lane) : Lane :=
  let close (w : EvrWin) : EvrWin := if w.state = 1 then { w with state := 2, last := n + 1, sealNo := L.n F.EVR_SEALNO_SEALNO } else w
  let L1 := withEvr (fun e => { e with
    wins := e.wins.map close
    audit := e.audit ++ (e.wins.filter (fun w => decide (w.state = 1))).map close
    nextTrig := none }) L
  match L.evr.nextTrig with
  | some t => (winStart t L1).1
  | none => L1

/-- The open segment closes: FILL, its digest, the seal that is then due: forced of a kind, by a window that closes, or after 256
segments (R387, R390). A segment that cannot be read stays open (R492). DEDUCED: log 94. -/
def closeSeg (kind : Option Nat) (L : Lane) : Lane :=
  let a := segBase L L.evr.buf
  let n := segNo L
  let L1 := (writeBytes (a + 0x14) (natBytesLe 4 L.evr.fill) L).2
  let rd := readBytes a 65536 L1
  match rd.1 with
  | none => rd.2
  | some bs =>
  let dig := Config.sm3 bs
  let winEnds := (winOpen L).isSome && decide (L.evr.winEnd ≤ L.time)
  let k : Option Nat :=
    match kind with
    | some k => some k
    | none => if winEnds then some 1 else if 256 ≤ n + 1 - L.evr.groupFirst then some 0 else none
  let L2 := withEvr (fun e => { e with isOpen := false, closed := e.closed ++ [(e.buf, n)], prev := dig, brk := false, fill := 0 }) rd.2
  let L3 := showWait ((L2.putN F.EVR_SEGNO_SEGNO ((n + 1) % 4294967296)).putN F.EVR_STAT_BUFS L2.evr.closed.length)
  let L4 := if winEnds then closeWindow n L3 else L3
  match k with
  | some k => withEvr (fun e => { e with sealDue := some ⟨k, e.groupFirst, n, dig⟩, groupFirst := n + 1 }) L4
  | none => L4

/-- Space for `need` bytes in the open segment, where a segment can be opened for them (R386, R388). -/
def segSpace (need time : Nat) (L : Lane) : Bool × Lane :=
  if !evrBufOk L then (false, L)
  else
    let L1 := if L.evr.isOpen ∧ 65472 < L.evr.fill + need ∧ canClose L then closeSeg none L else L
    let L2 := if L1.evr.isOpen then L1 else openSeg time L1
    (decide (L2.evr.fill + need ≤ 65472), L2)

/-- The words of a record, written where it goes (R386). -/
def recordAt (typ : Nat) (pl : List Word) (ck : Word) (time off : Nat) (L : Lane) : Lane :=
  let w0 := at' 24 typ ||| at' 16 pl.length ||| at' 0 (ck.toNat % 65536)
  (writeWords (segBase L L.evr.buf + 64 + off) (w0 :: toW (time / 1000) :: pl) L).2

/-- A record is appended; none where it finds no space. -/
def appendRecord (typ : Nat) (pl : List Word) (ck : Word) (time : Nat) (L : Lane) : Option Lane × Lane :=
  let need := 8 + 4 * pl.length
  let r := segSpace need time L
  if r.1 then
    (some (withEvr (fun e => { e with fill := e.fill + need }) (recordAt typ pl ck time r.2.evr.fill r.2)), r.2)
  else (none, r.2)

/-- The LOSS record comes before the first record after events were lost (R384). -/
def placeLoss (ck : Word) (time : Nat) (L : Lane) : Lane :=
  if L.evr.lost = 0 then L
  else match (appendRecord 7 [toW L.evr.lost] ck time L).1 with
    | some L1 => withEvr (fun e => { e with lost := 0 }) L1
    | none => L

/-- A record is placed; one that finds no space is dropped, counted, and raises 0x0E9 (R385). The answer tells which.
DESIGN CHOICE: log 23. -/
def placeRecord (typ : Nat) (pl : List Word) (ck : Word) (time : Nat) (L : Lane) : Bool × Lane :=
  let r := appendRecord typ pl ck time (placeLoss ck time L)
  match r.1 with
  | some L1 => (true, L1)
  | none =>
    let L1 := if typ = 1 then r.2 else withEvr (fun e => { e with lost := min (e.lost + 1) 0xFFFFFFFF }) r.2
    (false, raise 0x0E9 (L1.inc F.EVR_ERR_DROP_CNT))

/-- The events that wait in the queue become records, oldest first (R385). -/
def drainGo : Nat → Lane → Lane
  | 0, L => L
  | k + 1, L =>
    match L.evr.q with
    | [] => L
    | e :: rest =>
      let L1 := (withEvr (fun x => { x with q := rest }) L).putN F.EVR_STAT_QLVL rest.length
      drainGo k (placeRecord e.typ [e.word] e.ck e.time L1).2
/-- DEDUCED: log 65. -/
def drain (L : Lane) : Lane := if evrRuns L then drainGo L.evr.q.length L else L

/-- A forced close that waits is made as soon as it can be; where no segment is open, an empty one opens and closes.
DEDUCED: log 94. -/
def forceClose (L : Lane) : Lane :=
  match L.evr.force with
  | none => L
  | some k =>
    if !(evrRuns L && evrBufOk L) then L
    else
      let L1 := if L.evr.isOpen then L else openSeg L.time L
      if canClose L1 then
        let L2 := closeSeg (some k) L1
        if L2.evr.isOpen then L2
        else
          let L3 := withEvr (fun e => { e with force := none }) L2
          match runningOp L3 4 0x04 with
          | some _ =>
            if k = 2 then withEvr (fun e => { e with waitSeal := some (segNo L3, L3.n F.EVR_SEALNO_SEALNO) }) L3 else L3
          | none => L3
      else L1

/-! The audit log and the window table (R376, R391, R455). -/

/-- A window record of 32 bytes; a free window has its number and STATE 0 (R391). -/
def winRecord (w : EvrWin) : List Byte :=
  natBytesLe 4 0x574E4957 ++ [BitVec.ofNat 8 w.win, BitVec.ofNat 8 w.trig, BitVec.ofNat 8 w.state, 0] ++ natBytesLe 4 w.first ++
    natBytesLe 4 w.last ++ natBytesLe 4 w.sealNo ++ natBytesLe 4 w.ckpt.toNat ++ natBytesLe 8 w.time

/-- One sector is appended at AUD_WP; where the log is full the append fails with 0x0EC (R376). The answer tells which.
DEDUCED: log 92. -/
def auditAppend (bs : List Byte) (ld : LD) : Bool × LD :=
  let wp := (stoOf ld.2 ld.1.id).audWp
  if 65536 ≤ wp then (false, onL (raise 0x0EC) ld)
  else (true, audAdvance 1 (ld.1, writeSecs 3 wp (bs ++ List.replicate (4096 - bs.length) 0) ld.1.id ld.2))

/-- Audit appends are possible: the link is up, the recorder runs, enough spare blocks are left (R368, R455). -/
def auditOk (ld : LD) : Bool := linkUp ld.1 ld.2 && ld.1.b F.EVR_STAT_RUN && decide (8 ≤ ld.2.spare)

/-- Records that wait for the audit log are appended. DEDUCED: log 65, 101. -/
def auditFlush (ld : LD) : LD :=
  if auditOk ld then
    let ws := ld.1.evr.audit
    let qs := ld.1.lcs.auditQ
    let ld1 := onL (fun L => { L with evr := { L.evr with audit := [] }, lcs := { L.lcs with auditQ := [] } }) ld
    let ld2 := ws.foldl (fun a w => (auditAppend (winRecord w) a).2) ld1
    qs.foldl (fun a q => (auditAppend q a).2) ld2
  else ld

/-- The STE's table holds the lane's windows (R391). -/
def winSync (ld : LD) : LD :=
  let L1 := ld.1.putN F.EVR_STAT_WIN (winHeld ld.1)
  if linkUp L1 ld.2 ∧ L1.b F.EVR_STAT_RUN then
    (L1, setStoOf ld.2 L1.id { stoOf ld.2 L1.id with wins := L1.evr.wins })
  else (L1, ld.2)

/-- The recorder's own work: events become records, a forced close is made, the audit log and the window table follow (R388).
DEDUCED: log 65. -/
def pump (ld : LD) : LD := winSync (auditFlush (onL (fun L => forceClose (drain L)) ld))

/-! Seals and programming (R387 to R389). -/

/-- Bytes 0x00 to 0x3F of a seal. -/
def sealBody (sd : SealDue) (L : Lane) : List Byte :=
  natBytesLe 4 0x4C414553 ++ natBytesLe 4 (L.n F.EVR_SEALNO_SEALNO) ++ natBytesLe 4 sd.first ++ natBytesLe 4 sd.last ++
    natBytesLe 8 L.time ++ [BitVec.ofNat 8 (laneNo L.id), BitVec.ofNat 8 sd.kind, 0, 0] ++ natBytesLe 4 L.ckpt.toNat ++ sd.hlast

/-- The words of a list of bytes. -/
def bytesWords (bs : List Byte) : Nat → List Word
  | 0 => []
  | n + 1 => leWord (bs.take 4) :: bytesWords (bs.drop 4) n

/-- A seal that is due is signed, or carries zeros where the CRU could not sign, and becomes the first record of segment
LAST + 1; PLIC source 77 (R387). DEDUCED: log 94. -/
def sealSign (ok : Bool) (ld : LD) : LD :=
  match ld.1.evr.sealDue with
  | none => ld
  | some sd =>
    if !evrBufOk ld.1 then ld else
    let L := if ld.1.evr.isOpen then ld.1 else openSeg ld.1.time ld.1
    let good := ok && L.otp.idKey
    let body := sealBody sd L
    let sig := if good then Config.sm2Sign (laneNo L.id) L.lcs.draws body else List.replicate 64 0
    let L1 := if good then { L with lcs := { L.lcs with draws := L.lcs.draws + 1 } } else L
    let L2 := recordAt 9 (bytesWords (body ++ sig) 32) L1.ckpt L1.time 0 L1
    let L3 := (writeBytes (segBase L2 L2.evr.buf + 8) (natBytesLe 8 L2.time) L2).2
    let L4 := plicRaise 77 (withEvr (fun e => { e with sealDue := none }) (L3.incMod F.EVR_SEALNO_SEALNO))
    let L5 := if good then L4 else raise 0x0EB L4
    let L6 := if L5.evr.endSeg ∧ L5.evr.closed.length < 2 then
        (let c := closeSeg none L5
         withEvr (fun e => { e with endSeg := e.isOpen }) c) else L5
    match good, L6.evr.waitSeal, runningOp L6 4 0x04 with
    | false, some _, some r =>
      pump (finish 4 r errEngine stFault 0x14 (withEvr (fun e => { e with waitSeal := none }) L6, ld.2))
    | _, _, _ => pump (L6, ld.2)
/-- A recorder capture on the engine of a role: it waits for what runs there, and the engine then goes on with its own work
(R134, R135, R388). -/
def asCapture (role : Nat) (f : LD → LD) (ld : LD) : LD :=
  if (getEng ld.1 role).run.isSome then ld else engineNext role (f ld)
def execSealSign (l : LaneId) (ok : Bool) (s : State) : Host.Outcome State Fault Refusal :=
  .next (onDie l (asCapture 2 (sealSign ok)) s)

/-- The next SEALNO and the open group after a segment, where it carries a seal (R387, R393). -/
def sealOf (bs : List Byte) : Option (Nat × Nat) :=
  if bitsOf (wAt bs 64) 24 8 = 9 then some (((wAt bs 76).toNat + 1) % 4294967296, (wAt bs 84).toNat + 1) else none

/-- A segment stands in the ring (R389). -/
def storeSeg (n place : Nat) (gone : Option Nat) (bs : List Byte) (l : LaneId) (d : StorageDie) : StorageDie :=
  let d1 := writeSecs 2 (16 * place) bs l d
  let x := stoOf d1 l
  let x1 := match gone with
    | some g => { x with segs := x.segs.filter (fun p => decide (p.1 ≠ g)), place := smErase x.place g }
    | none => x
  let x2 := { x1 with segs := x1.segs ++ [(n, (dAt bs 8).toNat)], place := smSet x1.place n place }
  setStoOf d1 l (match sealOf bs with
    | some q => { x2 with nextSeal := q.1, groupFirst := q.2 }
    | none => x2)

/-- The oldest closed segment is programmed; an EVR_SEAL that waits for it is done (R388, R392). One that cannot be read stays in
its buffer (R492). DEDUCED: log 94. -/
def segProgram (ld : LD) : LD :=
  match ld.1.evr.closed with
  | [] => ld
  | (b, n) :: rest =>
    if !linkUp ld.1 ld.2 ∨ ld.2.spare < 8 then ld
    else if ld.2.dieFault then onL (raise 0x0E7) ld
    else
      match ringPlace (stoOf ld.2 ld.1.id) ld.1.evr.wins with
      | none => ld
      | some (place, gone) =>
        let rd := readBytes (segBase ld.1 b) 65536 ld.1
        match rd.1 with
        | none => (rd.2, ld.2)
        | some bs =>
        let ld1 := wearStep (rd.2, storeSeg n place gone bs ld.1.id ld.2)
        let L1 := withEvr (fun e => { e with
          closed := rest
          hist := match gone with
            | some g => e.hist.filter (fun p => decide (p.1 ≠ g))
            | none => e.hist }) ld1.1
        let L2 := showWait (L1.putN F.EVR_STAT_BUFS rest.length)
        let ld2 : LD := (L2, ld1.2)
        match L2.evr.waitSeal, runningOp L2 4 0x04 with
        | some (sn, no), some r =>
          if sn = n then pump (finish 4 r 0 stDone (toW no) (withEvr (fun e => { e with waitSeal := none }) L2, ld1.2))
          else pump ld2
        | _, _ => pump ld2
def execSegmentProgram (l : LaneId) (s : State) : Host.Outcome State Fault Refusal := .next (onDie l (asCapture 1 segProgram) s)

/-! Checkpoint records and the tail (R384, R393, R394). -/

/-- The CHECKPOINT record of a release: every DIV + 1 checkpoints, COUNT words of the selected vector (R384, R385). -/
def checkpointRecord (L : Lane) : Lane :=
  let c := min (L.n F.EVR_CKSEL_COUNT) 64
  if L.b F.EVR_CTL_EN ∧ c ≠ 0 then
    if L.evr.div < L.n F.EVR_CKSEL_DIV then withEvr (fun e => { e with div := e.div + 1 }) L
    else
      let L1 := withEvr (fun e => { e with div := 0 }) L
      let drop (L : Lane) : Lane := raise 0x0E9 (L.inc F.EVR_ERR_DROP_CNT)
      if !L1.b F.EVR_STAT_RUN then drop L1
      else
        let a := (if L1.b F.EVR_CKSEL_SRC then votedOff L1 else agreedOff L1) + 4 * L1.n F.EVR_CKSEL_FIRST
        match readWords a c L1 with
        | (some ws, L2) => (placeRecord 1 ws L2.ckpt L2.time L2).2
        | (none, L2) => drop L2
  else L

/-- The digest of the tail segment; none where a sector of it is unreadable. -/
def tailDigest (x : StoLane) (n : Nat) : Option (List Byte) :=
  let place := smGet x.place n 0
  if (List.range 16).any (fun i => x.bad.contains (secKey 2 (16 * place + i))) then none
  else some (Config.sm3 ((List.range 65536).map (fun i => smGet x.data (byteKey 2 (65536 * place + i)) 0)))

/-- Triggers that waited for the tail act (R393). -/
def lateTriggers (L : Lane) : Lane :=
  L.evr.trigs.foldl (fun a t => (freezeTrigger t a).1) (withEvr (fun e => { e with trigs := [] }) L)

/-- The lane's tail is reported: the chain, the seals and the window table go on from it; a window that was open ends at the tail
segment. Recording starts with a POWER record (R393, R394). -/
def evrTail (ld : LD) : LD :=
  let L := ld.1
  if L.b F.EVR_CTL_EN ∧ ¬ L.b F.EVR_STAT_RUN ∧ linkUp L ld.2 then
    let x := stoOf ld.2 L.id
    let tail : Option Nat := x.segs.getLast?.map Prod.fst
    let dig : Option (List Byte) := match tail with
      | some n => tailDigest x n
      | none => some (List.replicate 32 0)
    let zero : List Byte := List.replicate 32 0
    let next := match tail with
      | some n => (n + 1) % 4294967296
      | none => 0
    let open1 := x.wins.any (fun w => decide (w.state = 1))
    let close (w : EvrWin) : EvrWin := if w.state = 1 then { w with state := 2, last := next, sealNo := x.nextSeal } else w
    let sd : Option SealDue := match tail with
      | some n => if open1 then some ⟨1, x.groupFirst, n, dig.getD zero⟩ else none
      | none => none
    let L1 := withEvr (fun e => { e with
      isOpen := false, fill := 0, closed := [], prev := dig.getD zero, brk := dig.isNone, sealDue := sd
      groupFirst := if sd.isSome then next else x.groupFirst
      wins := x.wins.map close
      audit := e.audit ++ (x.wins.filter (fun w => decide (w.state = 1))).map close
      nextTrig := none, force := none, endSeg := false, hist := x.segs }) L
    let L2 := ((L1.setB F.EVR_STAT_RUN true).putN F.EVR_SEGNO_SEGNO next).putN F.EVR_SEALNO_SEALNO x.nextSeal
    let L3 := showWait (L2.putN F.EVR_STAT_BUFS 0)
    let L4 := if dig.isNone then raise 0x0ED L3 else L3
    let pw := appendRecord 8 [L4.evr.power] L4.ckpt L4.time L4
    let L5 := match pw.1 with
      | some L5 => L5
      | none => raise 0x0E9 (pw.2.inc F.EVR_ERR_DROP_CNT)
    pump (lateTriggers L5, ld.2)
  else ld
def execEvrTail (l : LaneId) (s : State) : Host.Outcome State Fault Refusal := .next (onDie l evrTail s)

/-- A lane's storage link comes up; what waits for it follows (R373, R394, R455). -/
def storageLinkUp (ld : LD) : LD :=
  if ld.2.mounted ∧ ¬ linkUp ld.1 ld.2 then
    let d1 := { ld.2 with links := ld.2.links ||| laneBit ld.1.id }
    pump (steSync (showWait (steEvent 0 (ld.1.setB F.STE_STAT_LINK true)), d1))
  else ld
def execStorageLinkUp (l : LaneId) (s : State) : Host.Outcome State Fault Refusal := .next (onDie l storageLinkUp s)

/-- EN of EVR_CTL is written: with EN = 0 recording stops and what is not programmed is given up. -/
def evrEnable (en : Bool) (L : Lane) : Lane :=
  let L1 := L.setB F.EVR_CTL_EN en
  if en ∨ ¬ L.b F.EVR_CTL_EN then L1
  else
    withEvr (fun e => { e with isOpen := false, fill := 0, closed := [], sealDue := none, force := none, endSeg := false })
      ((L1.setB F.EVR_STAT_RUN false).putN F.EVR_STAT_BUFS 0)

/-- A POWER record beside the one that opens recording (R384). -/
def powerRecord (w : Word) (L : Lane) : Lane := if evrRuns L then (placeRecord 8 [w] L.ckpt L.time L).2 else L

/-- Step B of Dormant entry: a POWER record, the open segment closes with a forced seal of KIND 3, and the segment that carries the
seal closes with it (R394, R408). -/
def evrDormant (ld : LD) : LD :=
  if evrRuns ld.1 ∧ linkUp ld.1 ld.2 then
    pump (onL (fun L => withEvr (fun e => { e with force := some 3, endSeg := true }) (powerRecord 3 (drain L))) ld)
  else ld

/-- Step B is complete: nothing of it is left to do, or the link is down (R408). -/
def evrDormantDone (ld : LD) : Bool :=
  !(evrRuns ld.1 && linkUp ld.1 ld.2) ||
    (ld.1.evr.force.isNone && ld.1.evr.sealDue.isNone && !ld.1.evr.endSeg && decide (ld.1.evr.closed = []))

/-! EVR descriptors (R392). -/

/-- The checks of EVR descriptors at fetch (R392). DEDUCED: log 56. -/
def parmEvr (r : Run) : Option (Nat × Nat × Word) :=
  let bad : Option (Nat × Nat × Word) := some (errParam, stFault, 0)
  let a0 := r.d.w4
  let a1 := r.d.w5
  match r.d.opcode with
  | 0x02 => if a0 &&& 0xFFFF8000 ≠ 0 ∨ a1 ≠ 0 then bad else none
  | 0x03 => if a1 &&& 0xFFFFFF00 ≠ 0 ∨ a1 = 0 ∨ r.d.length ≠ a1.toNat * 65536 then bad else none
  | 0x06 => if 63 < a0.toNat ∨ a1 ≠ 0 then bad else none
  | _ => if a0 ≠ 0 ∨ a1 ≠ 0 then bad else none

/-- EVR_WRITE: a SOFTWARE record from SRC. Before recording runs it waits; a record without space is dropped, and the descriptor
ends with a fault whose DETAIL the spec does not give. DESIGN CHOICE: log 23. -/
def evrWrite (ld : LD) : LD :=
  match runningOp ld.1 4 0x01 with
  | none => ld
  | some r =>
    if !evrRuns ld.1 then ld
    else
      match iovaReadN 4 r.d.ctx r.d.src r.d.length ld with
      | (.error e, ld1) => finishErr 4 r e ld1
      | (.ok bs, ld1) =>
        let p := placeRecord 5 (bytesWords bs (r.d.length / 4)) ld1.1.ckpt ld1.1.time (drain ld1.1)
        if p.1 then pump (finish 4 { r with progress := r.d.length } 0 stDone 0 (p.2, ld1.2))
        else
          let f := p.2.freeW
          pump (finish 4 r errEngine stFault f.1 (f.2, ld1.2))
def execEvrWrite (l : LaneId) (s : State) : Host.Outcome State Fault Refusal := .next (onDie l evrWrite s)

/-- EVR_FREEZE: trigger code 3. -/
def evrFreeze (ld : LD) : LD :=
  match runningOp ld.1 4 0x02 with
  | none => ld
  | some r =>
    if !evrRuns ld.1 then ld
    else
      let t := freezeTrigger 3 ld.1
      match t.2 with
      | some k => pump (finish 4 r 0 stDone (toW k) (t.1, ld.2))
      | none => pump (finish 4 r errEngine stFault 0x12 (t.1, ld.2))
def execEvrFreeze (l : LaneId) (s : State) : Host.Outcome State Fault Refusal := .next (onDie l evrFreeze s)

/-- One segment of the running EVR_READ: the failures of R392, else it is copied. DEDUCED: log 93. -/
def evrReadSeg (r : Run) (ld : LD) : LD :=
  let n := (r.d.w4.toNat + r.progress / 65536) % 4294967296
  let x := stoOf ld.2 ld.1.id
  if !linkUp ld.1 ld.2 then finish 4 r errLink stFault 0 ld
  else if ld.2.dieFault then finish 4 r errEngine stFault 3 (onL (raise 0x0E7) ld)
  else
    match smFind x.place n with
    | none =>
      let past := x.segs.any (fun p => decide (n < p.1))
      finish 4 r errEngine stFault (if past then 0x10 else 0x11) ld
    | some place =>
      if (firstBad ld.2 ld.1.id 2 (16 * place) 16).isSome then finish 4 r errEngine stFault 1 ld
      else
        match iovaWrite 4 r.d.ctx (r.d.dst + r.progress) (readSecs ld.2 ld.1.id 2 (16 * place) 16) ld with
        | (.error e, ld1) => finishErr 4 r e ld1
        | (.ok _, ld1) =>
          let r1 := { r with progress := r.progress + 65536 }
          if r1.progress = r.d.length then finish 4 r1 0 stDone 0 ld1
          else
            let s := statusMid 4 r1 4 ld1
            onL (fun L => setEng 4 { getEng L 4 with run := some s.1 } L) s.2

/-- EVR_READ. -/
def evrRead (ld : LD) : LD :=
  match runningOp ld.1 4 0x03 with
  | some r => unitLoop evrReadSeg 4 r 256 ld
  | none => ld
def execEvrRead (l : LaneId) (s : State) : Host.Outcome State Fault Refusal := .next (onDie l evrRead s)

/-- EVR_SEAL closes the open segment and forces a seal of KIND 2; it ends when the seal record is programmed. -/
def evrSeal (ld : LD) : LD :=
  match runningOp ld.1 4 0x04 with
  | none => ld
  | some _ =>
    if evrRuns ld.1 ∧ ld.1.evr.waitSeal = none ∧ ld.1.evr.force = none then
      pump (onL (fun L => withEvr (fun e => { e with force := some 2 }) (drain L)) ld)
    else ld
def execEvrSeal (l : LaneId) (s : State) : Host.Outcome State Fault Refusal := .next (onDie l evrSeal s)

/-- The 64 window records. -/
def winList (L : Lane) : List Byte :=
  (List.range 64).flatMap (fun k =>
    match L.evr.wins.find? (fun w => decide (w.win = k)) with
    | some w => winRecord w
    | none => winRecord { (default : EvrWin) with win := k })

/-- EVR_WINLIST. -/
def evrWinlist (ld : LD) : LD :=
  match runningOp ld.1 4 0x05 with
  | none => ld
  | some r =>
    match iovaWrite 4 r.d.ctx r.d.dst (winList ld.1) ld with
    | (.error e, ld1) => finishErr 4 r e ld1
    | (.ok _, ld1) => finish 4 { r with progress := 2048 } 0 stDone 0 ld1
def execEvrWinlist (l : LaneId) (s : State) : Host.Outcome State Fault Refusal := .next (onDie l evrWinlist s)

/-- EVR_RELEASE frees a closed window; REJECTED outside Service hold, or for an open one. -/
def evrRelease (ld : LD) : LD :=
  match runningOp ld.1 4 0x06 with
  | none => ld
  | some r =>
    let k := r.d.w4.toNat
    if !inServiceHold ld.1 then finish 4 r 1 stRejected 0 ld
    else if ld.1.evr.wins.any (fun w => decide (w.win = k ∧ w.state = 1)) then finish 4 r 2 stRejected 0 ld
    else
      pump (finish 4 r 0 stDone 0
        (onL (withEvr (fun e => { e with wins := e.wins.filter (fun w => decide (w.win ≠ k)) })) ld))
def execEvrRelease (l : LaneId) (s : State) : Host.Outcome State Fault Refusal := .next (onDie l evrRelease s)

/-- EVR_ERR_CLR (R397). -/
def evrErrFlds : List Fld := [F.EVR_ERR_QLOSS_CNT, F.EVR_ERR_DROP_CNT, F.EVR_ERR_FRZREF_CNT]
def execEvrErrClr (l : LaneId) (val : Word) (s : State) : Host.Outcome State Fault Refusal :=
  .next (s.onLane l (whenLive (clearBy evrErrFlds val)))

end Sys2Proof.Machine
end

