-- ==== Sys2Proof/Machine/Bist.lean ====
section
/-! DEFINITION. Self-test: the start-up list, windows and elements, slices and passes, BIST descriptors; and Pepper's arming and
injectors (R417 to R434). -/

namespace Sys2Proof.Machine

/-- Elements, class and element time in ns of a test; none for a code that is no test of R417. -/
structure TestInfo where
  elems : Nat
  cls : Nat
  ns : Nat
deriving DecidableEq, Repr, Inhabited
def testInfo (t : Nat) : Option TestInfo :=
  match t with
  | 0x01 => some ⟨64, 0, 1200⟩
  | 0x02 => some ⟨32, 0, 400⟩
  | 0x03 => some ⟨4096, 1, 1000⟩
  | 0x04 => some ⟨2048, 1, 1000⟩
  | 0x05 => some ⟨2048, 1, 1000⟩
  | 0x06 => some ⟨16, 2, 800⟩
  | 0x07 => some ⟨256, 2, 1000⟩
  | 0x08 => some ⟨48, 3, 1400⟩
  | 0x09 => some ⟨48, 4, 1400⟩
  | 0x0A => some ⟨8, 5, 1000⟩
  | 0x0B => some ⟨66, 5, 1000⟩
  | 0x0C => some ⟨8, 6, 1000⟩
  | 0x0D => some ⟨66, 6, 1000⟩
  | 0x0E => some ⟨8, 7, 1000⟩
  | 0x0F => some ⟨8, 8, 1000⟩
  | 0x10 => some ⟨8, 9, 1000⟩
  | 0x11 => some ⟨8, 10, 500⟩
  | 0x12 => some ⟨32, 11, 1000⟩
  | 0x13 => some ⟨16, 12, 500⟩
  | 0x14 => some ⟨16, 13, 1500⟩
  | 0x15 => some ⟨64, 13, 1500⟩
  | 0x16 => some ⟨12, 14, 600⟩
  | 0x17 => some ⟨32768, 15, 1000⟩
  | 0x18 => some ⟨16384, 16, 1000⟩
  | _ => none
def testOf (t : Nat) : TestInfo := (testInfo t).getD default

/-- A test that a request can abort (R417, R426). -/
def testAborts (t : Nat) : Bool :=
  decide (t = 1 ∨ t = 2 ∨ t = 3 ∨ t = 4 ∨ t = 5 ∨ t = 7 ∨ t = 0x13 ∨ t = 0x14 ∨ t = 0x15 ∨ t = 0x16 ∨ t = 0x17 ∨ t = 0x18)

/-- The memory that a march test reads, 256 bytes for each element; and its size. -/
def testMem (t : Nat) : Option (Nat × Nat) :=
  match t with
  | 0x03 => some (pBase, 0x100000)
  | 0x04 => some (xBase, 0x80000)
  | 0x05 => some (yBase, 0x80000)
  | 0x07 => some (lpeBase, 0x10000)
  | 0x17 => some (sramBase, 0x800000)
  | 0x18 => some (netBase, 0x400000)
  | 0x20 => some (tlBase, 0x100000)
  | _ => none

def withBsc (f : BscSt → BscSt) (L : Lane) : Lane := { L with bsc := f L.bsc }

/-- An event of the BSC: PLIC 79 for bits 0 to 2, as enabled. -/
def bscEvent (bit : Nat) (L : Lane) : Lane :=
  eventBits F.BSC_EVSTAT_EV (L.fld F.BSC_EVEN_EV) (fun i => if i < 3 then some 79 else none) (toW (2 ^ bit)) L

/-- The plan: slices, their test, class and PASS_LIM (R421). -/
def nSlice (L : Lane) : Nat := L.n F.BSC_STAT_NSLICE
def sliceW (L : Lane) (r : Nat) : Word := wAt (secOf L 0x0F).bytes (8 * r)
def sliceTest (L : Lane) (r : Nat) : Nat := bitsOf (sliceW L r) 8 8
def sliceCls (L : Lane) (r : Nat) : Nat := bitsOf (sliceW L r) 0 5
def slicePass (L : Lane) (r : Nat) : Nat := bitsOf (sliceW L r) 24 8

/-- The slices of a class in record order, and the current one. -/
def slicesOf (L : Lane) (k : Nat) : List Nat := (List.range (nSlice L)).filter (fun r => decide (sliceCls L r = k))
def curSlice (L : Lane) (k : Nat) : Option Nat := (slicesOf L k).find? (fun r => L.b (F.BSC_SLICEr_CUR r))

/-- A fresh plan: every slice at element 0, the first of each class current (R423). -/
def bscFresh (L : Lane) : Lane :=
  let L1 := (List.range (nSlice L)).foldl (fun a r =>
    (((a.putN (F.BSC_SLICEr_NEXT r) 0).putN (F.BSC_SLICEr_ABORTS r) 0).setB (F.BSC_SLICEr_STARVED r) false).setB
      (F.BSC_SLICEr_CUR r) (decide ((slicesOf a (sliceCls a r)).head? = some r))) L
  withBsc (fun b => { b with age := [], late := [], done := [] }) L1

/-- What runs in the windows of a class: a BIST_RUN test, else its current slice. -/
inductive Subject where
  | demand (r : Run) (test : Nat)
  | slice (r : Nat) (test : Nat)
deriving DecidableEq, Repr
def subject (L : Lane) (k : Nat) : Option Subject :=
  let own : Option Subject := (curSlice L k).map (fun r => .slice r (sliceTest L r))
  match runningOp L 5 0x01 with
  | some r => if (testOf (bitsOf r.d.w4 8 8)).cls = k then some (.demand r (bitsOf r.d.w4 8 8)) else own
  | none => own
def Subject.test : Subject → Nat
  | .demand _ t => t
  | .slice _ t => t

/-- The window of a class, and its replacement. -/
def winOf (L : Lane) (k : Nat) : Option BistWin := smFind L.bsc.wins k
def putWin (k : Nat) (w : BistWin) (L : Lane) : Lane := withBsc (fun b => { b with wins := smSet b.wins k w }) L

/-- An element of the class runs: the window is open, not aborted, and the time left is enough (R423). -/
def elemRuns (L : Lane) (k : Nat) : Bool :=
  match winOf L k, subject L k with
  | some w, some s => !w.aborted && decide ((testOf s.test).ns + 500 ≤ w.left)
  | _, _ => false

/-- BUSY, CLASS and TEST of BSC_STAT; a pass that begins is timed from here (R425). -/
def bscShow (k : Nat) (L : Lane) : Lane :=
  if elemRuns L k then
    match subject L k with
    | some s =>
      let L1 := ((L.setB F.BSC_STAT_BUSY true).putN F.BSC_STAT_CLASS k).putN F.BSC_STAT_TEST s.test
      match s with
      | .slice r _ =>
        if (smFind L.bsc.age r).isNone then withBsc (fun b => { b with age := smSet b.age r 0 }) L1 else L1
      | .demand _ _ => L1
    | none => L
  else if L.n F.BSC_STAT_CLASS = k then L.setB F.BSC_STAT_BUSY false
  else L

/-- A starved run of a class is over: STARVED and the abort count of its slice clear (R427). -/
def endBurst (k r : Nat) (L : Lane) : Lane :=
  match winOf L k with
  | some w =>
    if 0 < w.burst then
      (putWin k { w with burst := 0 } L).setB (F.BSC_SLICEr_STARVED r) false |>.putN (F.BSC_SLICEr_ABORTS r) 0
    else L
  | none => L

/-- BIST_WIN opens a window; a window that went by without abort ends the run of aborted windows; a starved slice runs up to 18 us
without abort, which is over at once where no element fits the window (R423, R427). DEDUCED: log 96. -/
def bistWin (k len : Nat) (L : Lane) : Lane :=
  match subject L k with
  | none => L
  | some s =>
    let quietBefore : Bool := match winOf L k with
      | some w => !w.aborted
      | none => false
    let L1 := match s with
      | .slice r _ => if quietBefore && !L.b (F.BSC_SLICEr_STARVED r) then L.putN (F.BSC_SLICEr_ABORTS r) 0 else L
      | .demand _ _ => L
    let starved : Bool := match s with
      | .slice r _ => L1.b (F.BSC_SLICEr_STARVED r)
      | .demand _ _ => false
    let L2 := putWin k ⟨5 * len, if starved then 18000 else 0, false⟩ L1
    bscShow k (match s with
      | .slice r t => if 5 * len < (testOf t).ns + 500 then endBurst k r L2 else L2
      | .demand _ _ => L2)

/-- What the memories say of an element of a march: an uncorrectable error fails it (R424). DEDUCED: log 96. -/
def marchRead (t e : Nat) (L : Lane) : Bool × Lane :=
  match testMem t with
  | some m =>
    let r := readBytes (m.1 + 256 * e) 256 L
    (r.1.isSome, r.2)
  | none => (true, L)

/-- The sources of a failed test: 0x0F0, and 0x028 for the test of the CDSP's lockstep comparator (R417, R420, R424). -/
def bistFail (t : Nat) (L : Lane) : Lane :=
  let L1 := raise 0x0F0 L
  if t = 2 then raise 0x028 L1 else L1

/-- An element has failed (R424). -/
def elemFailed (t e : Nat) (L : Lane) : Lane :=
  let L1 := ((L.putN F.BSC_LAST_TEST t).putN F.BSC_LAST_CLASS (testOf t).cls).putN F.BSC_LAST_ELEMENT e
  let L2 := bistFail t (bscEvent 1 (L1.inc F.BSC_ERR_FAIL_CNT))
  if L2.n F.CLV_STAT_REINT_STATE = 1 then reintFail 0x06F L2 else L2

/-- A slice's pass is complete: the slice after it becomes current from element 0 (R423). DEDUCED: log 96. -/
def passDone (k r : Nat) (L : Lane) : Lane :=
  let xs := slicesOf L k
  let nxt := match (xs.dropWhile (fun x => decide (x ≠ r))).drop 1 with
    | x :: _ => x
    | [] => xs.head?.getD r
  let L1 := ((L.setB (F.BSC_SLICEr_CUR r) false).putN (F.BSC_SLICEr_NEXT r) 0).setB (F.BSC_SLICEr_CUR nxt) true
  let L2 := withBsc (fun b => { b with
    age := smErase b.age r, late := b.late.filter (fun x => decide (x ≠ r)), done := if b.done.contains r then b.done else insAsc r b.done })
    (L1.putN (F.BSC_SLICEr_NEXT nxt) 0)
  bscEvent 0 (L2.inc F.BSC_PASS_PASS)

/-- The window time of an element is used; a starved run ends when no further element fits in it or in the window (R423, R427).
DEDUCED: log 96. -/
def useTime (k : Nat) (s : Subject) (L : Lane) : Lane :=
  match winOf L k with
  | none => L
  | some w =>
    let ns := (testOf s.test).ns
    let b := w.burst - ns
    let w1 := { w with left := w.left - ns }
    match s with
    | .slice r _ => if b < ns ∨ w1.left < ns + 500 then endBurst k r (putWin k w1 L) else putWin k { w1 with burst := b } L
    | .demand _ _ => putWin k w1 L

/-- The next element of a slice. -/
def sliceNext (L : Lane) (r : Nat) : Nat := L.n (F.BSC_SLICEr_NEXT r)

/-- An element of a slice ends. -/
def sliceElem (k r t : Nat) (pass : Bool) (L : Lane) : Lane :=
  let e := sliceNext L r
  let m := marchRead t e L
  let L1 := useTime k (.slice r t) m.2
  if pass && m.1 then
    let L2 := L1.putN (F.BSC_SLICEr_NEXT r) (e + 1)
    bscShow k (if (testOf t).elems ≤ e + 1 then passDone k r (endBurst k r L2) else L2)
  else
    let L2 := (withBsc (fun b => { b with age := smErase b.age r, late := b.late.filter (fun x => decide (x ≠ r)) }) L1).putN
      (F.BSC_SLICEr_NEXT r) 0
    let L2b := endBurst k r L2
    let L3 := match winOf L2b k with
      | some w => putWin k { w with left := 0 } L2b
      | none => L2b
    bscShow k (elemFailed t e L3)

/-- DETAIL of a BIST failure (R429). -/
def bistDetail (e : Nat) : Word := at' 8 e ||| 0x20

/-- An element of the BIST_RUN test ends. -/
def demandElem (k : Nat) (r : Run) (t : Nat) (pass : Bool) (ld : LD) : LD :=
  let e := r.progress
  let m := marchRead t e ld.1
  let L1 := useTime k (.demand r t) m.2
  if pass && m.1 then
    let r1 := { r with progress := e + 1 }
    if (testOf t).elems ≤ e + 1 then onL (bscShow k) (finish 5 r1 0 stDone 0 (L1, ld.2))
    else (bscShow k (setEng 5 { getEng L1 5 with run := some r1 } L1), ld.2)
  else onL (bscShow k) (finish 5 r errEngine stFault (bistDetail e) (elemFailed t e L1, ld.2))

/-- A self-test element ends (R424). DEDUCED: log 96. -/
def elemComplete (k : Nat) (pass : Bool) (ld : LD) : LD :=
  if elemRuns ld.1 k then
    match subject ld.1 k with
    | some (.slice r t) => onL (sliceElem k r t pass) ld
    | some (.demand r t) => demandElem k r t pass ld
    | none => ld
  else ld
def execBistElementComplete (l : LaneId) (cls : Fin 32) (pass : Bool) (s : State) : Host.Outcome State Fault Refusal :=
  .next (onDie l (elemComplete cls.val pass) s)

/-- A request meets a running element: the element completes, the window is over for the slice (R426). DEDUCED: log 96. -/
def bistAbort (k : Nat) (ld : LD) : LD :=
  match winOf ld.1 k, subject ld.1 k with
  | some w, some s =>
    if elemRuns ld.1 k && testAborts s.test && decide (w.burst = 0) then
      let ld1 := elemComplete k true ld
      let L1 := match winOf ld1.1 k with
        | some w1 => putWin k { w1 with aborted := true } ld1.1
        | none => ld1.1
      let L2 := match s with
        | .slice r _ => L1.putN (F.BSC_SLICEr_ABORTS r) (min 8 (L1.n (F.BSC_SLICEr_ABORTS r) + 1))
        | .demand _ _ => L1
      (bscShow k (bscEvent 2 (L2.inc F.BSC_ERR_ABORT_CNT)), ld1.2)
    else ld
  | _, _ => ld
def execBistAbort (l : LaneId) (cls : Fin 32) (s : State) : Host.Outcome State Fault Refusal :=
  .next (onDie l (bistAbort cls.val) s)

/-- Eight aborted windows in a row starve a slice (R427). DEDUCED: log 96. -/
def bistStarved (r : Nat) (L : Lane) : Lane :=
  if r < nSlice L ∧ L.n (F.BSC_SLICEr_ABORTS r) = 8 ∧ ¬ L.b (F.BSC_SLICEr_STARVED r) then
    bscEvent 3 (plicRaise 80 (raise 0x0F1 ((L.setB (F.BSC_SLICEr_STARVED r) true).inc F.BSC_ERR_STARVE_CNT)))
  else L
def execBistStarved (l : LaneId) (r : Fin 256) (s : State) : Host.Outcome State Fault Refusal :=
  .next (s.onLane l (whenLive (bistStarved r.val)))

/-- Hyperperiod boundaries of the running passes (R425). -/
def bscHyper (L : Lane) : Lane := withBsc (fun b => { b with age := b.age.map (fun p => (p.1, p.2 + 1)) }) L

/-- A pass has exceeded PASS_LIM hyperperiods, once for each pass (R425). -/
def bistPassLate (r : Nat) (L : Lane) : Lane :=
  match smFind L.bsc.age r with
  | some n =>
    if slicePass L r ≠ 0 ∧ slicePass L r ≤ n ∧ ¬ L.bsc.late.contains r then
      raise 0x0F2 (withBsc (fun b => { b with late := r :: b.late }) (L.inc F.BSC_ERR_LATE_CNT))
    else L
  | none => L
def execBistPassLate (l : LaneId) (r : Fin 256) (s : State) : Host.Outcome State Fault Refusal :=
  .next (s.onLane l (whenLive (bistPassLate r.val)))

/-! BIST descriptors (R429). -/

/-- A test of R419 that runs at start-up only; 0x27 in Locked pairing. -/
def startupTest (L : Lane) (t : Nat) : Bool := decide (0x20 ≤ t ∧ t ≤ 0x28) && !(decide (t = 0x27) && L.b F.TLS_MS_CFG_PAIR)

/-- The test that a BIST descriptor names is checked at fetch. DEDUCED: log 56. -/
def parmBist (r : Run) (ld : LD) : Option (Nat × Nat × Word) :=
  let t := bitsOf r.d.w4 8 8
  match r.d.opcode with
  | 0x01 => if (testInfo t).isSome then none else some (errParam, stFault, 0)
  | 0x02 => if (testInfo t).isSome || startupTest ld.1 t then none else some (errParam, stFault, 0)
  | _ => none

/-- BIST_RUN: what is left of its pass runs in the windows of its class; `failed` is the element that fails. -/
def bistRun (failed : Option Nat) (ld : LD) : LD :=
  match runningOp ld.1 5 0x01 with
  | none => ld
  | some r =>
    let t := bitsOf r.d.w4 8 8
    let n := (testOf t).elems
    match failed with
    | some e =>
      if r.progress ≤ e ∧ e < n then finish 5 { r with progress := e } errEngine stFault (bistDetail e) (onL (elemFailed t e) ld)
      else ld
    | none => finish 5 { r with progress := n } 0 stDone 0 ld
def execBistRun (l : LaneId) (failed : Option (BitVec 16)) (s : State) : Host.Outcome State Fault Refusal :=
  .next (onDie l (bistRun (failed.map (·.toNat))) s)

/-- BIST_MFG: a test at once; DESTRUCTIVE memory tests, and the timeline memory's, leave zero. The number of elements of a
start-up-only test is not stated: a free value. DESIGN CHOICE: log 21. -/
def bistMfg (failed : Option Nat) (ld : LD) : LD :=
  match runningOp ld.1 5 0x02 with
  | none => ld
  | some r =>
    let L := ld.1
    let t := bitsOf r.d.w4 8 8
    if L.otp.lc ≠ 1 ∧ L.otp.lc ≠ 3 then finish 5 r 1 stRejected 0 ld
    else if ¬ (curMode L = mStartup ∧ (substate L = 6 ∨ substate L = 7)) then finish 5 r 2 stRejected 0 ld
    else
      let wipe := bitAt r.d.w4 16 || decide (t = 0x20)
      let L1 := match testMem t with
        | some m => if wipe then clearRange m.1 m.2 L else L
        | none => L
      match failed with
      | some e => finish 5 { r with progress := e } errEngine stFault (bistDetail e) (elemFailed t e L1, ld.2)
      | none =>
        match testInfo t with
        | some i => finish 5 { r with progress := i.elems } 0 stDone 0 (L1, ld.2)
        | none =>
          let f := L1.freeW
          finish 5 { r with progress := f.1.toNat } 0 stDone 0 (f.2, ld.2)
def execBistMfg (l : LaneId) (failed : Option (BitVec 16)) (s : State) : Host.Outcome State Fault Refusal :=
  .next (onDie l (bistMfg (failed.map (·.toNat))) s)

/-- The word of BSC_SLICEr. -/
def sliceWord (L : Lane) (r : Nat) : Word :=
  L.regWord [F.BSC_SLICEr_CUR r, F.BSC_SLICEr_STARVED r, F.BSC_SLICEr_ABORTS r, F.BSC_SLICEr_NEXT r]

/-- BIST_STATUS. -/
def bistStatus (ld : LD) : LD :=
  match runningOp ld.1 5 0x03 with
  | none => ld
  | some r =>
    match iovaWrite 5 r.d.ctx r.d.dst (wordsBytes ((List.range 256).map (sliceWord ld.1))) ld with
    | (.error e, ld1) => finishErr 5 r e ld1
    | (.ok _, ld1) => finish 5 { r with progress := 1024 } 0 stDone 0 ld1
def execBistStatus (l : LaneId) (s : State) : Host.Outcome State Fault Refusal := .next (onDie l bistStatus s)

def bscErrFlds : List Fld := [F.BSC_ERR_FAIL_CNT, F.BSC_ERR_ABORT_CNT, F.BSC_ERR_STARVE_CNT, F.BSC_ERR_LATE_CNT]
def execBscErrClr (l : LaneId) (val : Word) (s : State) : Host.Outcome State Fault Refusal :=
  .next (s.onLane l (whenLive (clearBy bscErrFlds val)))

/-! Pepper (R430, R431). -/

/-- The lifecycle condition of R430. -/
def pprAllowed (L : Lane) : Bool := decide (L.otp.lc = 1 ∨ L.otp.lc = 3) || (L.lcs.svc && inServiceHold L)

/-- A write of ARM. DESIGN CHOICE: log 34. -/
def pprArm (L : Lane) : Lane :=
  if pprAllowed L then
    let L1 := if L.b F.PPR_CTL_ARMED then L
      else
        let seed := BitVec.ofNat 16 (L.n F.PPR_SEED_SEED)
        { ((L.setB F.PPR_CTL_ARMED true).inc F.PPR_STAT_ARM_CNT) with
          ppr := { L.ppr with lfsr := if seed = 0 then 0xACE1 else seed } }
    plicRaise 81 (raise 0x0F3 L1)
  else raise 0x0F4 L
def execPprArm (l : LaneId) (s : State) : Host.Outcome State Fault Refusal := .next (s.onLane l (whenLive pprArm))

/-- Pepper disarms: every injector's EN clears (R430). -/
def pprDisarm (L : Lane) : Lane :=
  forEach (List.range 8) (fun i a => a.setB (F.PPR_INJi_CFG_EN i) false)
    { (L.setB F.PPR_CTL_ARMED false) with ppr := { L.ppr with events := List.replicate 8 0 } }
def execPprDisarm (l : LaneId) (s : State) : Host.Outcome State Fault Refusal := .next (s.onLane l (whenLive pprDisarm))

/-- The action codes of R111. -/
def actionCode (a : Nat) : Bool :=
  [0x00, 0x01, 0x02, 0x08, 0x10, 0x18, 0x20, 0x28, 0x30, 0x38, 0x39, 0x3A, 0x40, 0x41, 0x48, 0x50].contains a

/-- KIND and TARGET of an injector are in the table of R431. -/
def injOk (kind t : Nat) : Bool :=
  match kind with
  | 0x1 => xingId t
  | 0x2 => decide (t ≤ 9)
  | 0x3 => actionCode t
  | 0x4 => decide (t ≤ 1)
  | 0x5 => decide (t = 0)
  | 0x6 => decide (t ≤ 9)
  | 0x7 => xingId t
  | 0x8 => decide (t ≤ 1)
  | 0x9 => decide (t ≤ 63)
  | 0xA => decide (t = 0)
  | 0xB => decide (t ≤ 32)
  | _ => false

/-- A write to PPR_INJi_CFG; ignored while ARMED = 0. -/
def pprInjCfg (i : Nat) (val : Word) (L : Lane) : Lane :=
  if L.b F.PPR_CTL_ARMED then
    let kind := bitsOf val 24 4
    let t := bitsOf val 16 8
    let L1 := (((L.putN (F.PPR_INJi_CFG_MODE i) (bitsOf val 28 3)).putN (F.PPR_INJi_CFG_KIND i) kind).putN
      (F.PPR_INJi_CFG_TARGET i) t).putN (F.PPR_INJi_CFG_N i) (bitsOf val 0 16)
    { (L1.setB (F.PPR_INJi_CFG_EN i) (bitAt val 31 && injOk kind t)) with
      ppr := { L1.ppr with events := setNth L1.ppr.events i 0 } }
  else L
def execPprInjCfg (l : LaneId) (i : Fin 8) (val : Word) (s : State) : Host.Outcome State Fault Refusal :=
  .next (s.onLane l (whenLive (pprInjCfg i.val val)))

end Sys2Proof.Machine
end

