-- ==== Sys2Proof/Machine/Round.lean ====
section
/-! DEFINITION. Formation of the lane set, what first reaching substate 0x6 does, re-integration, and the release of the voted
vector (R101, R146, R159 to R161, R166, R167, R446, R447, R456, R491, R493). -/

namespace Sys2Proof.Machine

/-! Formation (R159 to R162, R412, R491). -/

/-- The peer's digest of link training equals the own (R102). -/
def ownDigest (L : Lane) : List Word := (List.range 8).map (fun n => L.fld (F.TLS_IMG_DGSTn_DGST n))
def digestOk (L : Lane) (link : Nat) : Bool := decide ((if link = 0 then L.clv.dig0 else L.clv.dig1) = ownDigest L)

/-- The FORM payload that a peer sent in the latest round. -/
def formHeld (L : Lane) (link : Nat) : Option Word :=
  if linkIsUp L link then (rxF L link).map (fun f => f.payload) else none

/-- A peer is ready: its FORM transfer is held, it is not in Hold, its digest equals the own (R159). DEDUCED: log 58. -/
def peerReady (L : Lane) (link : Nat) : Bool :=
  digestOk L link && (match formHeld L link with
    | some w => !bitAt w 6
    | none => false)

/-- The peers that are ready, as a set of lanes. -/
def readyPeers (L : Lane) : BitVec 3 :=
  [0, 1].foldl (fun m k => if peerReady L k then m ||| laneBit (linkPeer L.id k) else m) (0 : BitVec 3)

/-- The number of a lane's link to its next (0) and its previous lane (1) in the link mask: AB 0, BC 1, CA 2. -/
def linkNo (L : Lane) (link : Nat) : Nat := laneNo (if link = 0 then L.id else prevLane L.id)

/-- The FORM payload that this lane sends (R159). DEDUCED: log 58. -/
def formPayload (L : Lane) : Word :=
  let ready := readyPeers L ||| (if substate L = 7 then 0 else laneBit L.id)
  at' 0 ready.toNat ||| at' (3 + linkNo L 0) (b2n (linkIsUp L 0)) ||| at' (3 + linkNo L 1) (b2n (linkIsUp L 1)) |||
    at' 6 (b2n (decide (substate L = 7)))

/-- The lanes that are ready, as this lane and its ready peers see them. -/
def readyLanes (L : Lane) : BitVec 3 :=
  [0, 1].foldl (fun m k => if peerReady L k then
    (match formHeld L k with
     | some w => m ||| BitVec.ofNat 3 (bitsOf w 0 3)
     | none => m) else m) (readyPeers L ||| laneBit L.id)

/-- Link `x` is up: every end of it whose FORM payload is held reports it up. -/
def formLinkUp (L : Lane) (own : Word) (x : Nat) : Bool :=
  let ends : List Word := (if linkNo L 0 = x ∨ linkNo L 1 = x then [own] else []) ++
    [0, 1].filterMap (fun k =>
      let p := linkPeer L.id k
      if peerReady L k ∧ (laneNo p = x ∨ laneNo (prevLane p) = x) then formHeld L k else none)
  decide (ends ≠ []) && ends.all (fun w => bitAt w (3 + x))

/-- The set of lanes that may form in rejoin: members at entry, and sets that the DORMANT point allows (R412). -/
def setAllowed (L : Lane) (m : BitVec 3) : Bool :=
  match L.clv.rejoin with
  | none => true
  | some old => decide (m &&& ~~~ old = 0) && (curRec L).laneset.testBit (laneSetCode m)

/-- The first candidate whose lanes are all ready and whose links are all up; a triplex with one link down loses the lane named
second in it (R159, R162). 0 where there is none; duplexes count where `dup` holds. DEDUCED: log 58. -/
def pickSet (L : Lane) (own : Word) (dup : Bool) : BitVec 3 :=
  let up (x : Nat) : Bool := formLinkUp L own x
  let r := readyLanes L
  let ready : BitVec 3 := if r = 7 then
      (match (List.range 3).filter (fun x => !up x) with
       | [x] => r &&& ~~~ BitVec.ofNat 3 (2 ^ ((x + 1) % 3))
       | _ => r)
    else r
  let ok (m : BitVec 3) (ls : List Nat) : Bool := decide (m &&& ~~~ ready = 0) && ls.all up && setAllowed L m
  if ok 7 [0, 1, 2] then 7
  else if dup && ok 3 [0] then 3
  else if dup && ok 6 [1] then 6
  else if dup && ok 5 [2] then 5
  else 0

/-- A digest difference raises 0x072 once for each peer and link training (R159). -/
def digestCheck (link : Nat) (L : Lane) : Lane :=
  let said := if link = 0 then L.clv.digDiff0 else L.clv.digDiff1
  if (formHeld L link).isSome && !digestOk L link && !said then
    raise 0x072 (withClv (fun c => if link = 0 then { c with digDiff0 := true } else { c with digDiff1 := true }) L)
  else L

/-- A monotonic counter is raised: a higher value takes the next entry, a full list raises 0x0F9 (R447).
DEDUCED: log 58. -/
def counterRaised (cap : Nat) (xs : List Word) (v : Word) : Option (List Word) :=
  if (xs.getLast?.getD 0).toNat < v.toNat then (if xs.length < cap then some (xs ++ [v]) else none) else some xs
/-- DEDUCED: log 101. -/
def raiseFwCounter (v : Word) (L : Lane) : Lane :=
  match counterRaised 64 L.otp.fwCnt v with
  | some xs => { L with otp := { L.otp with fwCnt := xs } }
  | none => raise 0x0F9 L
def raiseImgCounter (v : Word) (L : Lane) : Lane :=
  match counterRaised 128 L.otp.imgCnt v with
  | some xs => { L with otp := { L.otp with imgCnt := xs } }
  | none => raise 0x0F9 L

/-- The first byte of a firmware slot (R97). -/
def fwSlotBase (n : Nat) : Nat := emramBase + 0x200000 * n

/-- The pending slots that run become active, and the counters are raised (R101, R446). DEDUCED: log 101. -/
def settleSlots (L : Lane) : Lane :=
  let h := bootHdr L
  let img := decide (h.imFlag ≠ 0 ∧ h.imPend.toNat % 2 = L.n F.TLS_IMG_STAT_ASLOT)
  let fw : Bool := match L.lcs.fwSlot with
    | some k => decide (h.fwFlag ≠ 0 ∧ h.fwPend.toNat % 2 = k)
    | none => false
  let L1 := if img || fw then
      bootWrite (fun b => { b with
        imAct := if img then b.imPend else b.imAct, imFlag := if img then 0 else b.imFlag
        fwAct := if fw then b.fwPend else b.fwAct, fwFlag := if fw then 0 else b.fwFlag }) L
    else L
  let L2 := if img then raiseImgCounter (L1.fld F.TLS_IMG_VER_VERSION) (L1.setB F.TLS_IMG_STAT_PENDING false) else L1
  if fw then raiseFwCounter (L2.fld F.LCS_FW_VER_VERSION) (L2.setB F.LCS_FW_STAT_PENDING false) else L2

/-- The lock bits of R456, in the order of its table. -/
def lockBits : List Fld :=
  [F.LMMU_CTL_LOCK, F.RING_CTL_LOCK, F.LSM_CTL_LOCK, F.CLK_CTL_LOCK, F.MEe_CTL_LOCK 0, F.MEe_CTL_LOCK 1, F.PWM_CTL_LOCK,
   F.VDU_CTL_LOCK, F.DEI_CTL_LOCK, F.CHP_CTL_LOCK, F.CGW_CTL_LOCK, F.EVR_CTL_LOCK, F.CRU_CTL_LOCK, F.LCS_CTL_LOCK]

/-- In PROVISIONED every lock bit that is still clear is set, each with 0x0FD (R456). DEDUCED: log 101. -/
def lockLate (L : Lane) : Lane :=
  if L.otp.lc = 2 then
    lockBits.foldl (fun a f => if a.b f then a else raise 0x0FD ((a.setB f true).inc F.LCS_ERR_LOCKLATE_CNT)) L
  else L

/-- The lane first reaches substate 0x6. -/
def reachFormed (L : Lane) : Lane := lockLate (settleSlots (setSubstate 6 L))

/-- What formation has kept is done with. -/
def formReset (c : ClvSt) : ClvSt :=
  { c with sentForm := none, rxF0 := none, rxF1 := none, pick := 7, pickRun := 0, heard := 0, heardVote := 0, formOver := false
           formAge := 0 }

/-- The lowest lane of a set. -/
def lowestLane (m : BitVec 3) : LaneId := if inSet m .a then .a else if inSet m .b then .b else .c

/-- The checkpoint number of a formed set: that of its lowest lane (R491). -/
def formNumber (m : BitVec 3) (L : Lane) : Lane :=
  let x := lowestLane m
  if x = L.id then L
  else match rxF L (linkOf L x) with
    | some f => L.put F.TLS_CKPT_NUM_CKPT (f.ckpt + 1)
    | none => L

/-- A lane set with this lane has formed (R159, R412). -/
def formed (m : BitVec 3) (L : Lane) : Lane :=
  let again := L.clv.rejoin.isSome
  let L1 := withClv (fun c => { formReset c with rejoin := none }) (setMembers m (formNumber m L))
  if again then vduEnable (claimsAtFormation L1) else vduEnable (claimsAtFormation (reachFormed L1))

/-- This lane joins a formed set late, as an excluded lane (R161). DEDUCED: log 59. -/
def joinLate (m : BitVec 3) (L : Lane) : Lane :=
  let again := L.clv.rejoin.isSome
  let L1 := ((setMembers (m &&& ~~~ laneBit L.id) L).setB F.CLV_STAT_EXCL true).setB F.TLS_MS_STAT_EXCL true
  let L2 := withClv (fun c => { formReset c with
    rejoin := none, lateFree := !L.pwr.everReset, tookNum := false, lateWait := true }) L1
  if again then L2 else reachFormed L2

/-- The lanes that this lane hears as members, where their digests equal the own (R161). -/
def heardSet (L : Lane) : BitVec 3 :=
  let m := if L.clv.heardVote ≠ 0 then L.clv.heardVote else L.clv.heard
  [0, 1].foldl (fun a k => if digestOk L k then a else a &&& ~~~ laneBit (linkPeer L.id k)) m

/-- A lane takes part in formation: in substate 0x5, or in rejoin before a set has formed. -/
def forming (L : Lane) : Bool :=
  decide (L.clv.members = 0) && (decide (substate L = 5) || L.clv.rejoin.isSome)

/-- A lane in rejoin whose set at entry was itself alone forms it at its first checkpoint (R412). -/
def simplexRejoin (L : Lane) : Bool := decide (L.clv.rejoin = some (laneBit L.id))

/-- Formation at a checkpoint: the round before is judged, then a set forms, the lane joins late, goes to Hold, or sends its FORM
transfers (R159 to R161). DEDUCED: log 58. -/
def formRound (L : Lane) : Lane :=
  if substate L = 7 then launch 1 1 (launch 0 1 L)
  else if !forming L then L
  else if simplexRejoin L then formed (laneBit L.id) L
  else
    let L0 := digestCheck 1 (digestCheck 0 L)
    let age := if L0.clv.formOver then L0.clv.formAge + 1 else 0
    let m : BitVec 3 := match L0.clv.sentForm with
      | some own => pickSet L0 own (decide (2 ≤ age))
      | none => 0
    let code := if m = 0 then 7 else laneSetCode m
    let run := if m = 0 then 0 else if code = L0.clv.pick then L0.clv.pickRun + 1 else 1
    let L1 := withClv (fun c => { c with pick := code, pickRun := run, formAge := age }) L0
    if 4 ≤ run then (if inSet m L1.id then formed m L1 else joinLate m L1)
    else if heardSet L1 ≠ 0 then joinLate (heardSet L1) L1
    else if 5 ≤ age ∧ L1.clv.rejoin = none then enterHold (withClv formReset L1)
    else
      let own := formPayload L1
      launch 1 1 (launch 0 1 (withClv (fun c => { c with sentForm := some own, rxF0 := none, rxF1 := none }) L1))

/-- FORM_WAIT ends (R160). -/
def execFormWaitExpiry (l : LaneId) (s : State) : Host.Outcome State Fault Refusal :=
  .next (s.onLane l (whenLive (fun L => if forming L then withClv (fun c => { c with formOver := true }) L else L)))

/-! Re-integration (R166, R167). -/

/-- Lanes of the set that this lane is not a member of: exactly the two others. -/
def othersAreSet (L : Lane) : Bool := decide (L.clv.members = 7 &&& ~~~ laneBit L.id)

/-- The point lets the set grow to the triplex (R166, R168). -/
def allowsTriplex (L : Lane) : Bool := (curRec L).laneset.testBit 0

/-- The conditions of R166. DEDUCED: log 59. -/
def reintOk (L : Lane) : Bool :=
  othersAreSet L && !L.clv.noReint && !L.clv.lateWait && decide (128 ≤ L.clv.quiet) && linkIsUp L 0 && linkIsUp L 1 &&
    pointValid L && allowsTriplex L && (!L.b F.CLV_STAT_REINT_USED || L.clv.lateFree)

/-- REINT_AUTO of the image (R148). -/
def reintAuto (L : Lane) : Bool := (agreeH L 0x1E).testBit 0

/-- An attempt starts, with a fresh pass of every slice (step 1 of R167, R423). DEDUCED: log 59. -/
def reintStart (L : Lane) : Lane :=
  bscFresh <|
  withClv (fun c => { c with reintAge := 0, reintReady := false })
    (((if L.clv.lateFree then L else L.setB F.CLV_STAT_REINT_USED true).putN F.CLV_STAT_REINT_STATE 1).setB F.CLV_CTL_REINT true)

/-- The catch-up set is installed where both copies are complete and equal (steps 3 and 4 of R167). -/
def installCatchup (L : Lane) : Lane :=
  let n := agreeH L 0x16
  let a := L.clv.rxC0
  let b := L.clv.rxC1
  if n = 0 ∨ (a.done ∧ b.done ∧ crcWords a.words = crcWords b.words) then
    let L1 := if n = 0 then L else (writeWords (xBase + (agreeW L 0x18).toNat) a.words L).2
    withClv (fun c => { c with reintAge := 0, reintReady := false, shadowLeft := roundsPerHp L }) (L1.putN F.CLV_STAT_REINT_STATE 3)
  else reintFail 0x070 L

/-- The lane is a member again: forcing ends, the lane is standby for every valve group (step 6 of R167, R236, R268). -/
def reintJoin (L : Lane) : Lane :=
  let L1 := (((setMembers 7 L).setB F.CLV_STAT_EXCL false).setB F.TLS_MS_STAT_EXCL false).putN F.CLV_STAT_REINT_STATE 0
  let L2 := withClv (fun c => { c with reintReady := false, reintAge := 0, lateFree := false, unsaid := false, barred := false })
    (L1.setB F.CLV_CTL_REINT false)
  let L3 := if L2.b F.LSM_STAT_IMM then L2
    else { ((L2.setB F.LPE_STAT_FORCED_OFF false).setB F.LSM_STAT_SAFE false) with lpe := { L2.lpe with mirSet := 0 } }
  vduEnable (forEach (List.range 4) (fun g a => a.putN (F.DEI_GRPg_STAT_STATE g) (standState a g)) (unforceEngines L3))

/-- Re-integration of an excluded lane at a checkpoint; `hp`: a hyperperiod boundary. The join waits for a boundary in a point that
allows the triplex; without both other lanes in the set the attempt fails (R168). DESIGN CHOICE: log 59. -/
def reintOwn (hp : Bool) (L : Lane) : Lane :=
  match L.n F.CLV_STAT_REINT_STATE with
  | 0 => if reintOk L && (L.b F.CLV_CTL_REINT || reintAuto L) then reintStart L else L
  | 1 =>
    let L1 := withClv (fun c => { c with reintAge := c.reintAge + 1 }) L
    if 4 * roundsPerHp L < L1.clv.reintAge then reintFail 0x06F L1 else L1
  | 2 =>
    let L1 := withClv (fun c => { c with reintAge := c.reintAge + 1 }) L
    if L1.clv.reintAge = 3 then installCatchup L1 else L1
  | _ =>
    if !othersAreSet L then reintFail 0x06F L
    else if hp && L.clv.reintReady && inSet L.clv.agreedReady L.id && allowsTriplex L then reintJoin L
    else L

/-- What a member does for the one lane outside the set: the catch-up set after REINT_READY, the triplex after it is shown again
(steps 3 and 6 of R167). DEDUCED: log 59. -/
def reintPeer (hp : Bool) (L : Lane) : Lane :=
  match (otherMembers L), [LaneId.a, LaneId.b, LaneId.c].find? (fun x => !inSet L.clv.members x) with
  | [_], some x =>
    let ready := inSet L.clv.agreedReady x
    match L.clv.peerStep with
    | 0 =>
      if ready then
        let q := readXfers (xBase + (agreeW L 0x18).toNat) (agreeH L 0x16) L
        withClv (fun c => { c with peerStep := 2, peerHp := 0 }) (launch (linkOf L x) q.2.1 q.2.2)
      else L
    | 2 => if ready then L else withClv (fun c => { c with peerStep := 3 }) L
    | _ =>
      let n := if hp then L.clv.peerHp + 1 else L.clv.peerHp
      if hp && ready && allowsTriplex L then
        plicRaise 51 (withClv (fun c => { c with peerStep := 0, peerHp := 0, peerImm := c.peerImm &&& ~~~ laneBit x })
          (setMembers 7 L))
      else if 3 < n then withClv (fun c => { c with peerStep := 0, peerHp := 0 }) L
      else withClv (fun c => { c with peerHp := n }) L
  | _, _ => withClv (fun c => { c with peerStep := 0, peerHp := 0 }) L

/-- Re-integration at a checkpoint. DEDUCED: log 59. -/
def reintRound (hp : Bool) (L : Lane) : Lane :=
  let L0 := withClv (fun c => { c with quiet := min 128 (c.quiet + 1) }) L
  if L0.clv.members = 0 then L0 else if voter L0 then reintPeer hp L0 else reintOwn hp L0

/-! The release of the voted vector (R146, R149, R493). -/

/-- A voted word goes to the destination that its record names. -/
def voteDeliver (j : Nat) (v : Word) (L : Lane) : Lane :=
  let d := voteDest L j
  match d.1 with
  | 1 => if d.2 < 8 then L.put (F.MEe_REFr_VALUE 0 d.2) v else L
  | 2 => if d.2 < 8 then L.put (F.MEe_REFr_VALUE 1 d.2) v else L
  | 3 => if d.2 < 64 then (writeW (slotSp d.2) v L).2 else L
  | 4 =>
    forEach (List.range 64) (fun s a =>
      let r := readWords (slotCfg s) 4 a
      match r.1 with
      | some ws => if (slotCfgOf ws).group = d.2 ∧ (slotCfgOf ws).spsrc = 0 then (writeW (slotSp s) v r.2).2 else r.2
      | none => r.2) L
  | _ => L

/-- The voted vector is written and forwarded, and CDSP source 0 raised; words without a voted value keep the previous one (R146,
R203). -/
def releaseVoted (L : Lane) : Lane :=
  if !L.clv.round || L.clv.released then L
  else
    let late := L.clv.late || !L.clv.voteDone
    let words : List Word := (List.range (nVote L)).map (fun i =>
      match (if L.clv.voteDone then nth L.clv.voted i none else none) with
      | some w => w
      | none => nth L.clv.lastVoted i 0)
    let L1 := if late then raise 0x06A (L.inc F.CLV_ERR_LATE_CNT) else L
    let L2 := withClv (fun c => { c with released := true, lastVoted := words }) (writeWords (votedOff L) words L1).2
    let L3 := (List.range (nVote L)).foldl (fun a j => voteDeliver j (nth words j 0) a) L2
    cdspIrq 0 (withNte (fun n => { n with rel := true, relSeen := [] }) L3)

/-- The release instant: the voted vector, the CHECKPOINT record, the time exchange of the cycle (R146, R336, R384). -/
def voteRel (L : Lane) : Lane :=
  if L.clv.round ∧ ¬ L.clv.released then
    let L1 := checkpointRecord (drain (releaseVoted L))
    timeSend (ntNow L1) L1
  else L
def execVoteRel (l : LaneId) (s : State) : Host.Outcome State Fault Refusal := .next (onDie l (fun ld => pump (onL voteRel ld)) s)

end Sys2Proof.Machine
end

