-- ==== Sys2Proof/Machine/Timeline.lean ====
section
/-! DEFINITION. The timeline sequencer: cycle starts (R103 to R105), the issue of entries and their actions (R106 to R111), the
checkpoint (R113, R114, R144, R177, R188), unreadable entries (R115), and step C of Dormant entry at its boundary (R408). The
commands of this file are issue instants: a row's command acts when the entry that the list holds next carries the row's action
code. -/

namespace Sys2Proof.Machine

/-- The timeline runs: started, not halted by a peer (R177), its island clocked, a point current. -/
def tlsRuns (L : Lane) : Bool := motRuns L && L.b F.TLS_STAT_RUN && !L.lsm.tlsHalt && pointValid L

/-- The position in the running list and the cycle. -/
def tlsCycle (L : Lane) : Nat := L.n F.TLS_STAT_CYCLE
/-- DEDUCED: log 39. -/
def setTlPos (i : Nat) (L : Lane) : Lane := withTls (fun t => { t with pos := i }) L

/-- The next entry of the running list that fires in this cycle, from entry `i` on, and its index; unreadable entries on the way
are dropped (R106, R115). Such an entry shows no CYCSEL, so each cycle reads, drops and raises it again. DEDUCED: log 39. -/
def nextEntry (bank c : Nat) : Nat → Nat → Lane → Option (Nat × TlEnt) × Lane
  | 0, _, L => (none, L)
  | fuel + 1, i, L =>
    match readD (entAddr bank i) L with
    | (none, L1) => nextEntry bank c fuel (i + 1) (entryLost L1)
    | (some w, L1) => if entFires (entOf w) c then (some (i, entOf w), L1) else nextEntry bank c fuel (i + 1) L1

/-- Issue of the next selected entry, which must carry action `code`; `act` is the action's effect with the entry's fields. The
position moves on first, and Pepper's TL_DELAY meets the action (R108, R431). DEDUCED: log 39. -/
def issueWith (code : Nat) (act : TlEnt → Lane → Lane) (L : Lane) : Lane :=
  if tlsRuns L then
    match nextEntry (curBank L) (tlsCycle L) (curEntries L - L.tls.pos) L.tls.pos L with
    | (some (i, e), L1) =>
      if e.action = code then
        act e (pepper 3 code (fun _ => true) (setTlPos (i + 1) (L1.putN F.TLS_OFFSET_OFFSET e.offset))).2
      else L
    | (none, _) => L
  else L

/-- The lane of a command with an entry issued in it. DEDUCED: log 39. -/
def issueOn (l : LaneId) (code : Nat) (act : TlEnt → Lane → Lane) (s : State) : State := s.onLane l (issueWith code act)

/-- The action meets its target busy with an earlier one of the same code (R110). -/
def targetBusy (L : Lane) : Lane := raise 0x07B (L.inc F.TLS_ERR_BUSY_CNT)

/-- An action that is dropped where its target is still busy (R110). -/
def orBusy (busy : Bool) (act : TlEnt → Lane → Lane) (e : TlEnt) (L : Lane) : Lane := if busy then targetBusy L else act e L

def execNop (l : LaneId) (s : State) : Host.Outcome State Fault Refusal := .next (issueOn l 0x00 (fun _ L => L) s)

/-- MID: the second segment begins (R107). -/
def midAct (_e : TlEnt) (L : Lane) : Lane := (L.setB F.TLS_OFFSET_SEG true).putN F.TLS_OFFSET_OFFSET 0
def execMid (l : LaneId) (s : State) : Host.Outcome State Fault Refusal := .next (issueOn l 0x01 midAct s)

/-- IRQ: PLIC source 41 + ARG. -/
def irqAct (e : TlEnt) (L : Lane) : Lane := plicRaise (41 + e.arg % 8) L
def execIrq (l : LaneId) (s : State) : Host.Outcome State Fault Refusal := .next (issueOn l 0x02 irqAct s)

/-- PWM_ALIGN on PWM TARGET (R282). -/
def pwmAlignAct (cnt count : Nat) (e : TlEnt) (L : Lane) : Lane := if e.target < 3 then pwmAlign e.target cnt count L else L
def execPwmAlign (i : Issue) (cnt : BitVec 16) (count : BitVec 18) (s : State) : Host.Outcome State Fault Refusal :=
  .next (issueOn i.lane 0x08 (orBusy i.busy (pwmAlignAct cnt.toNat count.toNat)) s)

/-- ADC_SEQ: sequence ARG on pair TARGET (R246). -/
def adcSeqAct (e : TlEnt) (L : Lane) : Lane :=
  if 2 ≤ e.target then L else if L.bit F.ADC_STAT_BUSY e.target then plicRaise 66 (targetBusy L) else adcStart e.target e.arg L
def execAdcSeq (l : LaneId) (s : State) : Host.Outcome State Fault Refusal := .next (issueOn l 0x10 adcSeqAct s)

/-- ME_STEP of engine TARGET (R250). -/
def meStepAct (busy : Bool) (e : TlEnt) (L : Lane) : Lane :=
  if 2 ≤ e.target then L else if busy then targetBusy L else meStep e.target L
def execMeStep (l : LaneId) (busy : Bool) (s : State) : Host.Outcome State Fault Refusal :=
  .next (issueOn l 0x18 (meStepAct busy) s)

/-- LPE_RUN of ARG slots from slot TARGET on (R226). -/
def lpeRunAct (busy : Bool) (e : TlEnt) (L : Lane) : Lane :=
  if busy then targetBusy L else lpeRun e.target (min e.arg (64 - e.target)) L
def execLpeRun (l : LaneId) (busy : Bool) (s : State) : Host.Outcome State Fault Refusal :=
  .next (issueOn l 0x20 (lpeRunAct busy) s)

/-- VDU_UPDATE of the channels of TARGET (R288). -/
def vduUpdateAct (busy : Bool) (e : TlEnt) (L : Lane) : Lane := if busy then targetBusy L else vduUpdate e.target L
def execVduUpdate (l : LaneId) (busy : Bool) (s : State) : Host.Outcome State Fault Refusal :=
  .next (issueOn l 0x28 (vduUpdateAct busy) s)

/-- CDSP_TASK with a budget of 10 x ARG cycles: task TARGET starts on an idle CDSP, waits for the end of a handler that runs from idle, else is dropped (R192,
R194). A stopped CDSP starts nothing (R208). -/
def cdspTaskAct (e : TlEnt) (L : Lane) : Lane :=
  match L.n F.CDSP_STAT_STATE with
  | 0 => taskStart e.target (10 * e.arg) L
  | 1 => targetBusy L
  | 2 =>
    if L.dsp.fromIdle ∧ L.dsp.heldTask = none then { L with dsp := { L.dsp with heldTask := some (e.target, 10 * e.arg) } } else targetBusy L
  | _ => L
def execCdspTask (l : LaneId) (s : State) : Host.Outcome State Fault Refusal := .next (issueOn l 0x30 cdspTaskAct s)

/-- The time of an entry in the cycle, in ns. -/
def entNs (L : Lane) (e : TlEnt) : Int := (L.n F.TLS_OFFSET_SEG : Int) * 1000000 + (5 * e.offset : Nat)

/-- NET_TX of record ARG (R321). -/
def netTxAct (e : TlEnt) (L : Lane) : Lane := netTx e.arg (entNs L e) L
def execNetTx (i : Issue) (s : State) : Host.Outcome State Fault Refusal :=
  .next (issueOn i.lane 0x38 (orBusy i.busy netTxAct) s)

/-- NET_RX of record ARG (R325). -/
def netRxAct (e : TlEnt) (L : Lane) : Lane := netRx e.arg L
def execNetRx (i : Issue) (s : State) : Host.Outcome State Fault Refusal :=
  .next (issueOn i.lane 0x39 (orBusy i.busy netRxAct) s)

/-- CAN_TX of mapping ARG on channel TARGET (R360). -/
def canTxAct (e : TlEnt) (L : Lane) : Lane := if e.target < 2 then canTx e.arg e.target L else L
def execCanTx (i : Issue) (s : State) : Host.Outcome State Fault Refusal :=
  .next (issueOn i.lane 0x3A (orBusy i.busy canTxAct) s)

/-- The stored word of the register at an address. DEDUCED: log 41. -/
def regAt (L : Lane) (a : Nat) : Word := L.regWord ((fldsAt a).getD [])

/-- The lane-sampled input of code `src`, none where the code is reserved (R490). DEDUCED: log 41. -/
def sampleSrc (L : Lane) (src : Nat) : Option Word :=
  let e := src / 4
  if src < 8 then
    some (match src % 4 with
      | 0 => regAt L (F.MEe_STAT_REGIME e).addr
      | 1 => L.fld (F.MEe_THETA_VALUE e)
      | 2 => L.fld (F.MEe_OMEGA_VALUE e)
      | _ => L.fld (F.MEe_IQ_VALUE e))
  else if src < 0xC then some (regAt L (F.DEI_GRPg_STAT_OWN (src - 8)).addr)
  else if src = 0xC then some (toW (gpioLevels L))
  else if src = 0xD then some (regAt L F.CHP_STAT_GATE.addr)
  else if 0x20 ≤ src ∧ src ≤ 0x40 then some (regAt L (F.ADC_RESn_CODE (src - 0x20)).addr)
  else none

/-- SAMPLE of input group TARGET: every valid entry of its record (R490). DEDUCED: log 41. -/
def sampleAct (e : TlEnt) (L : Lane) : Lane :=
  if e.target < 16 then
    (List.range 16).foldl (fun a k =>
      let w := agreeW L (32 + 8 * nIn L + 4 * nVote L + 64 * e.target + 4 * k)
      match sampleSrc L (bitsOf w 0 8) with
      | some v => if bitAt w 31 then (writeW (sampleOff L + 4 * bitsOf w 16 8) v a).2 else a
      | none => a) L
  else L
def execSample (i : Issue) (s : State) : Host.Outcome State Fault Refusal :=
  .next (issueOn i.lane 0x41 (orBusy i.busy sampleAct) s)

/-- BIST_WIN of class TARGET and length ARG (R423). -/
def bistWinAct (e : TlEnt) (L : Lane) : Lane := if e.target < 32 then Machine.bistWin e.target e.arg L else L
def execBistWin (i : Issue) (s : State) : Host.Outcome State Fault Refusal :=
  .next (issueOn i.lane 0x48 (orBusy i.busy bistWinAct) s)

/-- EVR_MARK: a MARK record, and a window trigger where ARG bit 15 is set and MARK is 1 (R384, R390). -/
def evrMarkAct (e : TlEnt) (L : Lane) : Lane :=
  let L1 := evrEvent 4 (toW e.arg) L
  if e.arg.testBit 15 && L1.b F.EVR_FRZCFG_MARK then (freezeTrigger 4 L1).1 else L1
def execEvrMark (l : LaneId) (s : State) : Host.Outcome State Fault Refusal :=
  .next (onDie l (fun ld => pump (onL (issueWith 0x50 evrMarkAct) ld)) s)

/-! Cycle starts (R103 to R105). -/

/-- The entries of the cycle in progress that have not issued, from entry `i` on; unreadable ones are lost (R105, R115).
DEDUCED: log 40. -/
def dueEntries (bank c : Nat) : Nat → Nat → Lane → Nat × Lane
  | 0, _, L => (0, L)
  | fuel + 1, i, L =>
    match readD (entAddr bank i) L with
    | (none, L1) => dueEntries bank c fuel (i + 1) (entryLost L1)
    | (some w, L1) =>
      let r := dueEntries bank c fuel (i + 1) L1
      (r.1 + b2n (entFires (entOf w) c), r.2)

/-- Cycle `c` starts: what is still due is dropped, source 0x079 unless this is the first locked start (R103, R105).
DEDUCED: log 38, 40. -/
def cycleTo (c : Nat) (first : Bool) (L : Lane) : Lane :=
  let d := dueEntries (curBank L) (tlsCycle L) (curEntries L - L.tls.pos) L.tls.pos L
  let L1 := if d.1 = 0 then d.2
    else
      let a := d.2.incBy F.TLS_ERR_CUT_CNT d.1
      if first then a else raise 0x079 a
  setTlPos 0 (((L1.putN F.TLS_STAT_CYCLE (c % 64)).setB F.TLS_OFFSET_SEG false).putN F.TLS_OFFSET_OFFSET 0)

/-- Before the lane keeps network time, its TIME transfers go out at the cycle starts of the TLS (R336). -/
def timeOwn (L : Lane) : Lane :=
  if keepsTime L then L
  else
    let L1 := setPeer 1 (fun p => { p with sent := false }) (setPeer 0 (fun p => { p with sent := false }) L)
    if L.clv.round then L1 else timeSend (ntNow L) L1

/-- A cycle starts in holdover: source 0x078, MISS_CNT (R104, R116). DEDUCED: log 40. -/
def holdoverStart (L : Lane) : Lane :=
  cycleTo (tlsCycle L + 1) false (raise 0x078 ((L.setB F.TLS_STAT_HOLDOVER true).inc F.TLS_ERR_MISS_CNT))

/-- A cycle starts on the TLS's own count: unlocked, or in holdover (R103, R104). DEDUCED: log 38. -/
def cycleStart (L : Lane) : Lane :=
  if tlsRuns L then
    if L.b F.TLS_STAT_LOCKED then (if L.b F.TLS_STAT_HOLDOVER then holdoverStart L else L)
    else timeOwn (cycleTo (tlsCycle L + 1) false L)
  else L
def execCycleStart (l : LaneId) (s : State) : Host.Outcome State Fault Refusal := .next (s.onLane l cycleStart)

/-- No event 1 us after the expected instant while locked: holdover begins (R104). DEDUCED: log 40. -/
def cycleMissing (L : Lane) : Lane :=
  if tlsRuns L && L.b F.TLS_STAT_LOCKED && !L.b F.TLS_STAT_HOLDOVER then holdoverStart L else L
def execCycleStartMissing (l : LaneId) (s : State) : Host.Outcome State Fault Refusal := .next (s.onLane l cycleMissing)

/-- An NTE cycle-start event `delta` ns after the expected instant (R103 to R105): the first locks; in holdover one outside 2 us is
counted and ignored, one at most 2 us late re-times the cycle that has started already. DEDUCED: log 40. -/
def cycleEvent (delta : Int) (L : Lane) : Lane :=
  if tlsRuns L && synced L then
    let c := frameCyc L
    if !L.b F.TLS_STAT_LOCKED then cycleTo c true (L.setB F.TLS_STAT_LOCKED true)
    else if L.b F.TLS_STAT_HOLDOVER then
      if delta < -2000 ∨ 2000 < delta then L.inc F.TLS_ERR_MISS_CNT
      else if 0 < delta then L.setB F.TLS_STAT_HOLDOVER false
      else cycleTo c false (L.setB F.TLS_STAT_HOLDOVER false)
    else if delta ≤ 1000 then cycleTo c false L
    else L
  else L
def execCycleStartEvent (l : LaneId) (delta : Int) (s : State) : Host.Outcome State Fault Refusal :=
  .next (s.onLane l (cycleEvent delta))

/-! The checkpoint. -/

/-- A peer's cross-lane halt request that HALT_IN_MASK admits is seen (R177); the own bit is ignored. A request that the mask does
not admit stays seen, for a mask that admits it later. DEDUCED: log 42. -/
def haltAsked (L : Lane) : Bool :=
  decide (L.lsm.haltSeen.toNat &&& L.n F.LSM_DBG_CTL_HALT_IN_MASK &&& (7 - 2 ^ laneNo L.id) ≠ 0)

/-- The cores, the CDSP and the TLS halt; the outputs go to their safe levels; source 0x074 (R177). DEDUCED: log 42. -/
def crossHalt (L : Lane) : Lane :=
  let L1 := { L with core0 := { L.core0 with halted := true }, core1 := { L.core1 with halted := true } }
  let L2 := if L1.b F.CDSP_STAT_HALTED then pwmHalt L1 else haltNow L1
  let L3 := lpeForceOff (forEach (List.range 4) giveUp (forceEngine 1 (forceEngine 0 L2)))
  raise 0x074 { (L3.setB F.LSM_DBG_CTL_HALTED_BY_PEER true) with lsm := { L3.lsm with tlsHalt := true } }

/-- Step C of Dormant entry: the timeline and the network stop, the links go idle (R408). DEDUCED: log 42. -/
def stopAll (ld : LD) : LD :=
  let stop (L : Lane) : Lane :=
    let L1 := ((L.setB F.TLS_STAT_RUN false).setB F.TLS_STAT_LOCKED false).setB F.TLS_STAT_HOLDOVER false
    let L2 := withClv (fun c => { c with round := false }) (nteStop L1)
    (L2.setB (F.LLK_LINKl_STAT_UP 0) false).setB (F.LLK_LINKl_STAT_UP 1) false
  mbLost (onL stop { ld with fst := { ld.1 with pwr := { ld.1.pwr with ap2Abandon := none } } })

/-- A lane that has gone through step C and abandons entry rejoins (R410). -/
def toRejoin (L : Lane) : Lane := { L with pwr := { L.pwr with phase := .waking } }

/-- Step C, and AP3 at its end; a lane that abandons there rejoins. DEDUCED: log 95. -/
def stepC (ld : LD) : LD :=
  onL (fun L => let L1 := dormPoint 3 4 L; if L1.pwr.dormStep = 0 then toRejoin L1 else L1) (stopAll ld)

/-- What a CKPT entry does to its lane: the counter steps, formation, the previous round settles, re-integration, the point switch,
the new round, the selection block (R113, R114, R144, R159, R167, R188). DEDUCED: log 35. -/
def ckptLane (e : TlEnt) (L : Lane) : Lane :=
  let hp := decide (tlsCycle L = 0 ∧ e.offset = 0) && !L.b F.TLS_OFFSET_SEG
  let L1 := ageReq (L.incMod F.TLS_CKPT_NUM_CKPT)
  let L2 := settleRound (formRound L1)
  let L3 := if hp then bscHyper L2 else L2
  let L4 := modeStep hp (reintRound hp L3)
  let L5 := selectionBlock (openRound L4)
  let L6 := if L5.pwr.dormStep = 0 then { L5 with pwr := { L5.pwr with wakePend := 0 } } else L5
  if L6.pwr.dormStep = 3 ∧ hp then dormPoint 2 4 L6 else L6

/-- Rings that may fetch again: every engine takes its next work (R410). -/
def enginesNext (ld : LD) : LD := [0, 1, 2, 3, 4, 5, 6, 7, 8].foldl (fun a r => engineNext r a) ld

/-- Work that is held back only for Dormant entry goes on once fetching restarts. -/
def afterFetch (was : Bool) (ld : LD) : LD := if was && !ld.1.ring.noFetch then enginesNext ld else ld

/-- A CKPT entry issues; SERVICE ends as step A of Dormant entry begins (R451). -/
def ckptAct (ld : LD) : LD :=
  let L := ld.1
  if tlsRuns L then
    match nextEntry (curBank L) (tlsCycle L) (curEntries L - L.tls.pos) L.tls.pos L with
    | (some (i, e), L1) =>
      if e.action = 0x40 then
        let L2 := (pepper 3 0x40 (fun _ => true) (setTlPos (i + 1) (L1.putN F.TLS_OFFSET_OFFSET e.offset))).2
        if haltAsked L2 then (crossHalt L2, ld.2)
        else
          let c0 := ckptLane e L2
          let c := if L2.pwr.dormStep = 0 ∧ c0.pwr.dormStep = 1 then svcEnded 3 c0 else c0
          let ld1 := afterFetch L.ring.noFetch (pump (flushReq (c, ld.2)))
          if L2.pwr.dormStep = 3 ∧ c.pwr.dormStep = 4 then stepC ld1 else ld1
      else ld
    | (none, _) => ld
  else ld
def execCkpt (l : LaneId) (s : State) : Host.Outcome State Fault Refusal := .next (onDie l ckptAct s)

end Sys2Proof.Machine
end

