-- ==== Sys2Proof/Machine/Dormant.lean ====
section
/-! DEFINITION. Dormant: its steps from AP0 on, wake events, wake, rejoin (R408 to R413), and the always-on island's own
commands (R407, R416). -/

namespace Sys2Proof.Machine

/-- An update of the power state. -/
def withPwr (f : PwrSt → PwrSt) (L : Lane) : Lane := { L with pwr := f L.pwr }

/-- A descriptor that still runs at the end of step A is ended as by ABORT (R140, R408). -/
def endRun (role : Nat) (ld : LD) : LD :=
  match (getEng ld.1 role).run with
  | some r =>
    endStatus (ringRole ld.1 r.ring) { r with abort := true } 1 stAborted 0
      (onL (fun L => setEng role { getEng L role with run := none } L) ld)
  | none => ld

/-- CAN_RECV descriptors that wait end the same way. -/
def endRecv (ld : LD) : LD :=
  ld.1.ring.recv.foldl (fun a r => endStatus 8 { r with abort := true } 1 stAborted 0 a)
    (onL (fun L => { L with ring := { L.ring with recv := [] } }) ld)

/-- The end of step A: what still runs ends, AP1, and step B begins (R408). DEDUCED: log 95. -/
def dormantA (ld : LD) : LD :=
  if ld.1.pwr.dormStep = 1 then
    let clear (L : Lane) : Lane :=
      { (withTls (fun t => { t with reqWord := none, reqStage := 0, reqAge := 0, reqEnd := none }) L) with
        evr := { L.evr with waitSeal := none } }
    let ld1 := endRecv ([0, 1, 2, 3, 4, 5, 6, 7, 8].foldl (fun a r => endRun r a) (onL clear ld))
    let ld2 := onL (dormPoint 1 2) ld1
    if ld2.1.pwr.dormStep = 2 then evrDormant ld2 else enginesNext ld2
  else ld
def execDormantStepA (l : LaneId) (s : State) : Host.Outcome State Fault Refusal := .next (onDie l dormantA s)

/-- The end of step B: the seal and the closed segments are programmed, or the link is down (R408). The lane waits for the next
hyperperiod boundary, AP2. DEDUCED: log 95. -/
def dormantB (ld : LD) : LD :=
  if ld.1.pwr.dormStep = 2 ∧ evrDormantDone ld then onL (withPwr (fun p => { p with dormStep := 3 })) ld else ld
def execDormantStepB (l : LaneId) (s : State) : Host.Outcome State Fault Refusal := .next (onDie l dormantB s)

/-- The domains 1 to 6 that are ON, as a set. -/
def upperOn (L : Lane) : BitVec 7 := BitVec.ofNat 7 (L.n F.AOS_STAT_ON) &&& 0x7E

/-- The PLL and the crystal stop; they start anew at a wake. -/
def clocksStop (L : Lane) : Lane :=
  withPwr (fun p => { p with xtal := none, pll := none, pllTry := 0 })
    (((L.setB F.CLK_STAT_XTAL_OK false).setB F.CLK_STAT_PLL_LOCK false).setB F.CLK_STAT_ON_PLL false)

/-- The ADCs stop, and with them the chopper (R408). -/
def adcsStop (L : Lane) : Lane :=
  { ((L.putN F.ADC_STAT_BUSY 0).setB F.CHP_STAT_GATE false) with
    adc := List.replicate 2 default, out := { L.out with chpV := none, chpRise := 0 } }

/-- Step D: domains 1 to 6 go to retention, AP4 (R408). A lane that abandons there rejoins. DEDUCED: log 95. -/
def dormantD (L : Lane) : Lane :=
  if L.pwr.dormStep = 4 then
    let up := upperOn L
    let L1 := withPwr (fun p => { p with retained := p.retained ||| up, waking := p.waking &&& ~~~ up })
      (L.putN F.AOS_STAT_ON (L.n F.AOS_STAT_ON % 2))
    let L2 := dormPoint 4 5 (clocksStop (adcsStop L1))
    if L2.pwr.dormStep = 0 then toRejoin L2 else L2
  else L
def execDormantStepD (l : LaneId) (s : State) : Host.Outcome State Fault Refusal :=
  .next (onDie l (fun ld => afterFetch ld.1.ring.noFetch (onL dormantD ld)) s)

/-- The lane wakes: domain 0 is raised, the crystal starts, AOS_WAKE_TIME is taken (R411). -/
def wake (L : Lane) : Lane :=
  withPwr (fun p => { p with phase := .waking, waking := p.waking ||| 1 })
    (L.put F.AOS_WAKE_TIME_TIME (L.fld F.AOS_TMR_TMR))

/-- Step E: the cores stop, domain 0 goes to retention, the lane is in Dormant; a wake event that came meanwhile wakes it at once
(R408, R410). The members at entry are kept for rejoin (R412). DEDUCED: log 95. -/
def dormantE (L : Lane) : Lane :=
  if L.pwr.dormStep = 5 then
    let keep (c : ClvSt) : ClvSt := if inSet c.members L.id then { c with rejoin := some c.members } else c
    let L1 := withClv keep (withPwr (fun p => { p with phase := .dormant, dormStep := 0, retained := p.retained ||| 1 })
      ((L.setBit F.AOS_STAT_ON 0 false).setB F.AOS_DORM_ENTRY false))
    if L1.pwr.wakePend ≠ 0 then wake L1 else L1
  else L
def execDormantStepE (l : LaneId) (s : State) : Host.Outcome State Fault Refusal := .next (s.onLane l (whenLive dormantE))

/-- A wake source is enabled: 1 to 5 by AOS_WAKE_EN, LINK always, SW during entry (R413). -/
def wakeEnabled (src : Nat) (L : Lane) : Bool :=
  match src with
  | 1 => L.b F.AOS_WAKE_EN_WAKE0_EN
  | 2 => L.b F.AOS_WAKE_EN_WAKE1_EN
  | 3 => L.b F.AOS_WAKE_EN_CAN0
  | 4 => L.b F.AOS_WAKE_EN_CAN1
  | 5 => L.b F.AOS_WAKE_EN_TIMER
  | 6 => true
  | 7 => decide (L.pwr.dormStep ≠ 0)
  | _ => false

/-- A wake source fires: it waits for the next abort point, or wakes a lane that is in Dormant (R410, R411).
DEDUCED: log 95. -/
def wakeEvent (src : Nat) (L : Lane) : Lane :=
  if wakeEnabled src L then
    let note (L : Lane) : Lane := withPwr (fun p => { p with wakePend := p.wakePend ||| BitVec.ofNat 8 (2 ^ src) }) L
    match L.pwr.phase with
    | .run => note L
    | .dormant => wake (note L)
    | _ => L
  else L
def execWakeEvent (l : LaneId) (src : Fin 8) (s : State) : Host.Outcome State Fault Refusal :=
  .next (s.onLane l (wakeEvent src.val))

/-- Step 2 of the wake: the cores go on, AOS_WAKE_LAST shows the source, PLIC source 1; rings fetch again and the recorder notes the
wake (R384, R411). -/
def wokenCore (ld : LD) : LD :=
  let L := ld.1
  let src := ((List.range 8).find? (fun k => L.pwr.wakePend.getLsbD k)).getD 0
  let L1 := ((L.setB F.AOS_WAKE_LAST_DORMANT true).putN F.AOS_WAKE_LAST_AP 0).putN F.AOS_WAKE_LAST_SRC src
  let L2 := powerRecord (at' 0 2 ||| at' 8 src) (plicRaise 1 (withPwr (fun p => { p with wakePend := 0 }) L1))
  enginesNext (pump ({ L2 with ring := { L2.ring with noFetch := false } }, ld.2))

/-- Rejoin: the lane trains its links, starts its network, starts its timeline unlocked from cycle 0 of its bank, and forms again
(R411, R412). A lane that was excluded at entry stays so. DSP, MOT and NET are raised. DEDUCED: log 95. -/
def rejoin (L : Lane) : Lane :=
  if L.pwr.phase = .waking ∧ L.bit F.AOS_STAT_ON 0 ∧ L.pwr.pll = some true then
    let L1 := withPwr (fun p => { p with phase := .run, waking := p.waking ||| (p.retained &&& 0x0E) }) L
    let L2 := (((((L1.setB F.TLS_STAT_RUN true).setB F.TLS_STAT_LOCKED false).setB F.TLS_STAT_HOLDOVER false).putN
      F.TLS_STAT_CYCLE 0).setB F.TLS_OFFSET_SEG false).putN F.TLS_OFFSET_OFFSET 0
    let old : Option (BitVec 3) := if inSet L.clv.members L.id then some L.clv.members else L.clv.rejoin
    let L3 := withClv (fun c => { c with
      rejoin := old, pick := 7, pickRun := 0, formOver := false, formAge := 0, sentForm := none, rxF0 := none, rxF1 := none
      heard := 0, heardVote := 0, quiet0 := 0, quiet1 := 0, train0 := 0, train1 := 0, dig0 := [], dig1 := []
      digDiff0 := false, digDiff1 := false, gaveUp0 := false, gaveUp1 := false }) (setTlPos 0 L2)
    nteStart (if inSet L.clv.members L.id then setMembers 0 L3 else L3)
  else L
def execRejoin (l : LaneId) (s : State) : Host.Outcome State Fault Refusal := .next (s.onLane l (whenLive rejoin))

/-- A write to AOS_DOM_REQ at its register: the retained domains named are raised, bit 7 is wake source SW (R407, R413).
DEDUCED: log 28. -/
def aosDomReq (val : Word) (L : Lane) : Lane :=
  let L1 := withPwr (fun p => { p with
    waking := p.waking ||| (val.setWidth 7 &&& p.retained &&& ~~~ BitVec.ofNat 7 (L.n F.AOS_STAT_FAIL)) }) L
  if bitAt val 7 then wakeEvent 7 L1 else L1
def execAosDomReq (l : LaneId) (val : Word) (s : State) : Host.Outcome State Fault Refusal :=
  .next (s.onLane l (whenLive (aosDomReq val)))

def aosErrFlds : List Fld :=
  [F.AOS_ERR_DOMRETRY_CNT, F.AOS_ERR_PLLRETRY_CNT, F.AOS_ERR_ABANDON_CNT, F.AOS_ERR_SUPWARN_CNT]
def execAosErrClr (l : LaneId) (val : Word) (s : State) : Host.Outcome State Fault Refusal :=
  .next (s.onLane l (whenLive (clearBy aosErrFlds val)))

/-- A member's links go idle within 10 us after this lane abandoned entry at AP2: it carries out step C and goes on as after AP3
(R410). DEDUCED: log 95. -/
def linkIdle (ld : LD) : LD :=
  match ld.1.pwr.ap2Abandon with
  | some t => if ld.1.time ≤ t + 10000 then onL toRejoin (stopAll ld) else ld
  | none => ld
def execLinkIdle (l : LaneId) (s : State) : Host.Outcome State Fault Refusal := .next (onDie l linkIdle s)

end Sys2Proof.Machine
end

