-- ==== Sys2Proof/Machine/Prog.lean ====
section
/-! DEFINITION. The program checks of the CDSP at load (R195 to R200, R205, R210 to R216): the path from an entry followed
instruction by instruction, with its cycle count, stale reads and simultaneous writes. A loop or repeat is followed for four
iterations; from the third on the pipeline meets each iteration alike, so that the rest cost what the fourth does. -/

namespace Sys2Proof.Machine

/-- What a path is followed under: the P image, task or handler code, the SHADOW policy, circular addressing. -/
structure ProgCtx where
  code : Array Word64
  task : Bool
  shadow : Bool
  circ : Bool
deriving Repr, Inhabited

/-- An open loop: its body, iterations still to come after this one, iterations followed, the cycle count at the start of this one,
and the call depth at which it was opened. -/
structure ProgLoop where
  first : Nat
  last : Nat
  more : Nat
  seen : Nat
  start : Nat
  depth : Nat
deriving DecidableEq, Repr, Inhabited

/-- A point on the path: cycles counted; cycles followed; loops, innermost first; return indices; results in flight as view,
register and cycle of visibility (as in `DspWr`); a transfer whose delay slots are still to come as their number, whether it ends
the path, and its target; the repeat cache. -/
structure ProgPos where
  pc : Nat
  cyc : Nat
  t : Nat
  loops : List ProgLoop
  stack : List Nat
  fly : List (Nat × Nat × Nat)
  redir : Option (Nat × Bool × Nat)
  cache : Option (Nat × Nat × Bool)
deriving DecidableEq, Repr, Inhabited

/-- A move that does nothing (R212). -/
def moveIdle (m : Move) : Bool := decide (m.kind = .none ∧ m.upd = 0)

/-- What a move reads through views that lag (R195, R201). DEDUCED: log 47. -/
def moveReads (circ : Bool) (m : Move) : List (Nat × Nat) :=
  let n := m.ptr.toNat
  let r := m.reg.toNat
  (if moveIdle m then [] else [(1, n)]) ++ (if m.upd = 3 ∨ m.upd = 4 then [(2, n)] else []) ++
    (if circ && decide (m.upd ≠ 0) then [(3, n), (4, n)] else []) ++
    (match m.kind with
     | .st => [(0, r)]
     | .stp => [(0, r), (0, r + 1)]
     | .sta => [(5, r)]
     | _ => [])

/-- What a move writes: view, register, issues until it is seen. -/
def moveWrites (m : Move) : List (Nat × Nat × Nat) :=
  let r := m.reg.toNat
  (match m.kind with
   | .ld => [(0, r, 2)]
   | .ldp => [(0, r, 2), (0, r + 1, 2)]
   | .ldc => [(0, r, 2)]
   | _ => []) ++ (if m.upd = 0 then [] else [(1, m.ptr.toNat, 1)])

/-- Registers that LDI and MOV write, as `dstReg` does. -/
def dstWrites (n : Nat) : List (Nat × Nat × Nat) :=
  if n < 0x10 then [(0, n, 1)] else if n < 0x14 then [(5, n - 0x10, 1)] else if n < 0x20 then [(1, n - 0x18, 2)]
  else if n < 0x28 then [(3, n - 0x20, 2)] else if n < 0x30 then [(4, n - 0x28, 2)] else if n < 0x38 then [(2, n - 0x30, 2)]
  else []

/-- Accumulators that a multiplying operation sets. -/
def macAccs (mpair : Nat) : List Nat := if mpair = 1 then [2, 3] else if mpair = 2 then [0, 1, 2, 3] else [0, 1]

/-- What the checks need of an instruction: legal beyond its format, its moves, its reads and its writes. -/
structure ProgInfo where
  ok : Bool
  x : Move
  y : Move
  reads : List (Nat × Nat)
  writes : List (Nat × Nat × Nat)
deriving DecidableEq, Repr, Inhabited

/-- An instruction without moves. -/
def infoAlu (ok : Bool) (reads : List (Nat × Nat)) (writes : List (Nat × Nat × Nat)) : ProgInfo :=
  ⟨ok, default, default, reads, writes⟩
/-- An ALU operation of D registers. -/
def infoD (rd : BitVec 4) (rs : List (BitVec 4)) (ok : Bool) : ProgInfo :=
  infoAlu ok (rs.map (fun r => (0, r.toNat))) [(0, rd.toNat, 1)]
/-- A parallel instruction. DEDUCED: log 47. -/
def infoPar (ok : Bool) (x y : Move) (rs : List (BitVec 4)) (accs : List Nat) : ProgInfo :=
  ⟨ok && moveOk true x && moveOk false y && (moveIdle x || moveIdle y || decide (x.ptr ≠ y.ptr)), x, y,
   rs.map (fun r => (0, r.toNat)), accs.map (fun a => (5, a, 3))⟩
def infoMac (m : MacArgs) : ProgInfo := infoPar true m.x m.y [m.mra, m.mrb, m.mrc, m.mrd] (macAccs m.mpair.toNat)

/-- Rules 1, 5 and 6 of R216 of one instruction, and what it reads and writes. -/
def progInfo (i : Instr) : ProgInfo :=
  match i with
  | .macPairNop _ x y => infoPar true x y [] []
  | .mpy _ m => infoMac m
  | .mac _ m => infoMac m
  | .msu _ m => infoMac m
  | .macsu _ m => infoMac m
  | .clr _ mp x y => infoPar true x y [] (pairAccs mp.toNat)
  | .asr _ mp _ x y => infoPar true x y [] (pairAccs mp.toNat)
  | .asl _ mp _ x y => infoPar true x y [] (pairAccs mp.toNat)
  | .lda _ mp a c x y => infoPar (decide (mp.toNat < 2)) x y [a, c] (pairAccs mp.toNat)
  | .ldi _ rd imm =>
    infoAlu (dstOk rd.toNat && !(decide ((0x18 ≤ rd.toNat ∧ rd.toNat < 0x30) ∧ bitsOf imm 18 14 ≠ 0))) [] (dstWrites rd.toNat)
  | .mov _ rd ra =>
    let a := ra.toNat
    infoAlu (dstOk rd.toNat && srcOk a) (if a < 0x10 then [(0, a)] else if a < 0x14 then [(5, a - 0x10)] else [])
      (dstWrites rd.toNat)
  | .add _ d a b => infoD d [a, b] true
  | .sub _ d a b => infoD d [a, b] true
  | .adds _ d a b => infoD d [a, b] true
  | .subs _ d a b => infoD d [a, b] true
  | .addi _ d a _ => infoD d [a] true
  | .and _ d a b => infoD d [a, b] true
  | .or _ d a b => infoD d [a, b] true
  | .xor _ d a b => infoD d [a, b] true
  | .shl _ d a _ => infoD d [a] true
  | .shls _ d a _ => infoD d [a] true
  | .shra _ d a _ => infoD d [a] true
  | .shrl _ d a _ => infoD d [a] true
  | .min _ d a b => infoD d [a, b] true
  | .max _ d a b => infoD d [a, b] true
  | .abss _ d a => infoD d [a] true
  | .negs _ d a => infoD d [a] true
  | .selneg _ d a b => infoD d [a, b] true
  | .selz _ d a b => infoD d [a, b] true
  | .clamp _ d a imm => infoD d [a] (decide (imm.toNat < 2 ^ 31))
  | _ => infoAlu true [] []

/-- An instruction that writes a B or L register. -/
def writesBL (i : ProgInfo) : Bool := i.writes.any (fun w => decide (w.1 = 3 ∨ w.1 = 4))

/-- One issue of an instruction at the path's position: LDC's delay, stale reads outside a REP, two writes that become visible
together (R196, R200). -/
def progIssue (P : ProgCtx) (inRep : Bool) (q : ProgInfo) (w : ProgPos) : Option ProgPos :=
  let ldc := decide (q.x.kind = .ldc)
  let cached := P.task && (inRep || (match w.cache with | some (a, b, full) => full && decide (a ≤ w.pc ∧ w.pc ≤ b) | none => false))
  let d := b2n (ldc && !cached)
  let t := w.t + d
  let live := w.fly.filter (fun f => decide (t < f.2.2))
  let reads := q.reads ++ moveReads P.circ q.x ++ moveReads P.circ q.y
  let stale := reads.any (fun r => live.any (fun f => decide (f.1 = r.1 ∧ f.2.1 = r.2)))
  let ws := (q.writes ++ moveWrites q.x ++ moveWrites q.y).map (fun f => (f.1, f.2.1, t + f.2.2))
  let clash := decide (ws.eraseDups.length ≠ ws.length) || ws.any (fun f => live.contains f)
  if !q.ok || (stale && !inRep) || clash || (P.shadow && !P.task && writesBL q) then none
  else some { w with t := t + 1, cyc := w.cyc + d + 1, fly := live ++ ws }

/-- Where the path goes on after the instruction at its pc: loops whose last instruction this was (R197). -/
def progLoops (pc cyc : Nat) (cache : Option (Nat × Nat × Bool)) : List ProgLoop → Nat × Nat × List ProgLoop × Option (Nat × Nat × Bool)
  | [] => (pc + 1, cyc, [], cache)
  | lv :: outer =>
    if lv.last = pc then
      if lv.more = 0 then progLoops pc cyc cache outer
      else if 3 ≤ lv.seen then progLoops pc (cyc + lv.more * (cyc - lv.start)) cache outer
      else
        let c := match cache with
          | some (a, b, _) => if a = lv.first ∧ b = lv.last then some (a, b, true) else cache
          | none => none
        (lv.first, cyc, { lv with more := lv.more - 1, seen := lv.seen + 1, start := cyc } :: outer, c)
    else (pc + 1, cyc, lv :: outer, cache)

/-- The path moves on after an instruction that issued; `old` is the transfer that was pending before it. -/
def progAfter (old : Option (Nat × Bool × Nat)) (w : ProgPos) : Except Nat (Nat ⊕ ProgPos) :=
  let r := progLoops w.pc w.cyc w.cache w.loops
  let w1 := { w with pc := r.1, cyc := r.2.1, loops := r.2.2.1, cache := r.2.2.2 }
  match old with
  | none => .ok (.inr w1)
  | some (left, fin, target) =>
    if left ≤ 1 then (if fin then .ok (.inl w1.cyc) else .ok (.inr { w1 with pc := target, redir := none }))
    else .ok (.inr { w1 with redir := some (left - 1, fin, target) })

/-- Iterations of a repeated instruction. -/
def progRep (P : ProgCtx) (q : ProgInfo) : Nat → ProgPos → Option ProgPos
  | 0, w => some w
  | n + 1, w =>
    match progIssue P true q w with
    | some w1 => progRep P q n w1
    | none => none

/-- The word at an instruction index, decoded. -/
def progAt (P : ProgCtx) (pc : Nat) : Option Instr :=
  match P.code[pc]? with
  | some w => decDsp .a w
  | none => none

/-- The loop of the current call depth, if one is open. -/
def ownLoop (w : ProgPos) : Option ProgLoop :=
  match w.loops with
  | lv :: _ => if lv.depth = w.stack.length then some lv else none
  | [] => none

/-- An index lies in the body of the loop of this call depth, where one is open. -/
def inBody (w : ProgPos) (i : Nat) : Bool :=
  match ownLoop w with
  | some lv => decide (lv.first ≤ i ∧ i ≤ lv.last)
  | none => true

/-- One step along the path (rules 1 to 5 of R216); the error is the index of the instruction that breaks a rule, the answer the
cycle count where the path ends. DEDUCED: log 47. -/
def progStep (P : ProgCtx) (w : ProgPos) : Except Nat (Nat ⊕ ProgPos) :=
  let plain (q : ProgInfo) (w0 : ProgPos) : Except Nat (Nat ⊕ ProgPos) :=
    match progIssue P false q w0 with
    | some w1 => progAfter w.redir w1
    | none => .error w.pc
  let slot := w.redir.isSome
  let jump (fin : Bool) (target : Nat) (w0 : ProgPos) : Except Nat (Nat ⊕ ProgPos) :=
    if slot then .error w.pc else plain (infoAlu true [] []) { w0 with redir := some (2, fin, target) }
  let inside (n : Nat) : Bool := decide (n < P.code.size)
  match progAt P w.pc with
  | none => .error w.pc
  | some (.jmp _ t) => if inside t.toNat && inBody w t.toNat then jump false t.toNat w else .error w.pc
  | some (.call _ t) =>
    if inside t.toNat && decide (w.stack.length < 8) && inBody w (w.pc + 3) && !(P.shadow && !P.task) then
      jump false t.toNat { w with stack := (w.pc + 3) :: w.stack }
    else .error w.pc
  | some (.ret _) =>
    match w.stack with
    | [] => .error w.pc
    | t :: rest => if (ownLoop w).isSome then .error w.pc else jump false t { w with stack := rest }
  | some (.tend _) => if P.task then jump true 0 w else .error w.pc
  | some (.rti _) => if P.task then .error w.pc else jump true 0 w
  | some (.loop _ count t) =>
    let first := w.pc + 1
    if slot || decide (count = 0) || decide (2 ≤ w.loops.length) || !inside t.toNat || decide (t.toNat < first) ||
        (P.shadow && !P.task) then .error w.pc
    else
      let c := if P.task then (if t.toNat - first < 64 then some (first, t.toNat, false) else none) else w.cache
      .ok (.inr { w with
        pc := first
        loops := ⟨first, t.toNat, count.toNat - 1, 0, w.cyc, w.stack.length⟩ :: w.loops
        cache := c })
  | some (.rep _ count) =>
    let n := count.toNat
    let p := w.pc + 1
    match progAt P p with
    | some i =>
      if slot || decide (n = 0) || decide ((if P.shadow then 4096 else 512) < n) || (P.shadow && !P.task) ||
          (match P.code[p]? with | some v => decide (bitsOf64 v 62 2 ≠ 0) | none => true) then .error w.pc
      else
        let q := progInfo i
        let w0 := { w with pc := p, cache := if P.task then some (p, p, true) else w.cache }
        match progRep P q (min n 3) w0 with
        | none => .error p
        | some w1 =>
          if n ≤ 3 then progAfter none w1
          else match progIssue P true q w1 with
            | none => .error p
            | some w2 => progAfter none { w2 with cyc := w1.cyc + (n - 3) * (w2.cyc - w1.cyc) }
    | none => .error p
  | some i => plain (progInfo i) w

/-- The path from a position on: its cycle count, or the instruction that breaks a rule. A path that has not ended after
2,000,000 steps is longer than any budget and is refused with it. DEDUCED: log 47. -/
def progWalk (P : ProgCtx) : Nat → ProgPos → Except Nat Nat
  | 0, w => .error w.pc
  | f + 1, w =>
    match progStep P w with
    | .error e => .error e
    | .ok (.inl c) => .ok c
    | .ok (.inr w1) => progWalk P f w1

/-- The path from an entry. DEDUCED: log 47. -/
def progFrom (P : ProgCtx) (entry : Nat) : Except Nat Nat :=
  progWalk P 2000000 { (default : ProgPos) with pc := entry }

/-! Interrupt entry (R203 to R206), which looks at what issues next. -/

/-- The lowest pending source that is enabled (R203). DEDUCED: log 69. -/
def irqNext (L : Lane) : Option Nat :=
  (List.range 8).find? (fun n => L.bit F.CDSP_STAT_IRQ_PEND n && L.bit F.CDSP_CFG_IEN n)

/-- The instruction that issues next: a LOOP or a REP takes no issue, so that the one behind it comes (R195). -/
def nextIssued (L : Lane) : Option Instr :=
  let at1 (k : Nat) : Option Instr := decDsp L.id (L.rdD (pBase + 8 * (((dspBank L).pc + k) % 131072)))
  match at1 0 with
  | some (.loop _ _ _) => at1 1
  | some (.rep _ _) => at1 1
  | i => i

/-- The next instruction would read a result that is still in flight (R196). -/
def staleNext (L : Lane) : Bool :=
  let b := dspBank L
  match nextIssued L with
  | some i =>
    let q := progInfo i
    (q.reads ++ moveReads (!aguNow L) q.x ++ moveReads (!aguNow L) q.y).any (fun r =>
      b.fly.any (fun w => decide (w.view = r.1 ∧ w.reg = r.2 ∧ b.cyc < w.due)))
  | none => false

/-- A boundary at which the policy takes interrupts: under HOLDOFF no delay slot, no further iteration of a REP and no stale read,
under SHADOW no delay slot (R204, R205). DEDUCED: log 69. -/
def irqBoundary (L : Lane) : Bool :=
  noSlot L && (L.b F.CDSP_CFG_POLICY || (decide (L.dsp.flow.rep = 0) && !staleNext L))

/-- A pending interrupt is taken (R203 to R206): under HOLDOFF results in flight complete and the handler runs in the main
bank, under SHADOW the main bank is frozen. DEDUCED: log 69. -/
def irqEntry (L : Lane) : Lane :=
  let st := L.n F.CDSP_STAT_STATE
  match irqNext L with
  | none => L
  | some n =>
    if L.live ∧ (st = 0 ∨ st = 1) ∧ ¬ L.b F.CDSP_STAT_HALTED ∧ ¬ L.b F.CDSP_STAT_LSTOP ∧ (st = 0 ∨ irqBoundary L) then
      let sh := L.b F.CDSP_CFG_POLICY
      let cost := if sh then 1 else 3
      let lat := max 1 (nth L.dsp.wait n 0) + cost
      let L1 := if sh then L else landDue true L
      let saved := if st = 1 then some (L1.dsp.flow, L1.dsp.main.pc, L1.dsp.main.agu) else none
      let L2 := ((L1.setBit F.CDSP_STAT_IRQ_PEND n false).putN F.CDSP_STAT_IRQ_ACT n).putN F.CDSP_STAT_STATE 2
      let L3 := (L2.putN F.CDSP_IRQ_LAT_MAX (max (L2.n F.CDSP_IRQ_LAT_MAX) (min lat 0xFFFF))).setB F.CDSP_STAT_BANK sh
      let cached : DspFlow := { (default : DspFlow) with cache := L3.dsp.flow.cache }
      let L4 := setFlow cached { L3 with dsp := { L3.dsp with saved := saved, fromIdle := decide (st = 0) } }
      let L5 := setBank { dspBank L4 with pc := vecEntry L n, agu := L.dsp.aguPoint, redir := none } L4
      dspCycle cost (L5.setB F.CDSP_STAT_AGU L.dsp.aguPoint)
    else L
def execCdspInterruptEntry (l : LaneId) (s : State) : Host.Outcome State Fault Refusal := .next (s.onLane l irqEntry)

end Sys2Proof.Machine
end

