-- ==== Sys2Proof/Machine/ImgCheck.lean ====
section
/-! DEFINITION. The structural checks of the Image Loader up to the timelines (R66, R70, R87 to R90, R96, R106, R107, R111, R112):
functions of the image's bytes. An answer is the cause of refusal and the byte offset of the item that failed. -/

namespace Sys2Proof.Machine

/-- A refusal: cause of R96 and byte offset; none where a check passes. -/
abbrev Bad := Option (Nat × Nat)

/-- A condition that refuses the image. -/
def bad (c : Bool) (cause off : Nat) : Bad := if c then some (cause, off) else none

/-- Records of `k` bytes. DEDUCED: log 46. -/
def recsOf (k : Nat) : Nat → List Byte → List (List Byte)
  | 0, _ => []
  | n + 1, bs => bs.take k :: recsOf k n (bs.drop k)

/-- Bytes as words and as 64-bit words. -/
def wordsOf (bs : List Byte) : List Word := (recsOf 4 (bs.length / 4) bs).map leWord
def dwordsOf (bs : List Byte) : List Word64 := (recsOf 8 (bs.length / 8) bs).map (fun r => dAt r 0)

/-- The first index and element of a list that a check refuses. -/
def refuseAt {α : Type} (xs : List α) (f : Nat → α → Bad) : Bad := (xs.zipIdx).findSome? (fun p => f p.2 p.1)

/-- What the later checks need of an image: header, sections, points, the edges and the timeline words of each point. -/
structure Img where
  hdr : List Byte
  len : Nat
  secs : List Section
  pts : List Point
  edges : List (List Edge)
  tls : List (List Word64)
deriving DecidableEq, Repr, Inhabited

/-- A section of an image, empty where it has none. -/
def Img.sec (I : Img) (t : Nat) : Section := (I.secs.find? (fun s => decide (s.type = t))).getD default
def Img.has (I : Img) (t : Nat) : Bool := I.secs.any (fun s => decide (s.type = t))
def Img.cycleUs (I : Img) : Nat := (wAt I.hdr 0x18).toNat
def Img.tick (I : Img) : Nat := hAt I.hdr 0x1C
def Img.split (I : Img) (x : Nat) : Bool := (bAt I.hdr 0x20).testBit x
def Img.point (I : Img) (i : Nat) : Point := nth I.pts i default
def Img.edgesAt (I : Img) (i : Nat) : List Edge := nth I.edges i []

/-- Header values of step 5 (R88, R96). DEDUCED: log 43. -/
def hdrBad (h : List Byte) : Bad :=
  let cyc := (wAt h 0x18).toNat
  let tick := hAt h 0x1C
  bad (!decide (cyc = 250 ∨ cyc = 500 ∨ cyc = 1000 ∨ cyc = 2000)) 0x08 0x18 <|>
  bad (!decide (4000 ≤ tick ∧ tick ≤ 50000) || decide (cyc * 200 % max 1 tick ≠ 0)) 0x08 0x1C <|>
  bad (decide (hAt h 0x1E ≠ 64)) 0x08 0x1E <|>
  bad (decide (7 < bAt h 0x20)) 0x08 0x20 <|>
  bad (decide (1 < bAt h 0x21)) 0x08 0x21 <|>
  bad (decide (hAt h 0x26 ≠ 0)) 0x08 0x26 <|>
  bad (decide (wAt h 0x2C ≠ 0)) 0x08 0x2C

/-- Record size, least and largest COUNT of a section type; none where R90 gives its records no fixed size.
DEDUCED: log 44. -/
def secLimits : Nat → Option (Nat × Nat × Nat)
  | 0x01 => some (32, 1, 96)
  | 0x02 => some (8, 0, 0x20000000)
  | 0x03 => some (8, 1, 0x20000000)
  | 0x08 => some (16, 64, 64)
  | 0x0A => some (16, 4, 4)
  | 0x0B => some (20, 0, 131072)
  | 0x0C => some (16, 1, 65536)
  | 0x0D => some (16, 1, 2048)
  | 0x0E => some (1, 256, 256)
  | 0x0F => some (8, 1, 256)
  | 0x10 => some (32, 1, 64)
  | _ => none

/-- Entry `i` of the section table: type, offset, length and count (R89). DEDUCED: log 43, 44. -/
def secEntry (bs : List Byte) (i : Nat) : Nat × Nat × Nat × Nat :=
  let o := 0x40 + 16 * i
  ((wAt bs o).toNat, (wAt bs (o + 4)).toNat, (wAt bs (o + 8)).toNat, (wAt bs (o + 12)).toNat)

/-- The section types that every image holds (R90). DEDUCED: log 43. -/
def secRequired : List Nat := [1, 2, 3, 4, 5, 6, 8, 9, 0x0B, 0x0C, 0x0E, 0x0F, 0x10]

/-- The section table (R89, R90) of an image of `len` bytes. DEDUCED: log 43. -/
def secTableBad (bs : List Byte) (len : Nat) : Bad :=
  let n := bAt bs 0x25
  let es := (List.range 16).map (secEntry bs)
  let used := es.take n
  let npts := bAt bs 0x24
  bad (!decide (1 ≤ n ∧ n ≤ 16)) 0x07 0x25 <|>
  refuseAt es (fun i e =>
    let o := 0x40 + 16 * i
    if n ≤ i then bad (decide (e ≠ (0, 0, 0, 0))) 0x07 o
    else
      bad (!decide (1 ≤ e.1 ∧ e.1 ≤ 0x10) || ((used.take i).any (fun x => decide (x.1 = e.1)))) 0x07 o <|>
      bad (!decide (e.2.1 % 64 = 0 ∧ 0x140 ≤ e.2.1 ∧ e.2.2.1 ≠ 0 ∧ e.2.1 + e.2.2.1 ≤ len - 128)) 0x07 (o + 4) <|>
      bad ((used.take i).any (fun x => decide (x.2.1 < e.2.1 + e.2.2.1 ∧ e.2.1 < x.2.1 + x.2.2.1))) 0x07 (o + 4) <|>
      (match secLimits e.1 with
       | some (size, lo, hi) =>
         bad (decide (hi < e.2.2.2)) 0x14 (o + 12) <|>
         bad (decide (e.2.2.2 < lo ∨ e.2.2.1 < size * e.2.2.2)) 0x07 (o + 12)
       | none => none)) <|>
  bad (secRequired.any (fun t => !(used.any (fun x => decide (x.1 = t))))) 0x07 0x40 <|>
  bad (!decide (1 ≤ npts ∧ npts ≤ 96)) 0x0B 0x24 <|>
  (match used.find? (fun x => decide (x.1 = 1)) with
   | some e => bad (decide (npts < e.2.2.2)) 0x14 0x24 <|> bad (decide (e.2.2.2 ≠ npts)) 0x07 0x24
   | none => none)

/-- The sections of an image. -/
def imgSecs (bs : List Byte) : List Section :=
  (List.range (bAt bs 0x25)).map (fun i =>
    let e := secEntry bs i
    { type := e.1, offset := e.2.1, count := e.2.2.2, bytes := (bs.drop e.2.1).take e.2.2.1 })

/-- `n` bytes of a section at an offset of the image. -/
def secSlice (s : Section) (off n : Nat) : List Byte := if off < s.offset then [] else (s.bytes.drop (off - s.offset)).take n

/-- An image taken apart. -/
def imgOf (bs : List Byte) (len : Nat) : Img :=
  let secs := imgSecs bs
  let sec (t : Nat) : Section := (secs.find? (fun s => decide (s.type = t))).getD default
  let pts := (recsOf 32 (bAt bs 0x24) (sec 1).bytes).map pointOf
  { hdr := bs.take 64
    len := len
    secs := secs
    pts := pts
    edges := pts.map (fun p => (recsOf 8 p.edgeCnt (secSlice (sec 2) p.edgeOff (8 * p.edgeCnt))).map (fun r =>
      edgeOf (wAt r 0) (wAt r 4)))
    tls := pts.map (fun p => dwordsOf (secSlice (sec 3) p.tlOff (8 * p.tlEntries))) }

/-- Offset of the record of point `i` in the image. -/
def Img.ptOff (I : Img) (i : Nat) : Nat := (I.sec 1).offset + 32 * i

/-- A range of the image lies in a section. -/
def Img.inSec (I : Img) (t off n : Nat) : Bool :=
  let s := I.sec t
  decide (s.offset ≤ off ∧ off + n ≤ s.offset + s.bytes.length)

/-- A table or limit set record (R191). -/
structure SetRec where
  off : Nat
  xDst : Nat
  xLen : Nat
  yDst : Nat
  yLen : Nat
  lDst : Nat
  lLen : Nat
  rsv : Bool
  data : List Byte
deriving DecidableEq, Repr, Inhabited

/-- The set record at an offset of the image. -/
def setRec (s : Section) (off : Nat) : SetRec :=
  let b := s.bytes.drop (off - s.offset)
  let w (k : Nat) : Nat := (wAt b (4 * k)).toNat
  { off := off, xDst := w 0, xLen := w 1, yDst := w 2, yLen := w 3, lDst := w 4, lLen := w 5
    rsv := decide (w 6 ≠ 0 ∨ w 7 ≠ 0), data := (b.drop 32).take (w 1 + w 3 + w 5) }

/-- `n` set records from an offset on, one after another; a record whose header leaves the section is the last.
DEDUCED: log 48. -/
def setsFrom (s : Section) : Nat → Nat → List SetRec
  | 0, _ => []
  | n + 1, off =>
    let r := setRec s off
    if s.offset + s.bytes.length < off + 32 then [r] else r :: setsFrom s n (off + 32 + r.xLen + r.yLen + r.lLen)

/-- Every table set and every limit set of the image (R95, R191). -/
def Img.tableSets (I : Img) : List SetRec := setsFrom (I.sec 4) (I.sec 4).count (I.sec 4).offset
def Img.limitSets (I : Img) : List SetRec := setsFrom (I.sec 5) (I.sec 5).count (I.sec 5).offset

/-- The fields of point and edge records (R68, R69): reserved fields, codes, and offsets that name records.
DEDUCED: log 44. -/
def recordsBad (I : Img) : Bad :=
  refuseAt (recsOf 32 I.pts.length (I.sec 1).bytes) (fun i r =>
    let p := pointOf r
    let o := I.ptOff i
    bad (decide (bitsOf (wAt r 0) 28 4 ≠ 0 ∨ bitsOf (wAt r 4) 11 5 ≠ 0 ∨ bitsOf (wAt r 4) 6 2 ≠ 0 ∨ bitsOf (wAt r 12) 15 17 ≠ 0 ∨
      wAt r 28 ≠ 0 ∨ p.id ≠ i ∨ 5 < p.mode)) 0x07 o <|>
    bad (!I.inSec 2 p.edgeOff (8 * p.edgeCnt)) 0x07 (o + 8) <|>
    bad (!I.tableSets.any (fun r => decide (r.off = p.tableOff))) 0x07 (o + 20) <|>
    bad (!I.limitSets.any (fun r => decide (r.off = p.limitOff))) 0x07 (o + 24) <|>
    refuseAt (recsOf 8 p.edgeCnt (secSlice (I.sec 2) p.edgeOff (8 * p.edgeCnt))) (fun k e =>
      let d := edgeOf (wAt e 0) (wAt e 4)
      bad (decide (bitsOf (wAt e 0) 24 8 ≠ 0 ∨ bitAt (wAt e 0) 11 = true ∨ 4 < d.kind ∨ I.pts.length ≤ d.target ∨
        (d.kind ≠ kReq ∧ d.kind ≠ kService ∧ d.req ≠ 0))) 0x07 (p.edgeOff + 8 * k)))

/-- R66: the declaration for this lane, and no safety-classified core job where a lane is Split. -/
def pairingBad (I : Img) (lane : Nat) (mine : Bool) : Bad :=
  bad (I.split lane != mine) 0x09 0x20 <|>
  (if I.split 0 || I.split 1 || I.split 2 then
    refuseAt I.tls (fun i ws => refuseAt ws (fun k w =>
      bad (decide ((entOf w).action = 0x02 ∧ (entOf w).target % 2 = 1)) 0x0A ((I.point i).tlOff + 8 * k)))
   else none)

/-- The lanes of a lane-set code (R67). -/
def codeLanes : Nat → List Nat
  | 0 => [0, 1, 2]
  | 1 => [0, 1]
  | 2 => [1, 2]
  | 3 => [0, 2]
  | 4 => [0]
  | 5 => [1]
  | 6 => [2]
  | _ => []

/-- A mask allows every lane-set code of another. -/
def covers (big small : Nat) : Bool := decide (big &&& small = small)

/-- The simplex codes of the Locked lanes of a mask's lane sets (rule 7 of R70). -/
def lockedSimplex (I : Img) (mask : Nat) : Nat :=
  ((List.range 7).filter (fun c => mask.testBit c)).foldl (fun a c =>
    (codeLanes c).foldl (fun b x => if I.split x then b else b ||| 2 ^ (4 + x)) a) 0

/-- Points reached from a list in one more step. -/
def reachStep (I : Img) (xs : List Nat) : List Nat :=
  xs.foldl (fun a i => (I.edgesAt i).foldl (fun b e => if b.contains e.target then b else b ++ [e.target]) a) xs

/-- The lattice (R70): rules 3 to 14 point by point, then rule 2. -/
def latticeBad (I : Img) : Bad :=
  let us := I.cycleUs
  bad (decide ((I.point 0).mode ≠ mStartup)) 0x0B (I.ptOff 0) <|>
  refuseAt I.pts (fun i p =>
    let o := I.ptOff i
    let es := I.edgesAt i
    let m := p.mode
    let driven := decide (m = mRoad ∨ m = mField ∨ m = mDegraded ∨ m = mSafeStop)
    let moving := decide (m = mRoad ∨ m = mField)
    bad (decide ((m = mRoad ∨ m = mField ∨ m = mDegraded) ∧ p.laneset / 16 ≠ 0)) 0x0B o <|>
    bad ((List.range 3).any (fun x => p.laneset.testBit (4 + x) &&
      (I.split x || !decide (m = mStartup ∨ m = mSafeStop ∨ m = mDormant)))) 0x0B o <|>
    bad (!(if m = mRoad then decide (p.auth = 1) else if m = mField ∨ m = mDegraded then decide (p.auth = 1 ∨ p.auth = 2)
      else decide (p.auth = 0))) 0x0B o <|>
    bad (driven && !covers p.driveSet 0x2F) 0x0B (o + 4) <|>
    bad (!decide (250 ≤ p.ckptUs ∧ p.ckptUs ≤ 4000) || decide (p.ckptUs * 200 % max 1 I.tick ≠ 0) ||
      decide (64 * us % max 1 p.ckptUs ≠ 0) || (driven && decide (1000 < p.ckptUs))) 0x0B (o + 4) <|>
    refuseAt es (fun k e =>
      let eo := p.edgeOff + 8 * k
      let t := I.point e.target
      bad (decide (e.target = i)) 0x0B eo <|>
      bad (decide (e.kind = kReq ∧ (e.req = 0 ∨ e.req = 0xFF)) ||
        (decide (e.kind = kReq) && (es.take k).any (fun f => decide (f.kind = kReq ∧ f.req = e.req)))) 0x0B eo <|>
      bad (decide (t.mode = mDegraded) && !moving) 0x0B eo <|>
      bad (decide (e.kind = kService ∧ (m ≠ mSafeStop ∨ e.target ≠ 0))) 0x0B eo <|>
      bad (decide (m = mSafeStop ∧ t.mode ≠ mDormant ∧ e.kind ≠ kService)) 0x0B eo <|>
      bad (decide (m = mSafeStop ∧ t.mode = mDormant) && (!covers t.laneset p.laneset ||
        (I.edgesAt e.target).any (fun f => decide ((I.point f.target).mode ≠ mSafeStop)))) 0x0B eo <|>
      bad (!e.hp && decide (t.ckptUs ≠ p.ckptUs ∨ t.netset ≠ p.netset ∨ t.impl ≠ p.impl)) 0x0B eo) <|>
    (if driven && decide (m ≠ mSafeStop) then
      (match es.zipIdx.filter (fun e => decide (e.1.kind = kSafe)) with
       | [(e, k)] => bad (decide ((I.point e.target).mode ≠ mSafeStop) ||
           !covers (I.point e.target).laneset (p.laneset ||| lockedSimplex I p.laneset)) 0x0B (p.edgeOff + 8 * k)
       | _ => some (0x0B, o + 8))
     else none) <|>
    (if moving then
      let fs := es.filter (fun e => decide (e.kind = kFault))
      let got := fs.foldl (fun a e => a ||| (I.point e.target).laneset) 0
      bad (!fs.any (fun e => decide ((I.point e.target).mode = mDegraded)) || (p.laneset.testBit 0 && !covers got 0x0E)) 0x0B (o + 8)
     else none)) <|>
  (let r := (List.range I.pts.length).foldl (fun a _ => reachStep I a) [0]
   refuseAt I.pts (fun i _ => bad (!r.contains i) 0x0B (I.ptOff i)))

/-! Timelines. -/

/-- The duration of an action in counts of 5 ns (R226, R246, R250, R422). -/
def actionSpan (I : Img) (e : TlEnt) : Nat :=
  match e.action with
  | 0x30 => 4 * e.arg
  | 0x48 => e.arg
  | 0x20 => 4 + 16 * e.arg
  | 0x18 => 320
  | 0x10 => 4 + 50 * (bAt (I.sec 0x10).bytes (32 * e.arg) % 16)
  | 0x40 => hAt (I.sec 0x09).bytes 0x14 + 4000
  | _ => 400

/-- The block classes that an action touches (R422). -/
def actionClasses (e : TlEnt) : List Nat :=
  match e.action with
  | 0x30 => [0, 1]
  | 0x40 => [1, 11]
  | 0x41 => [1]
  | 0x20 => [2]
  | 0x18 => [3 + e.target]
  | 0x10 => [5 + e.target]
  | 0x08 => [7 + e.target]
  | 0x28 => [10]
  | 0x38 => [12, 16]
  | 0x39 => [1, 16]
  | 0x3A => [16]
  | _ => []

/-- Actions whose end rule 3 of R112 bounds. -/
def bounded (e : TlEnt) : Bool :=
  decide (e.action = 0x30 ∨ e.action = 0x48 ∨ e.action = 0x10 ∨ e.action = 0x20 ∨ e.action = 0x18)

/-- An entry breaks R106 or R111. -/
def entryBad (I : Img) (w : Word64) : Bool :=
  let e := entOf w
  let a := e.arg
  let t := e.target
  decide (bitsOf64 w 59 5 ≠ 0 ∨ 6 < e.pexp ∨ 2 ^ e.pexp ≤ e.phase) ||
  !(match e.action with
    | 0x00 => decide (t = 0 ∧ a = 0)
    | 0x01 => decide (t = 0 ∧ a = 0)
    | 0x02 => decide (t ≤ 1 ∧ a ≤ 7)
    | 0x08 => decide (t ≤ 2 ∧ a = 0)
    | 0x10 => decide (t ≤ 1 ∧ a < (I.sec 0x10).count ∧ a ≤ 63)
    | 0x18 => decide (t ≤ 1 ∧ a = 0)
    | 0x20 => decide (t ≤ 63 ∧ 1 ≤ a ∧ t + a ≤ 64)
    | 0x28 => decide (a = 0)
    | 0x30 => decide (1 ≤ a)
    | 0x38 => decide (t = 0 ∧ a ≤ 65532)
    | 0x39 => decide (t = 0 ∧ a ≤ 65532)
    | 0x3A => decide (t ≤ 1 ∧ a ≤ 2047)
    | 0x40 => decide (t = 0 ∧ a = 0)
    | 0x41 => decide (t ≤ 15 ∧ a = 0)
    | 0x48 => decide (t ≤ 31 ∧ 1 ≤ a)
    | 0x50 => decide (t = 0)
    | _ => false)

/-- An entry of a list: its index, the base of its segment in counts, and its fields. -/
structure Slotted where
  idx : Nat
  base : Nat
  e : TlEnt
deriving DecidableEq, Repr, Inhabited

/-- The entries of a list with their segments (R107). -/
def slotted (ws : List Word64) : List Slotted :=
  ((ws.zipIdx).foldl (fun (r : List Slotted × Nat) p =>
    let e := entOf p.1
    (⟨p.2, r.2, e⟩ :: r.1, if e.action = 0x01 then 200000 else r.2)) ([], 0)).1.reverse

/-- MID entries (R107): one where the cycle has two segments, at OFFSET 200,000 of every cycle; else none. -/
def midBad (I : Img) (off : Nat) (xs : List Slotted) : Bad :=
  let mids := xs.filter (fun x => decide (x.e.action = 0x01))
  if I.cycleUs = 2000 then
    match mids with
    | [m] => bad (decide (m.e.offset ≠ 200000 ∨ m.e.pexp ≠ 0 ∨ m.e.phase ≠ 0)) 0x12 (off + 8 * m.idx)
    | [] => some (0x12, off)
    | _ :: m :: _ => some (0x12, off + 8 * m.idx)
  else
    match mids with
    | [] => none
    | m :: _ => some (0x12, off + 8 * m.idx)

/-- The selected entries of cycle `c` with their issue times from the cycle start (R108); each segment begins afresh.
DEDUCED: log 45. -/
def schedule (c : Nat) (xs : List Slotted) : List (Slotted × Nat) :=
  ((xs.filter (fun x => entFires x.e c)).foldl (fun (r : List (Slotted × Nat) × Nat × Nat) x =>
    let nxt := if x.base = r.2.1 then r.2.2 else x.base
    let t := max (x.base + x.e.offset) nxt
    ((x, t) :: r.1, x.base, t + 1)) ([], 0, 0)).1.reverse

/-- Rules 1 and 2 of R106 within each segment. -/
def offsetsBad (I : Img) (off : Nat) (xs : List Slotted) : Bad :=
  let lim := min I.cycleUs 1000 * 200 - 400
  refuseAt xs (fun k x =>
    let back := match (xs.drop (k - 1)).head? with
      | some y => decide (0 < k ∧ y.base = x.base ∧ x.e.offset < y.e.offset)
      | none => false
    bad (back || decide (x.e.action ≠ 0x01 ∧ lim < x.e.offset)) 0x0D (off + 8 * x.idx))

/-- Rule 3 of R106: at most 8 entries of a cycle share an OFFSET. DEDUCED: log 45. -/
def crowdBad (off : Nat) (sch : List (Slotted × Nat)) : Bad :=
  refuseAt sch (fun k x => bad (decide (8 ≤ ((sch.take k).filter (fun y => y.1.base = x.1.base ∧ y.1.e.offset = x.1.e.offset)).length))
    0x0D (off + 8 * x.1.idx))

/-- Checkpoints of a cycle are first at their OFFSET (rule 1 of R112). -/
def ckptFirstBad (off : Nat) (sch : List (Slotted × Nat)) : Bad :=
  refuseAt sch (fun k x =>
    bad (decide (x.1.e.action = 0x40) && (sch.take k).any (fun y => decide (y.1.base = x.1.base ∧ y.1.e.offset = x.1.e.offset)))
      0x0F (off + 8 * x.1.idx))

/-- PWM_ALIGN of PWM0 and PWM1 once each at OFFSET 0, directly after a CKPT where one is there (rule 2 of R112).
DEDUCED: log 45. Without a CKPT there they are the first two selected entries of the cycle. DESIGN CHOICE: log 45. -/
def alignBad (off : Nat) (sch : List (Slotted × Nat)) : Bad :=
  let ckpt : Bool := match sch with
    | x :: _ => decide (x.1.e.action = 0x40 ∧ x.1.e.offset = 0 ∧ x.1.base = 0)
    | [] => false
  let mine (x : Slotted × Nat) : Bool := decide (x.1.e.action = 0x08 ∧ x.1.e.target < 2)
  let al := sch.filter mine
  refuseAt sch (fun k x =>
    bad (mine x && (!decide (x.1.base = 0 ∧ x.1.e.offset = 0) || (ckpt && !decide (1 ≤ k ∧ k ≤ 2)))) 0x11 (off + 8 * x.1.idx)) <|>
  bad (decide (al.length ≠ 2 ∨ (al.map (fun x => x.1.e.target)).eraseDups.length ≠ 2)) 0x11 off

/-- One ME_STEP of engine `e` in every tick at one offset, where the point drives it (rule 2 of R112). DEDUCED: log 45. -/
def stepsBad (I : Img) (off e : Nat) (all : List (List (Slotted × Nat))) : Bad :=
  let tick := max 1 I.tick
  let at0 : List Nat := (all.zipIdx).flatMap (fun c =>
    (c.1.filter (fun x => decide (x.1.e.action = 0x18 ∧ x.1.e.target = e))).map (fun x =>
      c.2 * I.cycleUs * 200 + x.1.base + x.1.e.offset))
  let nt := 64 * I.cycleUs * 200 / tick
  bad (decide (at0.map (fun x => x / tick) ≠ List.range nt ∨ 1 < (at0.map (fun x => x % tick)).eraseDups.length)) 0x11 off

/-- Two spans of the hyperperiod meet, across its end too. -/
def spansMeet (hp a b c d : Nat) : Bool :=
  decide ((a < d ∧ c < b) ∨ (a + hp < d ∧ c < b + hp) ∨ (a < d + hp ∧ c + hp < b))

/-- The timeline of a point (R106, R107, R111, R112, R250). -/
def timelineBad (I : Img) (i : Nat) : Bad :=
  let p := I.point i
  let ws := nth I.tls i []
  let off := p.tlOff
  let xs := slotted ws
  let cyc := I.cycleUs * 200
  let hp := 64 * cyc
  let ck := max 1 (p.ckptUs * 200)
  let tick := max 1 I.tick
  bad (!decide (1 ≤ p.tlEntries ∧ p.tlEntries ≤ 16384) || !I.inSec 3 p.tlOff (8 * p.tlEntries)) 0x0C (I.ptOff i + 12) <|>
  refuseAt ws (fun k w => bad (entryBad I w) 0x0E (off + 8 * k)) <|>
  midBad I off xs <|>
  offsetsBad I off xs <|>
  (let all := (List.range 64).map (fun c => schedule c xs)
   let abs : List (Slotted × Nat) := (all.zipIdx).flatMap (fun c => c.1.map (fun x => (x.1, c.2 * cyc + x.2)))
   let cks := (abs.filter (fun x => decide (x.1.e.action = 0x40))).map (fun x => x.2)
   let wins := abs.filter (fun x => decide (x.1.e.action = 0x48))
   all.findSome? (crowdBad off) <|>
   all.findSome? (ckptFirstBad off) <|>
   bad (decide (cks ≠ (List.range (hp / ck)).map (fun k => k * ck))) 0x0F off <|>
   refuseAt xs (fun _ x => bad (decide (x.e.action = 0x18 ∧ tick - 400 < (x.base + x.e.offset) % tick)) 0x11 (off + 8 * x.idx)) <|>
   all.findSome? (alignBad off) <|>
   (if p.driveSet.testBit 0 then stepsBad I off 0 all else none) <|>
   (if p.driveSet.testBit 1 then stepsBad I off 1 all else none) <|>
   refuseAt abs (fun _ x => bad (bounded x.1.e && decide ((x.2 / ck + 1) * ck < x.2 + actionSpan I x.1.e)) 0x10 (off + 8 * x.1.idx)) <|>
   refuseAt wins (fun _ w => bad (abs.any (fun x =>
       (actionClasses x.1.e).contains w.1.e.target &&
         spansMeet hp w.2 (w.2 + w.1.e.arg) x.2 (x.2 + actionSpan I x.1.e))) 0x10 (off + 8 * w.1.idx)))

/-- Every timeline. -/
def timelinesBad (I : Img) : Bad := (List.range I.pts.length).findSome? (timelineBad I)

/-- LSM_TABLE (R96): reserved bits, and the sources that must reach EXCLUDE_LANE. -/
def lsmBad (I : Img) : Bad :=
  let s := I.sec 0x0E
  refuseAt s.bytes (fun k b => bad (decide (k < 256) && b.getLsbD 3) 0x07 (s.offset + k)) <|>
  [0x079, 0x07A, 0x07F].findSome? (fun k => bad (decide (bAt s.bytes k % 8 < 2)) 0x15 (s.offset + k))

end Sys2Proof.Machine
end

