-- ==== Sys2Proof/Machine/SecCheck.lean ====
section
/-! DEFINITION. The checks that each chapter gives for its own section in step 5 of R93: agreement map, CDSP program and placement,
loop engine, ADC sequences, motor tables, mirror sets, network schedule, signal directory, CAN gateway, self-test plan. -/

namespace Sys2Proof.Machine

/-! The agreement map (R148, R149, R490, R493). -/

/-- N_IN and N_VOTE of an image. -/
def Img.nIn (I : Img) : Nat := hAt (I.sec 9).bytes 0
def Img.nVote (I : Img) : Nat := hAt (I.sec 9).bytes 2

/-- The vote word records, and the LPE slot records, of an image. -/
def Img.votes (I : Img) : List Word := wordsOf (((I.sec 9).bytes.drop (32 + 8 * I.nIn)).take (4 * I.nVote))
def Img.slots (I : Img) : List (List Word) := (recsOf 16 64 (I.sec 8).bytes).map wordsOf
def Img.slotW0 (I : Img) (s : Nat) : Word := nth (nth I.slots s []) 0 0
def Img.slotW1 (I : Img) (s : Nat) : Word := nth (nth I.slots s []) 1 0

/-- The set-point words that a vote word writes (R149, R493). DEDUCED: log 46. -/
def voteSlots (I : Img) (v : Word) : List Nat :=
  let k := bitsOf v 28 4
  let x := bitsOf v 16 12
  if k = 3 then (if x < 64 then [x] else [])
  else if k = 4 then (List.range 64).filter (fun s => decide (bitsOf (I.slotW0 s) 28 3 = x ∧ bitsOf (I.slotW0 s) 12 2 = 0))
  else []

/-- A reserved source of a SAMPLE entry (R490). -/
def badSrc (n : Nat) : Bool := !decide (n ≤ 0x0D ∨ (0x20 ≤ n ∧ n ≤ 0x40))

/-- DEDUCED: log 46. -/
def agreeBad (I : Img) : Bad :=
  let s := I.sec 9
  let o := s.offset
  let b := s.bytes
  let n := I.nIn
  let m := I.nVote
  let rec0 := 32 + 8 * n
  let grp := rec0 + 4 * m
  bad (decide (256 < n)) 0x14 o <|> bad (decide (64 < m)) 0x14 (o + 2) <|>
  bad (decide (n < 3)) 0x07 o <|> bad (decide (m < 1)) 0x07 (o + 2) <|>
  bad (decide (b.length < grp + 1024)) 0x07 o <|>
  [4, 8, 12, 16, 24].findSome? (fun k => bad (decide ((wAt b k).toNat % 8 ≠ 0)) 0x07 (o + k)) <|>
  bad (decide (hAt b 0x14 < 400)) 0x07 (o + 0x14) <|>
  bad (decide (1024 < hAt b 0x16)) 0x07 (o + 0x16) <|>
  bad (decide (hAt b 0x16 ≠ 0) && !decide (32 ≤ (wAt b 0x18).toNat ∧ (wAt b 0x18).toNat + 4 * hAt b 0x16 ≤ 524288)) 0x07 (o + 0x18) <|>
  bad (!decide (10 ≤ hAt b 0x1C ∧ hAt b 0x1C ≤ 200)) 0x07 (o + 0x1C) <|>
  bad (decide (1 < hAt b 0x1E)) 0x07 (o + 0x1E) <|>
  refuseAt (recsOf 8 n (b.drop 32)) (fun k r =>
    let w := wAt r 0
    bad (decide (bitsOf w 20 12 ≠ 0) || (bitAt w 19 && decide (n ≤ bitsOf w 4 10)) ||
      decide ((k = 0 ∧ (bitsOf w 0 4 ≠ 2 ∨ wAt r 4 ≠ 0)) ∨ (k = 1 ∧ bitsOf w 0 4 ≠ 4) ∨ (k = 2 ∧ bitsOf w 0 4 ≠ 5)))
      0x07 (o + 32 + 8 * k)) <|>
  refuseAt I.votes (fun k v =>
    bad (decide (bitsOf v 0 16 ≠ 0 ∨ (bitsOf v 28 4 = 4 ∧ 3 < bitsOf v 16 12) ∨ (bitsOf v 28 4 = 5 ∧ k ≠ 0)) ||
      (voteSlots I v).any (fun x => (I.votes.take k).any (fun u => (voteSlots I u).contains x))) 0x07 (o + rec0 + 4 * k)) <|>
  refuseAt (recsOf 64 16 (b.drop grp)) (fun j r =>
    let ws := wordsOf r
    refuseAt ws (fun k w => if bitAt w 31 then
        bad (badSrc (bitsOf w 0 8) || !decide (3 ≤ bitsOf w 16 8 ∧ bitsOf w 16 8 < n) ||
          decide (bitsOf w 24 7 ≠ 0 ∨ bitsOf w 8 8 ≠ 0) ||
          (ws.take k).any (fun v => bitAt v 31 && decide (bitsOf v 16 8 = bitsOf w 16 8))) 0x07 (o + grp + 64 * j + 4 * k)
      else bad (decide (bitsOf w 24 7 ≠ 0 ∨ bitsOf w 8 8 ≠ 0)) 0x07 (o + grp + 64 * j + 4 * k)))

/-! The CDSP (R189 to R191, R216). -/

/-- The fields of CDSP_PROG (R189). -/
structure ProgHdr where
  pLen : Nat
  nTask : Nat
  ien : Nat
  tasks : List (List Byte)
  vecs : List (List Byte)
  code : List Byte
deriving DecidableEq, Repr, Inhabited

def progHdr (b : List Byte) : ProgHdr :=
  let n := hAt b 4
  let pl := (wAt b 0).toNat
  { pLen := pl, nTask := n, ien := bAt b 6, tasks := recsOf 8 n (b.drop 16), vecs := recsOf 8 8 (b.drop (16 + 8 * n))
    code := (b.drop (80 + 8 * n)).take pl }

/-- Entry and second word of a task or vector record. -/
def recEntry (r : List Byte) : Nat := bitsOf (wAt r 0) 0 17
def recArg (r : List Byte) : Nat := (wAt r 4).toNat

/-- The AGU settings of the points whose timeline starts a task. DEDUCED: log 47. -/
def taskAgus (I : Img) (t : Nat) : List Bool :=
  ((I.pts.zip I.tls).filter (fun p => p.2.any (fun w => decide ((entOf w).action = 0x30 ∧ (entOf w).target = t)))).map
    (fun p => p.1.agu)

/-- The refusal that a path gives: the instruction's offset in the image. -/
def walkBad (base : Nat) : Except Nat Nat → Bad
  | .error pc => some (0x13, base + 8 * pc)
  | .ok _ => none

/-- Memory areas of rule 8 of R216: whether in Y memory, first byte, size, and the offset of the item that gives them.
DEDUCED: log 48. -/
def placed (I : Img) : List (Bool × Nat × Nat × Nat) :=
  let d := I.sec 7
  let a := I.sec 9
  let w (k : Nat) : Nat := (wAt a.bytes k).toNat
  let data := if I.has 7 then
      [(false, 4 * (wAt d.bytes 0).toNat, (wAt d.bytes 4).toNat, d.offset),
       (true, 4 * (wAt d.bytes 8).toNat, (wAt d.bytes 12).toNat, d.offset + 8)]
    else []
  let sets := (I.tableSets ++ I.limitSets).flatMap (fun r =>
    [(false, 4 * r.xDst, r.xLen, r.off), (true, 4 * r.yDst, r.yLen, r.off + 8)])
  let maps := [(false, w 4, 4 * I.nIn, a.offset + 4), (false, w 8, 4 * I.nIn, a.offset + 8),
    (false, w 12, 4 * I.nVote, a.offset + 12), (false, w 16, 4 * I.nVote, a.offset + 16)]
  (data ++ sets ++ maps).filter (fun x => decide (x.2.2.1 ≠ 0))

/-- DEDUCED: log 48. -/
def placeBad (I : Img) : Bad :=
  let xs := placed I
  refuseAt xs (fun k x =>
    bad (decide (524288 < x.2.1 + x.2.2.1) || (!x.1 && decide (x.2.1 < 32)) ||
      (xs.take k).any (fun y => decide (y.1 = x.1 ∧ x.2.1 < y.2.1 + y.2.2.1 ∧ y.2.1 < x.2.1 + x.2.2.1))) 0x13 x.2.2.2)

/-- The fields of set records (R191). -/
def setsBad (I : Img) : Bad :=
  let one (limit : Bool) (t : Nat) (_ : Nat) (r : SetRec) : Bad :=
    bad (r.rsv || decide (r.xLen % 4 ≠ 0 ∨ r.yLen % 4 ≠ 0 ∨ r.lLen % 4 ≠ 0) || (limit && decide (r.yLen ≠ 0 ∨ r.lLen ≠ 0)) ||
      !I.inSec t r.off (32 + r.xLen + r.yLen + r.lLen)) 0x07 r.off
  refuseAt I.tableSets (one false 4) <|> refuseAt I.limitSets (one true 5)

def cdspBad (I : Img) : Bad :=
  let s := I.sec 6
  let o := s.offset
  let b := s.bytes
  let h := progHdr b
  let base := o + 80 + 8 * h.nTask
  let vec := o + 16 + 8 * h.nTask
  let shadow := decide (bAt I.hdr 0x21 = 1)
  let code : Array Word64 := (dwordsOf h.code).toArray
  let agus := (I.pts.map (fun p => p.agu)).eraseDups
  let ctx (task agu : Bool) : ProgCtx := { code := code, task := task, shadow := shadow, circ := !agu }
  let d := I.sec 7
  bad (decide (1048576 < h.pLen)) 0x14 o <|>
  bad (decide (h.pLen % 8 ≠ 0 ∨ h.pLen < 8)) 0x07 o <|>
  bad (!decide (1 ≤ h.nTask ∧ h.nTask ≤ 256)) 0x07 (o + 4) <|>
  bad (h.ien.testBit 7) 0x07 (o + 6) <|>
  bad (decide (bAt b 7 ≠ 0)) 0x07 (o + 7) <|> bad (decide (dAt b 8 ≠ 0)) 0x07 (o + 8) <|>
  bad (decide (b.length < 80 + 8 * h.nTask + h.pLen)) 0x07 o <|>
  refuseAt h.tasks (fun k r => bad (decide (bitsOf (wAt r 0) 17 15 ≠ 0)) 0x07 (o + 16 + 8 * k)) <|>
  refuseAt h.vecs (fun k r => bad (decide (bitsOf (wAt r 0) 17 15 ≠ 0) ||
    (if h.ien.testBit k then !decide (1 ≤ recArg r ∧ recArg r ≤ 4096) else decide (recArg r ≠ 0))) 0x07 (vec + 8 * k)) <|>
  (if I.has 7 then
    bad (decide (524288 < (wAt d.bytes 4).toNat)) 0x14 (d.offset + 4) <|>
    bad (decide (524288 < (wAt d.bytes 12).toNat)) 0x14 (d.offset + 12) <|>
    bad (decide ((wAt d.bytes 4).toNat % 4 ≠ 0 ∨ (wAt d.bytes 12).toNat % 4 ≠ 0 ∨
      d.bytes.length < 16 + (wAt d.bytes 4).toNat + (wAt d.bytes 12).toNat)) 0x07 d.offset
   else none) <|>
  setsBad I <|>
  refuseAt h.tasks (fun t r => bad (decide (h.pLen ≤ 8 * recEntry r)) 0x13 (o + 16 + 8 * t) <|>
    (match (taskAgus I t).eraseDups with
     | [] => [true]
     | xs => xs).findSome? (fun a => walkBad base (progFrom (ctx true a) (recEntry r)))) <|>
  refuseAt h.vecs (fun k r => if h.ien.testBit k then
      bad (decide (h.pLen ≤ 8 * recEntry r)) 0x13 (vec + 8 * k) <|>
      agus.findSome? (fun a => match progFrom (ctx false a) (recEntry r) with
        | .error pc => some (0x13, base + 8 * pc)
        | .ok c => bad (decide (recArg r < c)) 0x13 (vec + 8 * k))
    else none) <|>
  refuseAt (I.pts.zip I.tls) (fun _ p => refuseAt p.2 (fun k w =>
    let e := entOf w
    if e.action = 0x30 then
      (match h.tasks[e.target]? with
       | none => some (0x13, p.1.tlOff + 8 * k)
       | some r => match progFrom (ctx true p.1.agu) (recEntry r) with
         | .error pc => some (0x13, base + 8 * pc)
         | .ok c => bad (decide (10 * e.arg < c + recArg r)) 0x13 (p.1.tlOff + 8 * k))
    else none)) <|>
  placeBad I

/-! The loop engine (R223, R224, R238). -/

/-- The type of a slot. -/
def Img.slotType (I : Img) (s : Nat) : Nat := bitsOf (I.slotW0 s) 0 4

/-- DEDUCED: log 49. -/
def slotBad (I : Img) (s : Nat) : Bad :=
  let w0 := I.slotW0 s
  let w1 := I.slotW1 s
  let typ := bitsOf w0 0 4
  let msrc := bitsOf w0 4 2
  let msel := bitsOf w0 6 6
  let spsrc := bitsOf w0 12 2
  let outdst := bitsOf w0 20 3
  let outidx := bitsOf w0 23 5
  let model := decide (typ = 6 ∨ typ = 7)
  let pair := bitsOf w1 0 6
  let same (k : Nat) : Bool := decide (bitsOf (I.slotW0 k) 20 3 = outdst ∧ bitsOf (I.slotW0 k) 23 5 = outidx)
  bad (decide (bitsOf w0 31 1 ≠ 0 ∨ 4 < bitsOf w0 28 3 ∨ 3 < outdst ∨ 1 < spsrc ∨ 2 < msrc ∨ 7 < typ ∨ bitsOf w1 23 9 ≠ 0 ∨
      (outdst = 1 ∧ 7 < outidx) ∨ (msrc = 1 ∧ 32 < msel) ∨ (msrc = 2 ∧ msel = s) ∨ (spsrc = 1 ∧ bitsOf w0 14 6 = s)) ||
    decide (1 ≤ typ ∧ typ ≤ 4 ∧ msrc = 0) || decide (5 ≤ typ ∧ msrc ≠ 0) ||
    (if model then
      !decide (outdst = 0 ∧ spsrc = 0 ∧ 1 ≤ bitsOf w1 8 8 ∧ pair < s ∧ 1 ≤ I.slotType pair ∧ I.slotType pair ≤ 4)
     else decide (bitsOf w1 8 8 ≠ 0 ∨ bitsOf w1 6 2 ≠ 0 ∨ pair ≠ 0)) ||
    (decide (outdst ≠ 0) && (List.range s).any same) ||
    (decide (outdst = 2 ∨ outdst = 3) && I.votes.any (fun v => decide (bitsOf v 28 4 = outdst - 1 ∧ bitsOf v 16 12 = outidx))))
    0x07 ((I.sec 8).offset + 16 * s)

/-- Words of a parameter record that R224 gives as 0, by type. -/
def parmZeros : Nat → List Nat
  | 1 => [2, 3, 8, 9, 11]
  | 2 => [8, 9, 11]
  | 3 => [3, 8, 9, 11]
  | 4 => [2, 3, 9, 11]
  | 5 => [0, 1, 2, 3, 6, 7, 8, 9, 11]
  | 6 => [2, 3, 4, 5, 6, 7, 8, 11]
  | _ => [3, 4, 5, 6, 7, 8, 11]

/-- One parameter record of a slot whose type is not OFF (rule 4 of R238). -/
def parmBad (typ : Nat) (ws : List Word) : Bool :=
  let w (k : Nat) : Int := (nth ws k 0).toInt
  (parmZeros typ).any (fun k => decide (nth ws k 0 ≠ 0)) || decide (bitsOf (nth ws 10 0) 16 16 ≠ 0) ||
  decide (w 7 < w 4 ∨ w 5 < w 7 ∨ w 6 < 0 ∨ w 9 < 0) || decide (typ = 2 ∧ w 3 < 0) || decide (typ = 4 ∧ w 8 ≤ 0)

/-- The L part of a table set: offset in the image and bytes. -/
def lPart (r : SetRec) : Nat × List Byte := (r.off + 32 + r.xLen + r.yLen, r.data.drop (r.xLen + r.yLen))

/-- An enable bit of a parameter set. -/
def lEnabled (b : List Byte) (s : Nat) : Bool := if s < 32 then bitAt (wAt b 0) s else bitAt (wAt b 4) (s - 32)

/-- DEDUCED: log 49. -/
def lpeBad (I : Img) : Bad :=
  (List.range 64).findSome? (slotBad I) <|>
  refuseAt I.tableSets (fun _ r =>
    let p := lPart r
    let o := p.1
    let b := p.2
    bad (!decide (r.lDst % 16 = 0 ∧ 0x1000 ≤ r.lDst ∧ r.lDst + r.lLen ≤ 0x10000 ∧ 3088 ≤ r.lLen)) 0x14 (r.off + 16) <|>
    bad (decide (wAt b 12 ≠ 0)) 0x07 (o + 12) <|>
    refuseAt (recsOf 48 64 (b.drop 16)) (fun s ps =>
      let typ := I.slotType s
      let w0 := I.slotW0 s
      if typ = 0 then none
      else
        bad (parmBad typ (wordsOf ps)) 0x07 (o + 16 + 48 * s) <|>
        bad (lEnabled b s && ((decide (typ = 6 ∨ typ = 7) && !lEnabled b (bitsOf (I.slotW1 s) 0 6)) ||
          (decide (bitsOf w0 12 2 = 1) && !lEnabled b (bitsOf w0 14 6)) ||
          (decide (bitsOf w0 4 2 = 2) && !lEnabled b (bitsOf w0 6 6)))) 0x07 o))

/-! ADC sequences (R245) and motor engine tables (R249, R270). -/

def adcSeqBad (I : Img) : Bad :=
  let s := I.sec 0x10
  refuseAt (recsOf 32 s.count s.bytes) (fun k r =>
    let n := bAt r 0 % 16
    let okIn (x : Nat) : Bool := decide (x ≤ 32 ∨ x = 0xFF)
    bad (decide (bAt r 0 / 16 ≠ 0 ∨ bAt r 1 / 2 ≠ 0 ∨ hAt r 2 ≠ 0 ∨ n = 0 ∨ 14 < n) ||
      (List.range 14).any (fun j =>
        let a := bAt r (4 + 2 * j)
        let c := bAt r (5 + 2 * j)
        if n ≤ j then decide (a ≠ 0xFF ∨ c ≠ 0xFF) else !okIn a || !okIn c || decide (a = c ∧ a ≠ 0xFF))) 0x07 (s.offset + 32 * k))

/-- KDT of a tick length: round(TICK_CNT × 1.024 × 10^−5 × 2^31). -/
def kdtOf (tick : Nat) : Nat := (tick * 1024 * 2147483648 + 50000000) / 100000000

/-- One engine's table record against R270; `ref` is the same engine's record of the first set. DEDUCED: log 49. -/
def meTableBad (tick : Nat) (ref ws : List Word) : Bool :=
  let w (k : Nat) : Int := (nth ws k 0).toInt
  let cfg := nth ws 0 0
  decide (cfg ≠ nth ref 0 0 ∨ nth ws 1 0 ≠ nth ref 1 0) ||
  decide (bitsOf cfg 0 2 = 3 ∨ bitsOf cfg 3 5 ≠ 0 ∨ bitsOf cfg 8 8 = 0 ∨ bitsOf cfg 16 8 < 4 ∨ 64 < bitsOf cfg 16 8 ∨
    bitsOf cfg 24 8 = 0 ∨ 64 < bitsOf cfg 24 8 ∨ 400000 < (bitsOf cfg 16 8 + 8) * tick) ||
  decide ((nth ws 1 0).toNat ≠ kdtOf tick) ||
  !decide (w 16 < w 15 ∧ w 15 ≤ w 18 ∧ w 18 < w 17 ∧ 0 < w 19 ∧ w 20 < w 15) ||
  !decide (w 37 < w 34 - w 35 ∧ 0 ≤ w 35 ∧ w 34 < w 36 ∧ w 31 ≤ 0x49E69D16) ||
  decide (w 27 ≤ 0 ∨ w 28 ≤ 0 ∨ w 29 ≤ 0 ∨ w 30 ≤ 0 ∨ w 39 < 0 ∨ w 42 < 0 ∨ w 12 ≤ 0) ||
  decide (bitsOf (nth ws 45 0) 8 24 ≠ 0 ∨ bitsOf (nth ws 45 0) 0 8 = 0 ∨ nth ws 47 0 ≠ 0) ||
  (List.range 16).any (fun k => decide (0x20000000 < (nth ws (48 + k) 0).toNat))

/-- The two engines' records of a table set. -/
def meTables (r : SetRec) : List Word := wordsOf (((lPart r).2.drop (wAt (lPart r).2 8).toNat).take 512)

/-- DEDUCED: log 49. -/
def motorBad (I : Img) : Bad :=
  let sets := I.tableSets
  let ref := match sets with
    | r :: _ => meTables r
    | [] => []
  refuseAt sets (fun _ r =>
    let p := lPart r
    let mo := (wAt p.2 8).toNat
    let t := meTables r
    bad (decide (r.lLen < mo + 512)) 0x07 (p.1 + 8) <|>
    bad (meTableBad I.tick (ref.take 64) (t.take 64)) 0x07 (p.1 + mo) <|>
    bad (meTableBad I.tick (ref.drop 64) (t.drop 64)) 0x07 (p.1 + mo + 256)) <|>
  (List.range 64).findSome? (fun s => bad (decide ((bitsOf (I.slotW0 s) 20 3 = 2 ∨ bitsOf (I.slotW0 s) 20 3 = 3) ∧
    7 < bitsOf (I.slotW0 s) 23 5)) 0x07 ((I.sec 8).offset + 16 * s)) <|>
  refuseAt I.votes (fun k v => bad (decide ((bitsOf v 28 4 = 1 ∨ bitsOf v 28 4 = 2) ∧ 7 < bitsOf v 16 12)) 0x07
    ((I.sec 9).offset + 32 + 8 * I.nIn + 4 * k))

/-! Mirror sets (R290, R291). -/

/-- CHMASK, ORDER, MCOUNT and MOFF of a group. -/
def grpRec (b : List Byte) (g : Nat) : Nat × Nat × Nat × Nat :=
  let w0 := wAt b (16 * g)
  (bitsOf w0 0 8, bitsOf w0 8 6, bitsOf w0 16 9, (wAt b (16 * g + 4)).toNat)

/-- A mirror reference of group `g` is valid. -/
def mirrorRefOk (I : Img) (g ch : Nat) (w : Word) : Bool :=
  match bitsOf w 30 2 with
  | 0 => decide (bitsOf w 17 13 = 0 ∧ 8 ≤ bitsOf w 0 17)
  | 1 => decide (bitsOf w 14 16 = 0 ∧ bitsOf w 3 5 = 0 ∧ (bitsOf w 0 3 = 2 ∨ bitsOf w 0 3 = 3 ∨ bitsOf w 0 3 = 4 ∨
      bitsOf w 0 3 = 5 ∨ bitsOf w 0 3 = 7) ∧ bitsOf (I.slotW0 (bitsOf w 8 6)) 28 3 = g)
  | 2 => decide (bitsOf w 3 27 = 0) && ch.testBit (bitsOf w 0 3)
  | _ => false

def mirrorSetBad (I : Img) : Bad :=
  let s := I.sec 0x0A
  let b := s.bytes
  let grp (g : Nat) : Nat × Nat × Nat × Nat := if I.has 0x0A then grpRec b g else (0, 0, 0, 0)
  bad (!I.has 0x0A && I.pts.any (fun p => decide (p.driveSet / 4 % 16 ≠ 0))) 0x07 0x40 <|>
  (if I.has 0x0A then
    (List.range 4).findSome? (fun g =>
      let r := grp g
      let o := s.offset + 16 * g
      let w0 := wAt b (16 * g)
      let ord := [r.2.1 % 4, r.2.1 / 4 % 4, r.2.1 / 16]
      bad (decide (256 < r.2.2.1)) 0x14 o <|>
      bad (decide (bitsOf w0 25 7 ≠ 0 ∨ bitsOf w0 14 2 ≠ 0 ∨ dAt b (16 * g + 8) ≠ 0) ||
        (List.range g).any (fun k => decide ((grp k).1 &&& r.1 ≠ 0)) ||
        (if r.1 = 0 then decide (r.2.1 ≠ 0 ∨ r.2.2.1 ≠ 0 ∨ r.2.2.2 ≠ 0)
         else decide (2 < nth ord 0 3 ∨ 2 < nth ord 1 3 ∨ 2 < nth ord 2 3 ∨ ord.eraseDups.length ≠ 3))) 0x07 o <|>
      bad (decide (r.2.2.2 % 4 ≠ 0 ∨ b.length < r.2.2.2 + 4 * r.2.2.1)) 0x07 (o + 4) <|>
      refuseAt (recsOf 4 r.2.2.1 (b.drop r.2.2.2)) (fun k e =>
        bad (!mirrorRefOk I g r.1 (leWord e)) 0x07 (s.offset + r.2.2.2 + 4 * k))) <|>
    (List.range 64).findSome? (fun x =>
      let w0 := I.slotW0 x
      bad (decide (bitsOf w0 20 3 = 1) && !((grp (bitsOf w0 28 3)).1.testBit (bitsOf w0 23 5) && decide (bitsOf w0 28 3 < 4)))
        0x07 ((I.sec 8).offset + 16 * x))
   else none) <|>
  refuseAt I.pts (fun i p => bad ((List.range 4).any (fun g => p.driveSet.testBit (2 + g) && decide ((grp g).1 = 0))) 0x07
    (I.ptOff i + 4))

/-! Network schedule and signal directory (R310 to R312, R319, R339). -/

/-- A slot record of the section (R311), and whether a reserved field of it is set. -/
def slotRecOf (r : List Byte) : SlotRec :=
  let w0 := wAt r 0
  let w1 := wAt r 4
  let w2 := wAt r 8
  let w3 := wAt r 12
  { start := bitsOf w0 16 13, len := bitsOf w0 0 12, pexp := bitsOf w1 24 3, phase := bitsOf w1 16 6, node := bitsOf w1 8 8
    port := bitsOf w1 4 4, kind := bitsOf w1 0 4, xt := bitAt w2 31, payload := bitsOf w2 16 11, fwd := bitsOf w2 0 13
    rxirq := bitAt w3 8, cls := bitsOf w3 0 8 }
def slotRsv (r : List Byte) : Bool :=
  decide (bitsOf (wAt r 0) 29 3 ≠ 0 ∨ bitsOf (wAt r 0) 12 4 ≠ 0 ∨ bitsOf (wAt r 4) 27 5 ≠ 0 ∨ bitsOf (wAt r 4) 22 2 ≠ 0 ∨
    bitsOf (wAt r 8) 27 4 ≠ 0 ∨ bitsOf (wAt r 8) 13 3 ≠ 0 ∨ bitsOf (wAt r 12) 9 23 ≠ 0)

/-- Records of network `x`, and the index of its first record in the section. -/
def netCount (b : List Byte) (x : Nat) : Nat := (wAt b (4 * x)).toNat
def netFirst (b : List Byte) (x : Nat) : Nat := (List.range x).foldl (fun a y => a + netCount b y) 0
def netRaw (b : List Byte) (x : Nat) : List (List Byte) := recsOf 16 (netCount b x) (b.drop (48 + 16 * netFirst b x))
def netRecs (b : List Byte) (x : Nat) : List SlotRec := (netRaw b x).map slotRecOf

/-- The wire time of a frame in ns (R312). -/
def wireNs (payload : Nat) : Nat := 80 * (8 + max (26 + payload) 64)

/-- Two slots exist in a common cycle. -/
def commonCycle (a b : SlotRec) : Bool :=
  let m := 2 ^ min a.pexp b.pexp
  decide (a.phase % m = b.phase % m)

/-- One slot record of a network (rules 1 to 3 of R312). -/
def slotRecBad (I : Img) (b : List Byte) (r : SlotRec) : Bool :=
  let role (p : Nat) : Nat := bAt b (16 + 2 * p)
  let portOk (p : Nat) : Bool := decide (p = 15) || (decide (p < 12) && decide (role p ≠ 0))
  let owned := decide (r.kind ≠ 1)
  decide (3 < r.kind ∨ 6 < r.pexp ∨ 2 ^ r.pexp ≤ r.phase ∨ 254 < r.node ∨ 1024 < r.payload ∨ r.len < 32 ∨
    (r.kind ≠ 1 ∧ r.kind ≠ 3 ∧ r.cls ≠ 0) ∨ (r.kind = 1 ∧ (r.node ≠ 0 ∨ r.port ≠ 0))) ||
  (owned && (!portOk r.port || r.fwd.testBit (if r.port = 15 then 12 else r.port) || decide (r.port = 15 ∧ r.node ≠ bAt b 0x0C))) ||
  (List.range 12).any (fun p => r.fwd.testBit p && decide (role p = 0)) ||
  decide (r.len * 250 < 8000 ∨ r.len * 250 < wireNs r.payload + 4500 + (if r.xt then 2640 else 0) ∨
    I.cycleUs * 1000 < (r.start + r.len) * 250)

def schedBad (I : Img) : Bad :=
  let s := I.sec 0x0C
  let b := s.bytes
  let o := s.offset
  let at1 (x k : Nat) : Nat := o + 48 + 16 * (netFirst b x + k)
  [0, 1, 2].findSome? (fun x => bad (decide (65533 < netCount b x)) 0x14 (o + 4 * x) <|>
    bad (decide (netCount b x = 0)) 0x07 (o + 4 * x)) <|>
  bad (decide (netFirst b 3 ≠ s.count ∨ b.length < 48 + 16 * s.count)) 0x07 o <|>
  bad (decide (254 < bAt b 0x0C)) 0x07 (o + 0x0C) <|> bad (decide (bAt b 0x0D = 0)) 0x07 (o + 0x0D) <|>
  bad (decide (hAt b 0x0E ≠ 0)) 0x07 (o + 0x0E) <|>
  (List.range 12).findSome? (fun p => bad (decide (2 < bAt b (16 + 2 * p) ∨ 1 < bAt b (17 + 2 * p))) 0x07 (o + 16 + 2 * p)) <|>
  bad (decide (dAt b 0x28 ≠ 0)) 0x07 (o + 0x28) <|>
  [0, 1, 2].findSome? (fun x =>
    let rs := netRecs b x
    refuseAt (netRaw b x) (fun k r => bad (slotRsv r) 0x07 (at1 x k)) <|>
    refuseAt rs (fun k r => bad (slotRecBad I b r ||
      (rs.take k).any (fun q => commonCycle q r && decide (q.start < r.start + r.len ∧ r.start < q.start + q.len)))
      0x07 (at1 x k)) <|>
    bad (decide (1024 < (rs.filter (fun r => decide (r.kind = 1))).length)) 0x07 (o + 4 * x) <|>
    (match rs.filter (fun r => decide (r.kind = 2 ∧ r.port = 15)) with
     | [r] => bad (decide (r.pexp ≠ 0 ∨ r.payload < 48)) 0x07 (o + 4 * x)
     | _ => some (0x07, o + 4 * x)) <|>
    refuseAt rs (fun k r => bad (decide (r.kind = 3 ∧ r.payload < 36)) 0x07 (at1 x k))) <|>
  refuseAt (I.pts.zip I.tls) (fun _ p => refuseAt p.2 (fun k w =>
    let e := entOf w
    if e.action = 0x38 ∨ e.action = 0x39 then
      bad ([0, 1, 2].any (fun x => match (netRecs b x)[e.arg]? with
        | none => true
        | some r => decide (1 < r.kind) || (decide (e.action = 0x38) && decide (r.port ≠ 15)))) 0x07 (p.1.tlOff + 8 * k)
    else none))

/-- A directory entry of the section (R319): index and fields. -/
structure SigRec where
  idx : Nat
  w0 : Word
  w1 : Word
  buf : Nat
  w3 : Word
deriving DecidableEq, Repr, Inhabited

def sigRecs (s : Section) : List SigRec :=
  (recsOf 20 s.count s.bytes).map (fun r => ⟨(wAt r 0).toNat, wAt r 4, wAt r 8, (wAt r 12).toNat, wAt r 16⟩)
def SigRec.len (r : SigRec) : Nat := bitsOf r.w0 21 6 + 1
def SigRec.tx (r : SigRec) : Bool := bitAt r.w0 30
def SigRec.slot (r : SigRec) : Nat := bitsOf r.w1 16 16
def SigRec.ofs (r : SigRec) : Nat := bitsOf r.w1 0 10
def SigRec.map (r : SigRec) : Nat := bitsOf r.w3 30 2
def SigRec.valid (r : SigRec) : Bool := bitAt r.w0 31
def SigRec.onNet (r : SigRec) (x : Nat) : Bool := r.valid && bitAt r.w0 (27 + x)
def SigRec.bufLen (r : SigRec) : Nat := 8 + (r.len + 7) / 8 * 8

def sigBad (I : Img) : Bad :=
  let s := I.sec 0x0B
  let b := (I.sec 0x0C).bytes
  let rs := sigRecs s
  let words (r : SigRec) : Nat := (r.len + 3) / 4
  refuseAt rs (fun k r =>
    let o := s.offset + 20 * k
    let first := bitsOf r.w3 22 8
    bad (decide (131072 ≤ r.idx)) 0x14 o <|>
    bad (r.valid && (decide (bitsOf r.w0 0 5 ≠ 0 ∨ bitsOf r.w1 10 6 ≠ 0 ∨ bitsOf r.w3 0 8 ≠ 0 ∨ r.map = 3 ∨ r.buf % 8 ≠ 0) ||
      (if r.tx then decide (bitsOf r.w0 13 8 ≠ 0 ∨ r.map = 1) else decide (bitsOf r.w0 13 8 = 0 ∨ r.map = 2)) ||
      decide ((r.map = 1 ∧ I.nIn < first + words r) ∨ (r.map = 2 ∧ I.nVote < first + words r)) ||
      (bitAt r.w3 21 && decide (I.nIn ≤ bitsOf r.w3 13 8)))) 0x07 o <|>
    [0, 1, 2].findSome? (fun x => if r.onNet x then
        (match (netRecs b x)[r.slot]? with
         | none => some (0x07, o)
         | some q =>
           bad (decide (q.payload < r.ofs + r.len + 5) || (r.tx != decide (q.port = 15)) ||
             (rs.take k).any (fun p => p.onNet x && decide (p.slot = r.slot ∧ p.ofs < r.ofs + r.len + 5 ∧
               r.ofs < p.ofs + p.len + 5))) 0x07 o <|>
           bad (!decide (0x300000 ≤ r.buf ∧ r.buf + r.bufLen ≤ 0x3E0000) ||
             (rs.take k).any (fun p => p.onNet x && decide (p.buf < r.buf + r.bufLen ∧ r.buf < p.buf + p.bufLen))) 0x14 (o + 12))
      else none))

/-! The CAN gateway (R358) and the self-test plan (R421). -/

/-- A length that a CAN FD frame can have. -/
def dlcLen (n : Nat) : Bool := decide (n ≤ 8 ∨ n = 12 ∨ n = 16 ∨ n = 20 ∨ n = 24 ∨ n = 32 ∨ n = 48 ∨ n = 64)

def canBad (I : Img) : Bad :=
  let s := I.sec 0x0D
  let maps := (recsOf 16 s.count s.bytes).map wordsOf
  let sigs := sigRecs (I.sec 0x0B)
  refuseAt maps (fun k ws =>
    let w0 := nth ws 0 0
    let w1 := nth ws 1 0
    let w2 := nth ws 2 0
    let w3 := nth ws 3 0
    let mode := bitsOf w1 29 3
    let len := bitsOf w1 16 12
    let tgt := bitsOf w2 30 2
    let ix := bitsOf w2 0 17
    let nw := (len + 3) / 4
    let dir := bitAt w0 30
    bad (decide (4 < mode ∨ tgt = 3 ∨ bitsOf w2 17 13 ≠ 0 ∨ bitsOf w3 0 18 ≠ 0)) 0x07 (s.offset + 16 * k) <|>
    if !bitAt w0 31 then none
    else
      bad (decide (len = 0 ∨ 64 < len ∨
          (mode ≤ 1 ∧ 8 < len) ∨ (tgt = 1 ∧ 1364 < ix)) || (decide (mode = 2 ∨ mode = 3) && !dlcLen len) ||
        (!dir && decide (tgt = 0) && !sigs.any (fun r => decide (r.idx = ix ∧ r.map = 0 ∧ r.len = len) && r.valid && r.tx)) ||
        (decide (tgt = 2) && decide ((if dir then I.nVote else I.nIn) < ix + nw)) ||
        (!dir && decide (tgt = 2) && bitAt w3 31 && decide (I.nIn ≤ bitsOf w3 18 8))) 0x07 (s.offset + 16 * k)) <|>
  refuseAt (I.pts.zip I.tls) (fun _ p => refuseAt p.2 (fun k w =>
    let e := entOf w
    if e.action = 0x3A then
      bad (match maps[e.arg]? with
        | none => true
        | some ws => !(bitAt (nth ws 0 0) 31 && bitAt (nth ws 0 0) 30 && decide (bitsOf (nth ws 0 0) 29 1 = e.target))) 0x07
        (p.1.tlOff + 8 * k)
    else none))

def planBad (I : Img) : Bad :=
  let s := I.sec 0x0F
  let rs := recsOf 8 s.count s.bytes
  refuseAt rs (fun k r =>
    let w := wAt r 0
    let t := bitsOf w 8 8
    bad (decide (bitsOf w 16 8 ≠ 0 ∨ bitsOf w 5 3 ≠ 0 ∨ wAt r 4 ≠ 0) || !decide (1 ≤ t ∧ t ≤ 0x18) ||
      decide (bitsOf w 0 5 ≠ (testOf t).cls) || (rs.take k).any (fun q => decide (bitsOf (wAt q 0) 8 8 = t))) 0x07 (s.offset + 8 * k))

/-- Step 5 of R93 for lane `lane`, whose pairing is `mine`: header values, section table, R66, R70, the timelines, then the checks
of the chapters in their order. DEDUCED: log 43. -/
def structureBad (bs : List Byte) (len lane : Nat) (mine : Bool) : Bad :=
  hdrBad bs <|> secTableBad bs len <|>
  (let I := imgOf bs len
   recordsBad I <|> pairingBad I lane mine <|> latticeBad I <|> timelinesBad I <|> lsmBad I <|> agreeBad I <|> cdspBad I <|>
   lpeBad I <|> adcSeqBad I <|> motorBad I <|> mirrorSetBad I <|> schedBad I <|> sigBad I <|> canBad I <|> planBad I)

end Sys2Proof.Machine
end

