-- ==== Sys2Proof/Machine/Loader.lean ====
section
/-! DEFINITION. The Image Loader: verification, start-up selection, copying, and the staging operations (R91 to R101, R278,
R291, R308, R439, R442). -/

namespace Sys2Proof.Machine

/-- ASCII text as bytes. -/
def ascii (s : String) : List Byte := s.toList.map (fun c => BitVec.ofNat 8 c.toNat)

/-- The public key and identifier that KEY_ID `kid` names among slots `lo` to `hi`; in RETURNED only 0, which names the root key
(R88, R439, R442, R444). -/
def verifyKey (L : Lane) (lo hi kid : Nat) : Option (List Byte × List Byte) :=
  if L.otp.lc = 3 then (if kid = 0 then some (Config.rootPub, ascii "IHLEM-RETURN-KEY") else none)
  else if lo ≤ kid ∧ kid ≤ hi then
    (match L.otp.keys[kid]? with
     | some k => if k.state = 1 then some (k.pub, k.ident) else none
     | none => none)
  else none

/-- What a verification comes to: cause (0 passed), byte offset, step reached, and the verified bytes. -/
structure Verdict where
  cause : Nat
  off : Nat
  step : Nat
  bytes : List Byte
deriving DecidableEq, Repr, Inhabited

/-- Steps 2 and 3: digest and signature of `n` bytes, the last 128 of them the signature block (R91, R92). -/
def sealOk (key : List Byte × List Byte) (bs : List Byte) (n : Nat) : Bad :=
  let msg := bs.take (n - 128)
  let blk := bs.drop (n - 128)
  bad (decide (Config.sm3 msg ≠ blk.take 32)) 0x04 (n - 128) <|>
  bad (!Config.sm2Verify key.1 key.2 msg ((blk.drop 32).take 32) ((blk.drop 64).take 32)) 0x05 (n - 96)

/-- The value of a monotonic counter: its last entry, 0 when none (R447). -/
def cntValue (xs : List Word) : Word := xs.getLast?.getD 0

/-- The image in a slot verified (R93). What cannot be read is not delivered: a header then has no MAGIC, a body no digest.
DEDUCED: log 43. -/
def imgVerify (slot : Nat) (L : Lane) : Verdict × Lane :=
  let base := masalaSlot slot
  let h := readBytes base 64 L
  match h.1 with
  | none => (⟨0x01, 0, 1, []⟩, h.2)
  | some hd =>
    let n := (wAt hd 8).toNat
    let kid := (wAt hd 0x28).toNat
    let first : Bad := bad (decide (wAt hd 0 ≠ 0x414C534D)) 0x01 0x00 <|> bad (decide (hAt hd 4 ≠ 3)) 0x01 0x04 <|>
      bad (decide (hAt hd 6 ≠ 0x140)) 0x01 0x06 <|>
      bad (!decide (n % 64 = 0 ∧ 4096 ≤ n ∧ n ≤ 2097152)) 0x02 0x08
    match first, verifyKey L 0 3 kid with
    | some (c, o), _ => (⟨c, o, 1, []⟩, h.2)
    | none, none => (⟨0x03, 0x28, 1, []⟩, h.2)
    | none, some key =>
      let r := readBytes base n h.2
      match r.1 with
      | none => (⟨0x04, n - 128, 2, []⟩, r.2)
      | some bs =>
        match sealOk key bs n with
        | some (c, o) => (⟨c, o, if c = 4 then 2 else 3, []⟩, r.2)
        | none =>
          if wAt bs 0x0C < cntValue L.otp.imgCnt then (⟨0x06, 0x0C, 4, []⟩, r.2)
          else
            match structureBad bs n (laneNo L.id) (isSplit L) with
            | some (c, o) => (⟨c, o, 5, []⟩, r.2)
            | none => (⟨0, 0xFFFFFFFF, 5, bs⟩, r.2)

/-- A refusal is reported in TLS_IMG_STAT and TLS_IMG_DETAIL (R96). DEDUCED: log 50. -/
def imgReport (v : Verdict) (L : Lane) : Lane :=
  if v.cause = 0 then L else (L.putN F.TLS_IMG_STAT_REFUSE v.cause).putN F.TLS_IMG_DETAIL_OFFSET v.off

/-- The cores run: firmware is verified and the lane has reached substate 0x2 (R445). -/
def coresRun (L : Lane) : Bool :=
  L.live && L.lcs.fwSlot.isSome && (decide (L.n F.TLS_MS_STAT_MODE ≠ mStartup) || decide (2 ≤ L.n F.TLS_MS_STAT_SUBSTATE))

/-- Substate 0x2: the slot is chosen and its image verified (R100). DEDUCED: log 50. -/
def imageVerify (L : Lane) : Lane :=
  if L.live ∧ substate L = 2 ∧ L.lcs.fwSlot.isSome ∧ L.tls.verified = none then
    let h := bootHdr L
    let pend := decide (h.imFlag ≠ 0)
    let s0 := (if pend then h.imPend else h.imAct).toNat % 2
    let v0 := imgVerify s0 L
    let L0 := imgReport v0.1 v0.2
    if v0.1.cause = 0 then withTls (fun t => { t with verified := some s0 }) L0
    else if pend then
      let L1 := (bootWrite (fun b => { b with imFlag := 0 }) L0).setB F.TLS_IMG_STAT_FALLBACK true
      let s1 := h.imAct.toNat % 2
      let v1 := imgVerify s1 L1
      let L2 := imgReport v1.1 v1.2
      if v1.1.cause = 0 then withTls (fun t => { t with verified := some s1 }) L2 else enterHold L2
    else enterHold L0
  else L
def execImageVerification (l : LaneId) (s : State) : Host.Outcome State Fault Refusal := .next (s.onLane l imageVerify)

/-- Bytes placed in memory by the loader. -/
def place (a : Nat) (bs : List Byte) (L : Lane) : Lane := (writeBytes a bs L).2

/-- The data of a set record goes to X, Y and LPE memory (R191). DEDUCED: log 48. -/
def placeSet (r : SetRec) (L : Lane) : Lane :=
  let L1 := place (xBase + 4 * r.xDst) (r.data.take r.xLen) L
  let L2 := place (yBase + 4 * r.yDst) ((r.data.drop r.xLen).take r.yLen) L1
  place (lpeBase + r.lDst) ((r.data.drop (r.xLen + r.yLen)).take r.lLen) L2

/-- CDSP program and data, table and limit sets, loop slots (R189 to R191, R223). -/
def copyPrograms (I : Img) (L : Lane) : Lane :=
  let h := progHdr (I.sec 6).bytes
  let d := (I.sec 7).bytes
  let xl := (wAt d 4).toNat
  let L1 := place pBase h.code L
  let L2 := if I.has 7 then
      place (yBase + 4 * (wAt d 8).toNat) ((d.drop (16 + xl)).take (wAt d 12).toNat)
        (place (xBase + 4 * (wAt d 0).toNat) ((d.drop 16).take xl) L1)
    else L1
  let L3 := (I.tableSets ++ I.limitSets).foldl (fun a r => placeSet r a) L2
  let L4 := place lpeBase ((I.sec 8).bytes.take 1024) L3
  let L5 := ((L4.putN F.CDSP_CFG_NTASK h.nTask).putN F.CDSP_CFG_IEN h.ien).setB F.CDSP_CFG_POLICY (decide (bAt I.hdr 0x21 = 1))
  let L6 := (L5.setB F.CDSP_CFG_LOADED true).setB F.LPE_STAT_LOADED true
  let safe (e : Nat) : Nat := match I.tableSets with
    | r :: _ => bitsOf (nth (meTables r) (64 * e) 0) 0 2
    | [] => 0
  forEach [0, 1] (fun e a => meAvail e ((a.putN (F.MEe_STAT_SAFE e) (safe e)).setB (F.MEe_STAT_LOADED e) true)) L6

/-- Signal directory, schedule and CAN gateway (R310, R319, R358), and the roles of the ports; the PHYs
start training, but not in a CLOCK_DEGRADED lane (R308, R335). -/
def copyNetwork (I : Img) (L : Lane) : Lane :=
  let x := laneNo L.id
  let b := (I.sec 0x0C).bytes
  let sigs := sigRecs (I.sec 0x0B)
  let L1 := sigs.foldl (fun a r => place (netBase + 16 * r.idx) (wordsBytes [r.w0, r.w1, toW r.buf, r.w3]) a) L
  let L2 := place (netBase + 0x200000) (b.take 48 ++ (b.drop (48 + 16 * netFirst b x)).take (16 * netCount b x)) L1
  let L3 := if I.has 0x0D then place (netBase + 0x3E0000) ((I.sec 0x0D).bytes.take (16 * (I.sec 0x0D).count)) L2 else L2
  let L4 := ((L3.putN F.SSG_CFG_EK3_NODE (bAt b 0x0C)).putN F.SSG_CFG_BABBLE_LIM (bAt b 0x0D)).putN F.SSG_NREC_NREC (netCount b x)
  let L5 := ((L4.putN F.SSG_STAT_NET x).putN F.NTE_STAT_NET x).putN F.NTE_STAT_NSIG ((sigs.filter (fun r => r.onNet x)).length)
  let L6 := L5.putN F.CGW_NMAP_NMAP (if I.has 0x0D then (I.sec 0x0D).count else 0)
  let L7 := forEach (List.range 12) (fun p a =>
    (a.putN (F.SSG_PORTp_STAT_ROLE p) (bAt b (16 + 2 * p))).setB (F.SSG_PORTp_STAT_MS p) (decide (bAt b (17 + 2 * p) % 2 = 1))) L6
  if L7.b F.CLK_STAT_DEGRADED then L7 else L7.setBit F.AOS_STAT_ON 6 true

/-- The reaction table and its lock (R94), the group map and its lock (R291), the vector lengths, the plan (R421).
DEDUCED: log 48. -/
def copyTables (I : Img) (L : Lane) : Lane :=
  let rt := (I.sec 0x0E).bytes
  let L1 := forEach (List.range 64) (fun n a =>
    let w := wAt rt (4 * n)
    [F.LSM_RTn_THRESH3 n, F.LSM_RTn_CLASS3 n, F.LSM_RTn_THRESH2 n, F.LSM_RTn_CLASS2 n, F.LSM_RTn_THRESH1 n, F.LSM_RTn_CLASS1 n,
      F.LSM_RTn_THRESH0 n, F.LSM_RTn_CLASS0 n].foldl (fun c f => c.put f (fldOf f w)) a) L
  let L2 := if I.has 0x0A then forEach (List.range 4) (fun g a =>
      let r := grpRec (I.sec 0x0A).bytes g
      ((a.putN (F.DEI_GRPg_CTL_CHMASK g) r.1).putN (F.DEI_GRPg_CTL_ORDER g) r.2.1).putN (F.DEI_GRPg_CTL_MCOUNT g) r.2.2.1) L1
    else L1
  let L3 := ((L2.setB F.DEI_CTL_LOCK true).putN F.CLV_VEC_LEN_N_IN I.nIn).putN F.CLV_VEC_LEN_N_VOTE I.nVote
  bscFresh (L3.putN F.BSC_STAT_NSLICE (I.sec 0x0F).count)

/-- The periods of PWM0 and PWM1 go to the shadow and the active stage, then their owners and EN are set (R278). -/
def copyPwm (I : Img) (L : Lane) : Lane :=
  let one (n : Nat) (a : Lane) : Lane :=
    let a1 := (a.putN (F.PWMn_PER_PER n) I.tick).putN (F.PWMn_PER_PRESC n) 0
    let g := genOf a1 n
    let a2 := setGen n { g with com := { g.com with per := I.tick, presc := 0 }, act := { g.act with per := I.tick, presc := 0 }
                                curPer := I.tick } a1
    setEn n true (a2.setB (F.PWMn_CFG_SRC n) true)
  (one 1 (one 0 L)).setB (F.PWMn_CFG_SRC 2) true

/-- The image's facts, point 0 with its bank, and the start of the timeline in its first cycle (R94, R103).
DEDUCED: log 38. -/
def startTls (I : Img) (slot : Nat) (bs : List Byte) (L : Lane) : Lane :=
  let p := I.point 0
  let blk := bs.drop (I.len - 128)
  let L1 := place (entAddr 0 0) ((secSlice (I.sec 3) p.tlOff (8 * p.tlEntries))) L
  let L2 := forEach (List.range 8) (fun n a => a.put (F.TLS_IMG_DGSTn_DGST n) (wAt blk (4 * n))) L1
  let L3 := ((L2.put F.TLS_IMG_VER_VERSION (wAt bs 0x0C)).putN F.TLS_TIMING_CYCLE_US I.cycleUs).putN F.TLS_TIMING_TICK_CNT I.tick
  let h := bootHdr L
  let L4 := ((L3.putN F.TLS_IMG_STAT_ASLOT slot).setB F.TLS_IMG_STAT_PENDING (decide (h.imFlag ≠ 0))).putN F.TLS_IMG_STAT_PSLOT
    (h.imPend.toNat % 2)
  let L5 := ((L4.putN F.TLS_MS_CFG_NPOINTS I.pts.length).putN F.TLS_MS_CFG_DECL (bAt bs 0x20 % 8)).setB F.TLS_MS_CFG_IMG_VALID true
  let L6 := ((L5.putN F.TLS_MS_STAT_POINT 0).putN F.TLS_MS_STAT_MODE mStartup).put F.TLS_MS_CKPT_CKPT L5.ckpt
  let L7 := (setTlBank 0 2 0 L6).setB (F.TLS_MS_BANKn_CURRENT 0) true
  let L8 := ((L7.putN F.TLS_STAT_BANK 0).putN F.TLS_STAT_CYCLE 0).setB F.TLS_STAT_RUN true
  let L9 := { (withTls (fun t => { t with secs := I.secs, hdr := I.hdr, pos := 0, verified := none }) L8) with
    dsp := { L8.dsp with aguPoint := p.agu } }
  setSubstate 3 (lpeSelect (enterSets L9))

/-- After verification every section goes to its destination, the tables are locked and the TLS starts; substate 0x3 begins
(R94). DEDUCED: log 50. -/
def imageCopy (L : Lane) : Lane :=
  match L.tls.verified with
  | none => L
  | some slot =>
    if L.live ∧ substate L = 2 then
      let n := (L.rdW (masalaSlot slot + 8)).toNat
      let r := readBytes (masalaSlot slot) n L
      match r.1 with
      | none => enterHold (withTls (fun t => { t with verified := none }) r.2)
      | some bs =>
        let I := imgOf bs n
        let L1 := copyPwm I (copyNetwork I (copyPrograms I r.2))
        (startTls I slot bs (copyTables I L1)).setB F.LSM_CTL_LOCK true
    else L
def execImageCopy (l : LaneId) (s : State) : Host.Outcome State Fault Refusal := .next (s.onLane l imageCopy)

/-! Staging operations, for Masala slots (R98) and firmware slots (R453). -/

/-- The target slot of a descriptor. -/
def targetSlot (r : Run) : Nat := bitsOf r.d.w4 0 1

/-- The target slot is erased. DEDUCED: log 51. -/
def slotErase (role op : Nat) (base : Nat → Nat) (done : Nat → Lane → Lane) (ld : LD) : LD :=
  match runningOp ld.1 role op with
  | none => ld
  | some r => finish role { r with progress := 2097152 } 0 stDone 0
      (onL (fun L => done (targetSlot r) (clearRange (base (targetSlot r)) 2097152 L)) ld)

/-- Pages of the source copied to the slot from byte `at` on, up to a page that cannot be read. DEDUCED: log 51. -/
def slotPages (role : Nat) (base : Nat) (r : Run) : Nat → LD → LD
  | 0, ld => finish role r 0 stDone 0 ld
  | f + 1, ld =>
    let k := min 4096 (r.d.length - r.progress)
    if k = 0 then finish role r 0 stDone 0 ld
    else
      match iovaReadN role r.d.ctx (r.d.src + r.progress) k ld with
      | (.error e, ld1) => finishErr role r e ld1
      | (.ok bs, ld1) =>
        slotPages role base { r with progress := r.progress + k } f (onL (place (base + r.progress) bs) ld1)

/-- LENGTH bytes of the source go into the target slot at ARG0[31:8] × 256. DEDUCED: log 51. -/
def slotWrite (role op : Nat) (base : Nat → Nat) (done : Nat → Lane → Lane) (ld : LD) : LD :=
  match runningOp ld.1 role op with
  | none => ld
  | some r =>
    slotPages role (base (targetSlot r) + bitsOf r.d.w4 8 24 * 256) r (r.d.length / 4096 + 1) (onL (done (targetSlot r)) ld)

/-- The slots of passed verifications since their last write (R98). -/
def stageSet (ok : Bool) (slot : Nat) (L : Lane) : Lane :=
  let m : BitVec 2 := BitVec.ofNat 2 (2 ^ slot)
  withTls (fun t => { t with stageOk := if ok then t.stageOk ||| m else t.stageOk &&& ~~~ m }) L

/-- STAGE_VERIFY: the cause in word2, the step reached as PROGRESS. -/
def stageVerify (ld : LD) : LD :=
  match runningOp ld.1 7 0x22 with
  | none => ld
  | some r =>
    let v := imgVerify (targetSlot r) ld.1
    let L1 := imgReport v.1 v.2
    finish 7 { r with progress := v.1.step } 0 stDone (toW v.1.cause)
      (if v.1.cause = 0 then stageSet true (targetSlot r) L1 else L1, ld.2)

/-- STAGE_ACTIVATE: the pending slot and its flag (R97). -/
def stageActivate (ld : LD) : LD :=
  match runningOp ld.1 7 0x23 with
  | none => ld
  | some r =>
    let k := targetSlot r
    let f (L : Lane) : Lane :=
      let L1 := bootWrite (fun b => { b with imPend := BitVec.ofNat 8 k, imFlag := 1 }) L
      if L1.b F.TLS_MS_CFG_IMG_VALID then (L1.setB F.TLS_IMG_STAT_PENDING true).putN F.TLS_IMG_STAT_PSLOT k else L1
    finish 7 r 0 stDone 0 (onL f ld)

def execStageErase (l : LaneId) (s : State) : Host.Outcome State Fault Refusal :=
  .next (onDie l (slotErase 7 0x20 masalaSlot (stageSet false)) s)
def execStageWrite (l : LaneId) (s : State) : Host.Outcome State Fault Refusal :=
  .next (onDie l (slotWrite 7 0x21 masalaSlot (stageSet false)) s)
def execStageVerify (l : LaneId) (s : State) : Host.Outcome State Fault Refusal := .next (onDie l stageVerify s)
def execStageActivate (l : LaneId) (s : State) : Host.Outcome State Fault Refusal := .next (onDie l stageActivate s)

/-- Aimed at the running slot, past the slot's end, or an activation without a passed verification: ERR_PARAM (R98). -/
def slotParm (r : Run) (running : Option Nat) (ok : BitVec 2) (w act : Nat) : Option (Nat × Nat × Word) :=
  let k := targetSlot r
  if running = some k ∨ (r.d.opcode = w ∧ 2097152 < bitsOf r.d.w4 8 24 * 256 + r.d.length) ∨
      (r.d.opcode = act ∧ ok.getLsbD k = false) then some (errParam, stFault, 0)
  else none
/-- A slot runs from IMG_VALID on: a slot verified in substate 0x2 and not copied yet may be written, and the copy takes what it
holds. DEDUCED: log 51, 56. -/
def parmStage (r : Run) (L : Lane) : Option (Nat × Nat × Word) :=
  slotParm r (if L.b F.TLS_MS_CFG_IMG_VALID then some (L.n F.TLS_IMG_STAT_ASLOT) else none) L.tls.stageOk 0x21 0x23

end Sys2Proof.Machine
end

