-- ==== Sys2Proof/Machine/Startup.lean ====
section
/-! DEFINITION. Start-up: the BIST list of substate 0x1 and the verification of firmware (R419, R420, R444, R445). -/

namespace Sys2Proof.Machine

/-- An element of the start-up list: a test of R417, or one that runs at start-up only (R419). -/
def startupListed (L : Lane) (t e : Nat) : Bool :=
  match testInfo t with
  | some i => decide (e < i.elems)
  | none => startupTest L t

/-- Firmware has been refused in every slot that could run: the lane goes to Hold once it is in substate 0x2 (R445, R61).
DEDUCED: log 97. -/
def holdWithoutFirmware (L : Lane) : Lane := if L.lcs.fwDone && L.lcs.fwSlot.isNone then enterHold L else L

/-- The start-up list ends: passed, substate 0x2 follows; failed, the lane stays in substate 0x1 with the failure recorded (R419,
R420). A start-up-only test has no class: CLASS is then a free value. DESIGN CHOICE: log 21; DEDUCED: log 97. -/
def startupBist (failed : Option (Nat × Nat)) (L : Lane) : Lane :=
  if L.live ∧ curMode L = mStartup ∧ substate L = 1 ∧ ¬ L.b F.BSC_STAT_SU_FAIL then
    match failed with
    | none => holdWithoutFirmware (setSubstate 2 (L.setB F.BSC_STAT_SU_DONE true))
    | some (t, e) =>
      if startupListed L t e then
        let c : Nat × Lane :=
          match testInfo t with
          | some i => (i.cls, L)
          | none => (L.freeW.1.toNat % 32, L.freeW.2)
        let L1 := ((c.2.putN F.BSC_LAST_TEST t).putN F.BSC_LAST_CLASS c.1).putN F.BSC_LAST_ELEMENT e
        bistFail t (L1.setB F.BSC_STAT_SU_FAIL true)
      else L
  else L
def execStartupBist (l : LaneId) (failed : Option (Byte × BitVec 16)) (s : State) : Host.Outcome State Fault Refusal :=
  .next (s.onLane l (startupBist (failed.map (fun p => (p.1.toNat, p.2.toNat)))))

/-- The firmware in a slot verified: the header, the digest, the signature and the firmware counter, with the causes of R96 (R444,
R445). -/
def fwVerify (slot : Nat) (L : Lane) : Verdict × Lane :=
  let base := fwSlotBase slot
  let h := readBytes base 64 L
  match h.1 with
  | none => (⟨0x01, 0, 1, []⟩, h.2)
  | some hd =>
    let n := (wAt hd 8).toNat
    let entry := (wAt hd 0x10).toNat
    let first : Bad := bad (decide (wAt hd 0 ≠ 0x57464B45)) 0x01 0x00 <|> bad (decide (hAt hd 4 ≠ 1)) 0x01 0x04 <|>
      bad (decide (hAt hd 6 ≠ 0x40)) 0x01 0x06 <|> bad (decide ((hd.drop 0x20).take 32 ≠ List.replicate 32 0)) 0x01 0x20 <|>
      bad (!decide (n % 64 = 0 ∧ 4096 ≤ n ∧ n ≤ 2097152)) 0x02 0x08 <|>
      bad (!decide (entry % 4 = 0 ∧ entry < n - 128)) 0x02 0x10
    match first, verifyKey L 4 5 (wAt hd 0x14).toNat with
    | some (c, o), _ => (⟨c, o, 1, []⟩, h.2)
    | none, none => (⟨0x03, 0x14, 1, []⟩, h.2)
    | none, some key =>
      let r := readBytes base n h.2
      match r.1 with
      | none => (⟨0x04, n - 128, 2, []⟩, r.2)
      | some bs =>
        match sealOk key bs n with
        | some (c, o) => (⟨c, o, if c = 4 then 2 else 3, []⟩, r.2)
        | none =>
          if wAt bs 0x0C < cntValue L.otp.fwCnt then (⟨0x06, 0x0C, 4, []⟩, r.2) else (⟨0, 0xFFFFFFFF, 4, bs⟩, r.2)

/-- A refusal of firmware is reported in LCS_FW_STAT, as one of an image is in TLS_IMG_STAT. DEDUCED: log 97. -/
def fwReport (v : Verdict) (L : Lane) : Lane := if v.cause = 0 then L else L.putN F.LCS_FW_STAT_REFUSE v.cause

/-- The slot of verified firmware runs. DEDUCED: log 97. -/
def fwRun (slot : Nat) (v : Verdict) (L : Lane) : Lane :=
  let L1 := (L.putN F.LCS_FW_STAT_ASLOT slot).put F.LCS_FW_VER_VERSION (wAt v.bytes 0x0C)
  { L1 with lcs := { L1.lcs with
      fwSlot := some slot, fwDigest := (v.bytes.drop (v.bytes.length - 128)).take 32 } }

/-- The LCS verifies firmware, the pending slot first, with at most one fallback (R445, R100). DEDUCED: log 97. -/
def fwStart (L : Lane) : Lane :=
  if L.live ∧ curMode L = mStartup ∧ (substate L = 1 ∨ substate L = 2) ∧ ¬ L.lcs.fwDone then
    let h := bootHdr L
    let pend := decide (h.fwFlag ≠ 0)
    let s0 := (if pend then h.fwPend else h.fwAct).toNat % 2
    let s1 := h.fwAct.toNat % 2
    let L0 := ({ L with lcs := { L.lcs with fwDone := true } }.setB F.LCS_FW_STAT_PENDING pend).putN F.LCS_FW_STAT_PSLOT
      (h.fwPend.toNat % 2)
    let v0 := fwVerify s0 L0
    let L1 := fwReport v0.1 v0.2
    let L2 :=
      if v0.1.cause = 0 then fwRun s0 v0.1 L1
      else if pend then
        let L3 := raise 0x0F8 (((bootWrite (fun b => { b with fwFlag := 0 }) L1).setB F.LCS_FW_STAT_FALLBACK true).setB
          F.LCS_FW_STAT_PENDING false)
        let v1 := fwVerify s1 L3
        let L4 := fwReport v1.1 v1.2
        if v1.1.cause = 0 then fwRun s1 v1.1 L4 else L4
      else L1
    if substate L2 = 2 then holdWithoutFirmware L2 else L2
  else L
def execFirmwareVerification (l : LaneId) (s : State) : Host.Outcome State Fault Refusal := .next (s.onLane l fwStart)

end Sys2Proof.Machine
end

