-- ==== Sys2Proof/Machine/Lifecycle.lean ====
section
/-! DEFINITION. Lifecycle, tokens and SERVICE, keys, the boot header, the crypto unit's operations, attestation and debug access
(R435 to R458). -/

namespace Sys2Proof.Machine

/-! Firmware slots (R453). -/

/-- Slots of passed FW_VERIFY since their last write. DEDUCED: log 51. -/
def fwStageSet (ok : Bool) (slot : Nat) (L : Lane) : Lane :=
  let m : BitVec 2 := BitVec.ofNat 2 (2 ^ slot)
  { L with lcs := { L.lcs with fwStageOk := if ok then L.lcs.fwStageOk ||| m else L.lcs.fwStageOk &&& ~~~ m } }

/-- FW_VERIFY: the cause in word2, the step reached as PROGRESS. -/
def fwVerifyOp (ld : LD) : LD :=
  match runningOp ld.1 9 0x32 with
  | none => ld
  | some r =>
    let v := fwVerify (targetSlot r) ld.1
    let L1 := fwReport v.1 v.2
    finish 9 { r with progress := v.1.step } 0 stDone (toW v.1.cause)
      (if v.1.cause = 0 then fwStageSet true (targetSlot r) L1 else L1, ld.2)

/-- FW_ACTIVATE: the pending slot and its flag. -/
def fwActivateOp (ld : LD) : LD :=
  match runningOp ld.1 9 0x33 with
  | none => ld
  | some r =>
    let k := targetSlot r
    let f (L : Lane) : Lane :=
      ((bootWrite (fun b => { b with fwPend := BitVec.ofNat 8 k, fwFlag := 1 }) L).setB F.LCS_FW_STAT_PENDING true).putN
        F.LCS_FW_STAT_PSLOT k
    finish 9 r 0 stDone 0 (onL f ld)

def execFwErase (l : LaneId) (s : State) : Host.Outcome State Fault Refusal :=
  .next (onDie l (slotErase 9 0x30 fwSlotBase (fwStageSet false)) s)
def execFwWrite (l : LaneId) (s : State) : Host.Outcome State Fault Refusal :=
  .next (onDie l (slotWrite 9 0x31 fwSlotBase (fwStageSet false)) s)
def execFwVerify (l : LaneId) (s : State) : Host.Outcome State Fault Refusal := .next (onDie l fwVerifyOp s)
def execFwActivate (l : LaneId) (s : State) : Host.Outcome State Fault Refusal := .next (onDie l fwActivateOp s)

/-! Reasons of REJECTED (R450, R453). -/
def rjLifecycle : Nat := 1
def rjNonce : Nat := 2
def rjSignature : Nat := 3
def rjBinding : Nat := 4
def rjPrecondition : Nat := 5
def rjLocked : Nat := 6
def rjLastKey : Nat := 7
def rjFormat : Nat := 8
def rjSlotState : Nat := 9

/-- The running FIRMWARE descriptor ends REJECTED. -/
def fwReject (r : Run) (reason : Nat) (ld : LD) : LD := finish 9 r reason stRejected 0 ld

/-- A lock bit refuses an operation; in Service hold it does not (R456). -/
def lockRefuses (f : Fld) (L : Lane) : Bool := L.b f && !inServiceHold L

/-- BOOTCFG: the crystal frequency and the pairing go to the boot header (R443, R453). DEDUCED: log 98. -/
def bootcfg (ld : LD) : LD :=
  match runningOp ld.1 9 0x34 with
  | none => ld
  | some r =>
    match iovaReadN 9 r.d.ctx r.d.src 16 ld with
    | (.error e, ld1) => finishErr 9 r e ld1
    | (.ok bs, ld1) =>
      if lockRefuses F.LCS_CTL_LOCK ld1.1 then fwReject r rjLocked ld1
      else if wAt bs 8 ≠ 0 ∨ wAt bs 12 ≠ 0 then fwReject r rjFormat ld1
      else
        finish 9 { r with progress := 16 } 0 stDone 0 (onL (bootWrite (fun b => { b with
          xtalKhz := wAt bs 0, pair := if bitAt (wAt bs 4) 0 then 1 else 0 })) ld1)
def execBootcfg (l : LaneId) (s : State) : Host.Outcome State Fault Refusal := .next (onDie l bootcfg s)

/-! Random numbers (R452). -/

/-- One draw of 32 bytes from the TRNG. DESIGN CHOICE: log 6. -/
def trngDraw (L : Lane) : List Byte × Lane :=
  ((Config.trng (laneNo L.id) L.lcs.draws ++ List.replicate 32 0).take 32, { L with lcs := { L.lcs with draws := L.lcs.draws + 1 } })

/-- `n` draws. -/
def trngDraws : Nat → Lane → List Byte × Lane
  | 0, L => ([], L)
  | n + 1, L =>
    let a := trngDraw L
    let b := trngDraws n a.2
    (a.1 ++ b.1, b.2)

/-- The outcome of the TRNG's health test as CRU_STAT shows it. DEDUCED: log 100. -/
def trngShow (ok : Bool) (L : Lane) : Lane := L.setB F.CRU_STAT_TRNG_OK ok

/-- A TRNG health test fails (R452). -/
def trngFail (L : Lane) : Lane := raise 0x0FE ((trngShow false L).inc F.LCS_ERR_TRNG_CNT)

/-- Lane time for which a nonce is valid: 10 minutes (R449). -/
def nonceNs : Nat := 600000000000

/-- SVC_NONCE (R449). DEDUCED: log 99. -/
def svcNonce (trngOk : Bool) (ld : LD) : LD :=
  match runningOp ld.1 9 0x35 with
  | none => ld
  | some r =>
    if trngOk then
      let n := trngDraw (trngShow true ld.1)
      let L1 := { n.2 with lcs := { n.2.lcs with nonce := some (n.1, n.2.time) } }
      match iovaWrite 9 r.d.ctx r.d.dst n.1 (L1, ld.2) with
      | (.error e, ld1) => finishErr 9 r e ld1
      | (.ok _, ld1) => finish 9 { r with progress := 32 } 0 stDone 0 ld1
    else finish 9 r errEngine stFault 0x30 (onL trngFail ld)
def execSvcNonce (l : LaneId) (trngOk : Bool) (s : State) : Host.Outcome State Fault Refusal := .next (onDie l (svcNonce trngOk) s)

/-! Tokens (R448, R450). -/

/-- The key of a token's signature: key slot 6 for a SERVICE token, the Ihlem root key for the others. -/
def tokenKey (typ : Nat) (L : Lane) : Option (List Byte × List Byte) :=
  if typ = 1 then
    match L.otp.keys[6]? with
    | some k => if k.state = 1 then some (k.pub, k.ident) else none
    | none => none
  else some (Config.rootPub, ascii "IHLEM-RETURN-KEY")

/-- MAGIC, TYPE, DURATION and the zero fields of a token. -/
def tokenForm (typ : Nat) (t : List Byte) : Bool :=
  let dur := hAt t 6
  decide (t.length = 128 ∧ wAt t 0 = 0x4E4B5445 ∧ bAt t 4 = typ ∧ (t.drop 0x30).take 16 = List.replicate 16 0) &&
    (if typ = 1 then decide (1 ≤ dur ∧ dur ≤ 480) else decide (dur = 0))

/-- A token names this lane. -/
def tokenBinds (t : List Byte) (L : Lane) : Bool := decide (dAt t 8 = L.otp.serial ∧ bAt t 5 = laneNo L.id)

/-- The held nonce is valid and is the token's. -/
def nonceOk (t : List Byte) (L : Lane) : Bool :=
  match L.lcs.nonce with
  | some (n, at0) => decide (L.time < at0 + nonceNs ∧ (t.drop 0x10).take 32 = n)
  | none => false

/-- The checks of a token from the second on, in order; the answer is the reason of the first that fails, 0 when all pass. The
check of the nonce clears it. DEDUCED: log 98. -/
def tokenCheck (typ : Nat) (t : List Byte) (L : Lane) : Nat × Lane :=
  if !tokenForm typ t then (rjFormat, L)
  else if !tokenBinds t L then (rjBinding, L)
  else
    let L1 := { L with lcs := { L.lcs with nonce := none } }
    if !nonceOk t L then (rjNonce, L1)
    else
      match tokenKey typ L with
      | some k =>
        if Config.sm2Verify k.1 k.2 (t.take 64) ((t.drop 64).take 32) ((t.drop 96).take 32) then (0, L1) else (rjSignature, L1)
      | none => (rjSignature, L1)

/-- A refused token is logged; a refused SERVICE token is also counted and raises 0x0FA (R450, R455). DEDUCED: log 98. -/
def tokenRefused (service : Bool) (reason : Nat) (t : List Byte) (L : Lane) : Lane :=
  let L1 := lcRecordTok 4 L.otp.lc reason 0 (Config.sm3 t) L
  if service then raise 0x0FA (L1.inc F.LCS_ERR_SVCREF_CNT) else L1

/-- SERVICE starts, or starts again, for a number of minutes (R451); a CLOCK_DEGRADED lane counts 3 % fast.
DEDUCED: log 99. -/
def svcStart (minutes : Nat) (t : List Byte) (L : Lane) : Lane :=
  let ns := minutes * 60000000000
  let dur := if L.b F.CLK_STAT_DEGRADED then ns * 100 / 103 else ns
  let L1 := { L with lcs := { L.lcs with svc := true, svcEnd := L.time + dur } }
  plicRaise 82 (raise 0x0FB (lcRecordTok 2 L.otp.lc L.otp.lc 0 (Config.sm3 t) L1))

/-- SVC_ENTER (R450, R451). DEDUCED: log 98. -/
def svcEnter (ld : LD) : LD :=
  match runningOp ld.1 9 0x36 with
  | none => ld
  | some r =>
    match iovaReadN 9 r.d.ctx r.d.src 128 ld with
    | (.error e, ld1) => finishErr 9 r e ld1
    | (.ok t, ld1) =>
      let c := if ld1.1.otp.lc = 2 then tokenCheck 1 t ld1.1 else (rjLifecycle, ld1.1)
      if c.1 = 0 then pump (finish 9 { r with progress := 128 } 0 stDone 0 (svcStart (hAt t 6) t c.2, ld1.2))
      else pump (fwReject r c.1 (tokenRefused true c.1 t c.2, ld1.2))
def execSvcEnter (l : LaneId) (s : State) : Host.Outcome State Fault Refusal := .next (onDie l svcEnter s)

/-- SVC_END: the descriptor is DONE before the end takes effect (R451, R453). DEDUCED: log 99. -/
def svcEndOp (ld : LD) : LD :=
  match runningOp ld.1 9 0x37 with
  | none => ld
  | some r => pump (onL (svcEnded 2) (finish 9 r 0 stDone 0 ld))
def execSvcEnd (l : LaneId) (s : State) : Host.Outcome State Fault Refusal := .next (onDie l svcEndOp s)

/-- The transitions of R438 that a lane can request: the token's TYPE they need, 0 for none. The state they start from is the one
that OTP holds. DEDUCED: log 98. -/
def transition (frm dst : Nat) : Option Nat :=
  match frm, dst with
  | 1, 2 => some 0
  | 1, 3 => some 2
  | 2, 3 => some 2
  | 2, 4 => some 3
  | 3, 4 => some 0
  | _, _ => none

/-- A key slot of a range is VALID, but for one (R442). -/
def kindValid (L : Lane) (lo hi except : Nat) : Bool :=
  (List.range 8).any (fun k => decide (lo ≤ k ∧ k ≤ hi ∧ k ≠ except) && decide ((nth L.otp.keys k ⟨0, [], []⟩).state = 1))

/-- What PROVISIONED asks for: a VALID key slot of each kind, and an active firmware slot that verifies (R438). -/
def provisionable (L : Lane) : Bool × Lane :=
  if kindValid L 0 3 8 && kindValid L 4 5 8 && kindValid L 6 6 8 then
    let v := fwVerify ((bootHdr L).fwAct.toNat % 2) L
    (decide (v.1.cause = 0), v.2)
  else (false, L)

/-- A transition is written: it takes effect at the next lane reset (R438). -/
def lcWrite (dst : Nat) (dig : List Byte) (L : Lane) : Lane :=
  plicRaise 82 { (lcRecordTok 1 L.otp.pendLc dst 0 dig L) with otp := { L.otp with pendLc := dst } }

/-- LC_ADVANCE (R438, R450). DEDUCED: log 98. -/
def lcAdvance (ld : LD) : LD :=
  match runningOp ld.1 9 0x38 with
  | none => ld
  | some r =>
    match iovaReadN 9 r.d.ctx r.d.src r.d.length ld with
    | (.error e, ld1) => finishErr 9 r e ld1
    | (.ok t, ld1) =>
      let L := ld1.1
      let dst := bitsOf r.d.w4 8 4
      let done (dig : List Byte) (L1 : Lane) : LD :=
        pump (finish 9 { r with progress := r.d.length } 0 stDone 0 (lcWrite dst dig L1, ld1.2))
      match transition L.otp.pendLc dst with
      | none => pump (fwReject r rjLifecycle (if r.d.length = 0 then L else tokenRefused false rjLifecycle t L, ld1.2))
      | some typ =>
        if lockRefuses F.LCS_CTL_LOCK L then fwReject r rjLocked ld1
        else if typ = 0 then
          if dst = 2 then
            let p := provisionable L
            if p.1 then done (List.replicate 32 0) p.2 else fwReject r rjPrecondition (p.2, ld1.2)
          else done (List.replicate 32 0) L
        else
          let c := tokenCheck typ t L
          if c.1 = 0 then done (Config.sm3 t) c.2
          else pump (fwReject r c.1 (tokenRefused false c.1 t c.2, ld1.2))
def execLcAdvance (l : LaneId) (s : State) : Host.Outcome State Fault Refusal := .next (onDie l lcAdvance s)

/-! Key slots (R442). -/

/-- The key slot that a descriptor names, and its contents. -/
def keyNo (r : Run) : Nat := bitsOf r.d.w4 8 3
def keyAt (L : Lane) (k : Nat) : KeySlot := nth L.otp.keys k ⟨0, [], []⟩
def setKey (k : Nat) (x : KeySlot) (L : Lane) : Lane := { L with otp := { L.otp with keys := setNth L.otp.keys k x } }

/-- KEY_SET. DEDUCED: log 98. -/
def keySet (ld : LD) : LD :=
  match runningOp ld.1 9 0x39 with
  | none => ld
  | some r =>
    match iovaReadN 9 r.d.ctx r.d.src 80 ld with
    | (.error e, ld1) => finishErr 9 r e ld1
    | (.ok bs, ld1) =>
      let L := ld1.1
      let k := keyNo r
      if L.otp.lc ≠ 1 then fwReject r rjLifecycle ld1
      else if L.b F.CRU_CTL_LOCK then fwReject r rjLocked ld1
      else if (keyAt L k).state ≠ 0 then fwReject r rjSlotState ld1
      else
        pump (finish 9 { r with progress := 80 } 0 stDone 0
          (lcRecord 5 k L.otp.lc 0 (setKey k ⟨1, bs.take 64, bs.drop 64⟩ L), ld1.2))
def execKeySet (l : LaneId) (s : State) : Host.Outcome State Fault Refusal := .next (onDie l keySet s)

/-- The slots of the kind of slot `k`. -/
def keyKind (k : Nat) : Nat × Nat := if k ≤ 3 then (0, 3) else if k ≤ 5 then (4, 5) else (k, k)

/-- KEY_REVOKE. DEDUCED: log 98. -/
def keyRevoke (ld : LD) : LD :=
  match runningOp ld.1 9 0x3A with
  | none => ld
  | some r =>
    let L := ld.1
    let k := keyNo r
    if ¬ (L.otp.lc = 1 ∨ (L.lcs.svc ∧ inServiceHold L)) then fwReject r rjLifecycle ld
    else if lockRefuses F.CRU_CTL_LOCK L then fwReject r rjLocked ld
    else if (keyAt L k).state ≠ 1 then fwReject r rjSlotState ld
    else if !kindValid L (keyKind k).1 (keyKind k).2 k then fwReject r rjLastKey ld
    else pump (finish 9 r 0 stDone 0 (lcRecord 6 k L.otp.lc 0 (setKey k { keyAt L k with state := 2 } L), ld.2))
def execKeyRevoke (l : LaneId) (s : State) : Host.Outcome State Fault Refusal := .next (onDie l keyRevoke s)

/-- Parameters of FIRMWARE descriptors: slot operations as for images; key slot 7 is reserved (R442, R453).
DEDUCED: log 56. -/
def parmFw (r : Run) (L : Lane) : Option (Nat × Nat × Word) :=
  if r.d.opcode ≤ 0x33 then slotParm r L.lcs.fwSlot L.lcs.fwStageOk 0x31 0x33
  else if r.d.opcode = 0x39 ∧ keyNo r = 7 then some (errParam, stFault, 0)
  else none

/-! The crypto unit (R452). -/

/-- The result of an operation goes to DST. -/
def cryptoPut (r : Run) (n : Nat) (bs : List Byte) (ld : LD) : LD :=
  match iovaWrite 2 r.d.ctx r.d.dst bs ld with
  | (.error e, ld1) => finishErr 2 r e ld1
  | (.ok _, ld1) => finish 2 { r with progress := n } 0 stDone 0 ld1

/-- A signature by the lane identity key, r then s (R441). -/
def idSign (msg : List Byte) (L : Lane) : List Byte × Lane :=
  ((Config.sm2Sign (laneNo L.id) L.lcs.draws msg ++ List.replicate 64 0).take 64,
    { L with lcs := { L.lcs with draws := L.lcs.draws + 1 } })

/-- One unit of the running SM3 or SM2_SIGN: up to 4 KiB of its message; with the last of them its result (R452).
DEDUCED: log 100. -/
def hashUnit (trngOk : Bool) (r : Run) (ld : LD) : LD :=
  let k := min 4096 (r.d.length - r.progress)
  match iovaReadN 2 r.d.ctx (r.d.src + r.progress) k ld with
  | (.error e, ld1) => finishErr 2 r e ld1
  | (.ok bs, ld1) =>
    let r1 := { r with progress := r.progress + k, msg := r.msg ++ bs }
    if r1.progress < r.d.length then atBoundary 2 r1 ld1
    else if r.d.opcode = 0x01 then
      cryptoPut r1 r1.progress ((Config.sm3 r1.msg ++ List.replicate 32 0).take 32) ld1
    else if trngOk then
      let g := idSign (ascii "EKSW" ++ r1.msg) (trngShow true ld1.1)
      cryptoPut r1 r1.progress g.1 (g.2, ld1.2)
    else finish 2 r errEngine stFault 0x30 (onL trngFail ld1)

/-- SM3 runs to its end, or to the boundary at which it leaves the engine. -/
def sm3Run (ld : LD) : LD :=
  match runningOp ld.1 2 0x01 with
  | none => ld
  | some r => unitLoop (hashUnit true) 2 r (r.d.length / 4096 + 2) ld
def execSm3 (l : LaneId) (s : State) : Host.Outcome State Fault Refusal := .next (onDie l sm3Run s)

/-- SM2_VERIFY: DETAIL 0 where the signature is valid, 1 where it is not. -/
def sm2VerifyRun (ld : LD) : LD :=
  match runningOp ld.1 2 0x02 with
  | none => ld
  | some r =>
    match iovaReadN 2 r.d.ctx r.d.src 160 ld with
    | (.error e, ld1) => finishErr 2 r e ld1
    | (.ok bs, ld1) =>
      let ok := Config.sm2VerifyDigest (bs.take 64) ((bs.drop 64).take 32) ((bs.drop 96).take 32) ((bs.drop 128).take 32)
      finish 2 { r with progress := 160 } 0 stDone (if ok then 0 else 1) ld1
def execSm2Verify (l : LaneId) (s : State) : Host.Outcome State Fault Refusal := .next (onDie l sm2VerifyRun s)

/-- SM2_SIGN; refused in RETURNED. DEDUCED: log 100. -/
def sm2SignRun (trngOk : Bool) (ld : LD) : LD :=
  match runningOp ld.1 2 0x03 with
  | none => ld
  | some r =>
    if ld.1.otp.lc = 3 then finish 2 r rjLifecycle stRejected 0 ld
    else unitLoop (hashUnit trngOk) 2 r (r.d.length / 4096 + 2) ld
def execSm2Sign (l : LaneId) (trngOk : Bool) (s : State) : Host.Outcome State Fault Refusal :=
  .next (onDie l (sm2SignRun trngOk) s)

/-- Bytes 0x00 to 0xBF of an attestation report (R454). -/
def attestBody (challenge : List Byte) (L : Lane) : List Byte :=
  natBytesLe 4 0x52545441 ++ natBytesLe 2 1 ++ [BitVec.ofNat 8 (laneNo L.id), BitVec.ofNat 8 L.otp.lc] ++
    natBytesLe 8 L.otp.serial.toNat ++
    [BitVec.ofNat 8 (L.n F.LCS_ID_STEP), BitVec.ofNat 8 (b2n (L.b F.TLS_MS_CFG_PAIR)), BitVec.ofNat 8 (b2n L.lcs.svc), 0] ++
    wordsBytes [L.fld F.LCS_FW_VER_VERSION, L.fld F.TLS_IMG_VER_VERSION, cntValue L.otp.fwCnt, cntValue L.otp.imgCnt, L.ckpt] ++
    natBytesLe 8 L.time ++ (L.lcs.fwDigest ++ List.replicate 32 0).take 32 ++
    wordsBytes ((List.range 8).map (fun n => L.fld (F.TLS_IMG_DGSTn_DGST n))) ++ challenge ++
    wordsBytes [L.fld F.EVR_SEALNO_SEALNO, L.fld F.EVR_SEGNO_SEGNO, L.fld F.AOS_RSTCAUSE_CAUSE,
      L.regWord [F.TLS_MS_STAT_EXCL, F.TLS_MS_STAT_PRELOAD_BUSY, F.TLS_MS_STAT_NETUP, F.TLS_MS_STAT_SUBSTATE,
        F.TLS_MS_STAT_LANESET, F.TLS_MS_STAT_MODE, F.TLS_MS_STAT_POINT]] ++
    List.replicate 32 0

/-- ATTEST: the report, and with LOG = 1 its copy in the audit log (R454, R455). DEDUCED: log 100. -/
def attestRun (trngOk : Bool) (ld : LD) : LD :=
  match runningOp ld.1 2 0x04 with
  | none => ld
  | some r =>
    if ld.1.otp.lc = 3 then finish 2 r rjLifecycle stRejected 0 ld
    else
      match iovaReadN 2 r.d.ctx r.d.src 32 ld with
      | (.error e, ld1) => finishErr 2 r e ld1
      | (.ok ch, ld1) =>
        if !trngOk then finish 2 r errEngine stFault 0x30 (onL trngFail ld1)
        else
          let body := attestBody ch ld1.1
          let g := idSign body (trngShow true ld1.1)
          let rep := body ++ g.1
          match iovaWrite 2 r.d.ctx r.d.dst rep (g.2, ld1.2) with
          | (.error e, ld2) => finishErr 2 r e ld2
          | (.ok _, ld2) =>
            let r1 := { r with progress := 256 }
            if !bitAt r.d.w4 0 then finish 2 r1 0 stDone 0 ld2
            else if !auditOk ld2 then finish 2 r1 errLink stFault 0 ld2
            else
              let a := auditAppend rep ld2
              if a.1 then finish 2 r1 0 stDone 0 a.2 else finish 2 r1 errEngine stFault 0x13 a.2
def execAttest (l : LaneId) (trngOk : Bool) (s : State) : Host.Outcome State Fault Refusal := .next (onDie l (attestRun trngOk) s)

/-- RANDOM. -/
def randomRun (trngOk : Bool) (ld : LD) : LD :=
  match runningOp ld.1 2 0x05 with
  | none => ld
  | some r =>
    if trngOk then
      let t := trngDraws ((r.d.length + 31) / 32) (trngShow true ld.1)
      cryptoPut r r.d.length (t.1.take r.d.length) (t.2, ld.2)
    else finish 2 r errEngine stFault 0x30 (onL trngFail ld)
def execRandom (l : LaneId) (trngOk : Bool) (s : State) : Host.Outcome State Fault Refusal := .next (onDie l (randomRun trngOk) s)

/-! Expiries, debug access, error counts. -/

/-- The held nonce expires. DEDUCED: log 99. -/
def nonceExpiry (L : Lane) : Lane :=
  match L.lcs.nonce with
  | some (_, t) => if t + nonceNs ≤ L.time then { L with lcs := { L.lcs with nonce := none } } else L
  | none => L
def execNonceExpiry (l : LaneId) (s : State) : Host.Outcome State Fault Refusal := .next (s.onLane l (whenLive nonceExpiry))

/-- SERVICE expires on lane time (R451). -/
def serviceExpiry (L : Lane) : Lane := if L.lcs.svc ∧ L.lcs.svcEnd ≤ L.time then svcEnded 1 L else L
def execServiceExpiry (l : LaneId) (s : State) : Host.Outcome State Fault Refusal :=
  .next (onDie l (fun ld => pump (onL serviceExpiry ld)) s)

/-- The cross-lane halt request follows the debug halts of the lane where HALT_OUT_EN = 1 (R177). -/
def haltShow (L : Lane) : Lane :=
  let out := L.b F.LSM_DBG_CTL_HALT_OUT_EN && (L.core0.halted || L.core1.halted || L.b F.CDSP_STAT_HALTED)
  { L with lsm := { L.lsm with haltOut := out } }

/-- A core enters or leaves its debug halt; in Locked pairing both do (R54). DESIGN CHOICE: log 31. -/
def coreHalt (core : Nat) (v : Bool) (L : Lane) : Lane :=
  let L1 := if core = 0 ∨ ¬ L.b F.TLS_MS_CFG_PAIR then { L with core0 := { L.core0 with halted := v } } else L
  if core = 1 ∨ ¬ L.b F.TLS_MS_CFG_PAIR then { L1 with core1 := { L1.core1 with halted := v } } else L1

/-- A debug or JTAG access: served in the states that permit it, else refused, in SCRAPPED too (R436, R437). Only a halt and a resume act on what
this model holds. DESIGN CHOICE: log 31. -/
def debugAccess (k : DebugKind) (L : Lane) : Lane :=
  let denied : Lane := raise 0x0FF (L.inc F.LCS_ERR_DBGDENY_CNT)
  match k with
  | .jtagBasic => L
  | .debugModule => if debugAllowed L then L else denied
  | .jtagTest => if debugAllowed L then L else denied
  | .haltRequest t =>
    if !debugAllowed L then denied
    else if t.val = 2 then dbgHalt L
    else haltShow (pwmHalt (coreHalt t.val true L))
  | .resumeRequest t =>
    if !debugAllowed L then denied
    else if L.b F.LSM_DBG_CTL_HALTED_BY_PEER then L
    else if t.val = 2 then dbgResume L
    else haltShow (coreHalt t.val false L)
def execDebugAccess (l : LaneId) (k : DebugKind) (s : State) : Host.Outcome State Fault Refusal :=
  .next (s.onLane l (fun L => if L.live || decide (L.pwr.phase = .scrapped) then debugAccess k L else L))

def lcsErrFlds : List Fld :=
  [F.LCS_ERR_SVCREF_CNT, F.LCS_ERR_DBGDENY_CNT, F.LCS_ERR_TRNG_CNT, F.LCS_ERR_LOCKLATE_CNT]
def execLcsErrClr (l : LaneId) (val : Word) (s : State) : Host.Outcome State Fault Refusal :=
  .next (s.onLane l (whenLive (clearBy lcsErrFlds val)))

end Sys2Proof.Machine
end

