-- ==== Sys2Proof/Machine/Bus.lean ====
section
/-! DEFINITION. The bus: reads and writes of registers, the PLIC and the machine timer, core accesses, crossings' transfers, domains
that wake on access (R14 to R17, R22, R28 to R32, R45 to R52, R407). -/

namespace Sys2Proof.Machine

/-! What registers show that other state holds. -/

/-- Seconds from now to an instant of lane time, rounded up. DEDUCED: log 32. -/
def secsTo (L : Lane) (t : Nat) : Nat := (t - L.time + 999999999) / 1000000000

/-- LCS registers from OTP, the boot header, SERVICE and the nonce (LCS registers). DEDUCED: log 99. -/
def lcsShow (L : Lane) : Lane :=
  let o := L.otp
  let nonce := match L.lcs.nonce with
    | some (_, t) => min 255 (secsTo L (t + nonceNs))
    | none => 0
  let L1 := (((((L.putN F.LCS_ID_LANE (laneNo L.id)).setB F.LCS_STATE_SVC L.lcs.svc).setB F.LCS_STATE_HOLD (inServiceHold L)).putN
    F.LCS_STATE_NONCE_S nonce).putN F.LCS_STATE_PEND_LC o.pendLc).putN F.LCS_STATE_LC o.lc
  let L2 := ((L1.putN F.LCS_SVC_REMAIN_REMAIN (if L.lcs.svc then min 65535 (secsTo L L.lcs.svcEnd) else 0)).put
    F.LCS_SERIAL_LO_SERIAL (lo32 o.serial)).put F.LCS_SERIAL_HI_SERIAL (hi32 o.serial)
  let L3 := (((L2.put F.LCS_CNT_FW_CNT (cntValue o.fwCnt)).put F.LCS_CNT_IMG_CNT (cntValue o.imgCnt)).putN F.LCS_CNT_LEFT_FW
    (64 - o.fwCnt.length)).putN F.LCS_CNT_LEFT_IMG (128 - o.imgCnt.length)
  let L4 := (L3.setB F.LCS_BOOT_PAIR (isSplit L)).put F.LCS_BOOT_XTAL_KHZ (bootHdr L).xtalKhz
  let pub := Config.idPub (laneNo L.id)
  let L5 := forEach (List.range 16) (fun n a => a.put (F.LCS_IDPUBn_PUB n)
    (leWord ((List.range 4).reverse.map (fun i => nth pub (4 * n + i) 0)))) L4
  forEach (List.range 8) (fun k a => a.putN (F.LCS_KEYk_STATE k) (keyAt L k).state) L5

/-- A register of the CDSP as CDSP_DBG_RDATA shows it (R209, R213). -/
def dbgData (L : Lane) : Word :=
  let n := L.n F.CDSP_DBG_RSEL_REG
  let sh := L.b F.CDSP_DBG_RSEL_BANK
  let b := if sh then L.dsp.shadow else L.dsp.main
  if !L.b F.CDSP_STAT_HALTED then 0
  else if n < 0x10 then nth b.d n 0
  else if n < 0x14 then
    let a := nth b.aF (n - 0x10) 0
    match L.n F.CDSP_DBG_RSEL_PART with
    | 0 => a.setWidth 32
    | 1 => (a >>> 32).setWidth 32
    | 2 => ((a >>> 64).setWidth 8).setWidth 32
    | _ => 0
  else if n < 0x18 then 0
  else if n < 0x20 then (nth b.pF (n - 0x18) 0).setWidth 32
  else if n < 0x28 then (nth L.dsp.bF (n - 0x20) 0).setWidth 32
  else if n < 0x30 then (nth L.dsp.lF (n - 0x28) 0).setWidth 32
  else if n < 0x38 then (nth b.mF (n - 0x30) 0).setWidth 32
  else if n < 0x3A then toW (loopCount L (n - 0x38))
  else if n = 0x3A then stWord { L with regs := (L.setB F.CDSP_STAT_BANK sh).regs }
  else 0

/-- NULLING: a case of the first three of R322 holds. -/
def nulling (L : Lane) : Bool :=
  (decide (curMode L = mStartup) && decide (substate L < 6 ∨ substate L = 7)) || L.b F.CLV_STAT_EXCL || L.b F.LSM_STAT_IMM

/-- Network time in ns; 0 while none is held. -/
def ntShown (L : Lane) : Word64 := BitVec.ofInt 64 (ntNow L)

/-- The registers of a block as a read finds them. -/
def showBlock (blk : Nat) (L : Lane) (d : StorageDie) : Lane :=
  match blk with
  | 0x08 =>
    let L1 := (L.setB F.CDSP_STAT_AGU (aguNow L)).setB F.CDSP_DB_PEND (L.bit F.CDSP_STAT_IRQ_PEND 5)
    (L1.putN F.CDSP_DBG_PC_PC (dspBank L).pc).put F.CDSP_DBG_RDATA_DATA (dbgData L)
  | 0x0C => forEach (List.range 3) (fun n a => a.setB (F.PWMn_STAT_SAFE_ACT n) (safeAct n L)) L
  | 0x10 =>
    let L1 := (L.setB F.NTE_STAT_NULLING (nulling L)).put F.NTE_MTICK_VALUE (mtick L)
    (L1.put F.NTE_LTIME_LO_VALUE (toW (L.time % 2 ^ 32))).put F.NTE_NT_LO_VALUE (lo32 (ntShown L))
  | 0x13 => steShow L d
  | 0x15 => (L.setB F.CRU_STAT_BUSY (getEng L 2).run.isSome).setB F.CRU_STAT_IDKEY L.otp.idKey
  | 0x17 => L.setB F.PPR_CTL_ALLOWED (pprAllowed L)
  | 0x18 => lcsShow L
  | 0x19 => (L.putN F.GPIO_IN_IN (gpioLevels L)).setB F.GPIO_SPI_STAT_BUSY (spiBusy L)
  | _ => L

/-! The PLIC (R52) and the machine timer (R51). -/

/-- Priority of a source, enables and threshold of a context: fields at their places of the RISC-V layout.
PRESUMED: log 14. -/
def plicBase : Nat := 0x4C000000
def plicPrio (src : Nat) : Fld := ⟨plicBase + 4 * src, 0, 3, .rw, 0⟩
def plicEnable (ctx i : Nat) : Fld := ⟨plicBase + 0x2000 + 0x80 * ctx + 4 * i, 0, 32, .rw, 0⟩
def plicThresh (ctx : Nat) : Fld := ⟨plicBase + 0x200000 + 0x1000 * ctx, 0, 3, .rw, 0⟩

/-- A context exists: context 1 in Split pairing only (R52). -/
def ctxLive (L : Lane) (ctx : Nat) : Bool := decide (ctx = 0) || (decide (ctx = 1) && L.b F.TLS_MS_CFG_PAIR)

/-- A source is enabled for a context. -/
def plicEnabled (L : Lane) (ctx src : Nat) : Bool := L.bit (plicEnable ctx (src / 32)) (src % 32)

/-- The source that a claim of a context takes: the highest priority, the lowest number among equals. PRESUMED: log 14. -/
def plicBest (L : Lane) (ctx : Nat) : Nat :=
  (List.range 128).foldl (fun best src =>
    if src ≠ 0 ∧ L.plic.pend.getLsbD src ∧ plicEnabled L ctx src ∧ L.n (plicPrio src) ≠ 0 ∧
        (best = 0 ∨ L.n (plicPrio best) < L.n (plicPrio src)) then src else best) 0

/-- A bit of the PLIC's vectors. -/
def plicBit (n : Nat) : BitVec 128 := BitVec.ofNat 128 (2 ^ n)

/-- A claim: the source is no longer pending and is being served. PRESUMED: log 14. -/
def plicClaim (ctx : Nat) (L : Lane) : Word × Lane :=
  let src := plicBest L ctx
  if src = 0 then (0, L)
  else (toW src, { L with plic := { L.plic with
    pend := L.plic.pend &&& ~~~ plicBit src, served := L.plic.served ||| plicBit src } })

/-- A completion; a source raised again while it was served becomes pending. -/
def plicComplete (ctx : Nat) (v : Word) (L : Lane) : Lane :=
  let src := v.toNat
  if 0 < src ∧ src < 128 ∧ plicEnabled L ctx src ∧ L.plic.served.getLsbD src then
    { L with plic := { L.plic with
      served := L.plic.served &&& ~~~ plicBit src
      again := L.plic.again &&& ~~~ plicBit src
      pend := if L.plic.again.getLsbD src then L.plic.pend ||| plicBit src else L.plic.pend } }
  else L

/-- A word of the PLIC read at its offset. PRESUMED: log 14. -/
def plicRead (off : Nat) (L : Lane) : Word × Lane :=
  if off < 0x200 then (L.fld (plicPrio (off / 4)), L)
  else if 0x1000 ≤ off ∧ off < 0x1010 then ((L.plic.pend >>> (8 * (off - 0x1000))).setWidth 32, L)
  else if 0x2000 ≤ off ∧ off < 0x2100 ∧ (off - 0x2000) % 0x80 < 0x10 then
    let c := (off - 0x2000) / 0x80
    (if ctxLive L c then L.fld (plicEnable c ((off - 0x2000) % 0x80 / 4)) else 0, L)
  else if off = 0x200000 ∨ off = 0x201000 then
    let c := (off - 0x200000) / 0x1000
    (if ctxLive L c then L.fld (plicThresh c) else 0, L)
  else if off = 0x200004 ∨ off = 0x201004 then
    let c := (off - 0x200004) / 0x1000
    if ctxLive L c then plicClaim c L else (0, L)
  else (0, L)

/-- A word of the PLIC written. Source 0 has no priority and no enable. PRESUMED: log 14. -/
def plicWrite (off : Nat) (v : Word) (L : Lane) : Lane :=
  if 4 ≤ off ∧ off < 0x200 then L.put (plicPrio (off / 4)) v
  else if 0x2000 ≤ off ∧ off < 0x2100 ∧ (off - 0x2000) % 0x80 < 0x10 then
    let c := (off - 0x2000) / 0x80
    let i := (off - 0x2000) % 0x80 / 4
    if ctxLive L c then L.put (plicEnable c i) (if i = 0 then v &&& 0xFFFFFFFE else v) else L
  else if off = 0x200000 ∨ off = 0x201000 then
    let c := (off - 0x200000) / 0x1000
    if ctxLive L c then L.put (plicThresh c) v else L
  else if off = 0x200004 ∨ off = 0x201004 then
    let c := (off - 0x200004) / 0x1000
    if ctxLive L c then plicComplete c v L else L
  else L

/-- The interrupt input of a context: a source that is pending, enabled and above the threshold. -/
def plicAsserts (L : Lane) (ctx : Nat) : Bool :=
  (List.range 128).any (fun src => decide (src ≠ 0) && L.plic.pend.getLsbD src && plicEnabled L ctx src &&
    decide (L.n (plicThresh ctx) < L.n (plicPrio src)))

/-- A word of the machine timer read at its offset. -/
def timerRead (off : Nat) (L : Lane) : Word :=
  match off with
  | 0x000 => lo32 L.mtimecmp0
  | 0x004 => hi32 L.mtimecmp0
  | 0x008 => if L.b F.TLS_MS_CFG_PAIR then lo32 L.mtimecmp1 else 0
  | 0x00C => if L.b F.TLS_MS_CFG_PAIR then hi32 L.mtimecmp1 else 0
  | 0xFF8 => lo32 L.mtime
  | 0xFFC => hi32 L.mtime
  | _ => 0

/-- A word of the machine timer written; the timer inputs of the cores follow. -/
def timerWrite (off : Nat) (v : Word) (L : Lane) : Lane :=
  let split := L.b F.TLS_MS_CFG_PAIR
  let L1 : Lane := match off with
    | 0x000 => { L with mtimecmp0 := cat64 (hi32 L.mtimecmp0) v }
    | 0x004 => { L with mtimecmp0 := cat64 v (lo32 L.mtimecmp0) }
    | 0x008 => if split then { L with mtimecmp1 := cat64 (hi32 L.mtimecmp1) v } else L
    | 0x00C => if split then { L with mtimecmp1 := cat64 v (lo32 L.mtimecmp1) } else L
    | 0xFF8 => { L with mtime := cat64 (hi32 L.mtime) v }
    | 0xFFC => { L with mtime := cat64 v (lo32 L.mtime) }
    | _ => L
  timerInputs 1 (timerInputs 0 L1)

/-! Registers. -/

/-- The regions of registers (R45). -/
def inBlocks (a : Nat) : Bool := inRange a 0x40000000 0x1B000
def inTimer (a : Nat) : Bool := inRange a 0x42000000 0x1000
def inPlic (a : Nat) : Bool := inRange a plicBase 0x4000000

/-- The number of the block that holds an address, and the offset in it (R48). -/
def blockOf (a : Nat) : Nat := (a - 0x40000000) / 4096
def offOf (a : Nat) : Nat := a % 4096

/-- The lock bit of a block is set (R456). -/
def blockLocked (blk : Nat) (L : Lane) : Bool :=
  match blk with
  | 0x01 => L.b F.CLK_CTL_LOCK
  | 0x02 => L.b F.LSM_CTL_LOCK
  | 0x03 => L.b F.LMMU_CTL_LOCK
  | 0x04 => L.b F.RING_CTL_LOCK
  | 0x0A => L.b (F.MEe_CTL_LOCK 0)
  | 0x0B => L.b (F.MEe_CTL_LOCK 1)
  | 0x0C => L.b F.PWM_CTL_LOCK
  | 0x0D => L.b F.VDU_CTL_LOCK
  | 0x0E => L.b F.DEI_CTL_LOCK
  | 0x12 => L.b F.CGW_CTL_LOCK
  | 0x14 => L.b F.EVR_CTL_LOCK
  | 0x1A => L.b F.CHP_CTL_LOCK
  | _ => false

/-- A read of a register: what it shows, and the effects of a read: a _LO register of lane or network time latches its _HI
register (R364), GPIO_SPI_RX pops a frame (R303), a claim (R52). Outside its lifecycle states LSM_DBG_CTL reads 0 (R177). -/
def regRead (a : Nat) (ld : LD) : Word × LD :=
  let L := ld.1
  if inPlic a then
    let r := plicRead (a - plicBase) L
    (r.1, (r.2, ld.2))
  else if inTimer a then (timerRead (offOf a) L, ld)
  else if inBlocks a then
    let w := match fldsAt a with
      | some fs => (showBlock (blockOf a) L ld.2).regWord fs
      | none => 0
    if a = 0x4000200C ∧ ¬ debugAllowed L then (0, ld)
    else if a = F.NTE_LTIME_LO_VALUE.addr then (w, (L.put F.NTE_LTIME_HI_VALUE (toW (L.time / 2 ^ 32)), ld.2))
    else if a = F.NTE_NT_LO_VALUE.addr then (w, (L.put F.NTE_NT_HI_VALUE (hi32 (ntShown L)), ld.2))
    else if a = F.GPIO_SPI_RX_RX.addr then (w, (spiPop L, ld.2))
    else (w, ld)
  else (0, ld)

/-- A write of a register's fields under their access codes (R14, R15, R17). -/
def fldsWrite (a : Nat) (v : Word) (L : Lane) : Lane :=
  match fldsAt a with
  | some fs =>
    let lk := blockLocked (blockOf a) L
    fs.foldl (fun c f => c.wrFld lk v f) L
  | none => L

/-- LSM_DBG_CTL can be written only where debug is allowed (R177). -/
def dbgCtlWrite (v : Word) (L : Lane) : Lane :=
  if debugAllowed L then
    haltShow ((L.setB F.LSM_DBG_CTL_HALT_OUT_EN (bitAt v 4)).putN F.LSM_DBG_CTL_HALT_IN_MASK (bitsOf v 0 3))
  else L

/-- A gate driver's bank is marked: an engine that holds the pattern that turns it on enters SAFE_OFF (R266). -/
def gdfWrite (e : Nat) (v : Word) (L : Lane) : Lane :=
  let L1 := fldsWrite (0x4000A038 + 0x1000 * e) v L
  if L1.n (F.MEe_STAT_REGIME e) = 7 ∧ ascBlocked e L1 then meFault e 9 (setRegime e 8 L1) else L1

/-- A core's write to a PWM generator (R277 to R279). -/
def pwmWrite (n r : Nat) (a : Nat) (v : Word) (L : Lane) : Lane :=
  let src := L.b (F.PWMn_CFG_SRC n)
  let ignored : Lane := L.inc (F.PWMn_ERR_IGN_CNT n)
  if r = 0 then
    let L1 := (L.wrFld (L.b F.PWM_CTL_LOCK) v (F.PWMn_CFG_SRC n)).wrFld (L.b F.PWM_CTL_LOCK) v (F.PWMn_CFG_PAIRING n)
    setEn n (bitAt v 0) L1
  else if r = 4 then
    if n < 2 ∧ L.b F.TLS_MS_CFG_IMG_VALID then ignored else (fldsWrite a v L).setB (F.PWMn_WSC_PER n) true
  else if r = 8 then (if bitAt v 0 then coreCommit n L else L)
  else if 0x10 ≤ r ∧ r < 0x28 then
    let k := (r - 0x10) / 4
    if n < 2 ∧ k < 3 ∧ src then ignored else (fldsWrite a v L).setBit (F.PWMn_WSC_CMP n) k true
  else if n = 2 ∧ 0x80 ≤ r ∧ r < 0xA0 then
    if src then ignored else (fldsWrite a v L).setBit (F.PWMn_WSC_CH 2) ((r - 0x80) / 4) true
  else if r = 0x44 then clearBy (pwmErrFlds n) v L
  else fldsWrite a v L

/-- A write to CGW_CHc_CFG; a channel whose EN clears stops (R357, R361). -/
def canCfgWrite (c : Nat) (a : Nat) (v : Word) (L : Lane) : Lane :=
  let L1 := fldsWrite a v L
  if L.b (F.CGW_CHc_CFG_EN c) && !L1.b (F.CGW_CHc_CFG_EN c) then canDisable c L1 else L1

/-- A write to EVR_CTL: EN, then the lock (R17, R393). -/
def evrCtlWrite (v : Word) (L : Lane) : Lane :=
  let L1 := if L.b F.EVR_CTL_LOCK then L else evrEnable (bitAt v 31) L
  L1.wrFld false v F.EVR_CTL_LOCK

/-- A write to PPR_CTL (R430). -/
def pprCtlWrite (v : Word) (L : Lane) : Lane :=
  let L1 := if bitAt v 0 then pprArm L else L
  if bitAt v 1 then pprDisarm L1 else L1

/-- A write to a Pepper injector; ignored while ARMED = 0 (R430). -/
def injWrite (i r : Nat) (a : Nat) (v : Word) (L : Lane) : Lane :=
  if r = 4 then pprInjCfg i v L else if L.b F.PPR_CTL_ARMED then fldsWrite a v L else L

/-- A write to a ring's register (R118, R129, R130, R132). -/
def ringWrite (n r : Nat) (a : Nat) (v : Word) (L : Lane) : Lane :=
  match r with
  | 0x00 => ringBase n v L
  | 0x04 => ringCfg n v L
  | 0x08 => doorbell n v L
  | 0x14 => if bitAt v 1 then ringResume n L else L
  | _ => fldsWrite a v L

/-- Clear registers of the timeline, of rejections. -/
def tlsErrFlds : List Fld := [F.TLS_ERR_BUSY_CNT, F.TLS_ERR_LOST_CNT, F.TLS_ERR_CUT_CNT, F.TLS_ERR_MISS_CNT]
def msRejFlds : List Fld := [F.TLS_MS_REJ_COUNT, F.TLS_MS_REJ_POINT, F.TLS_MS_REJ_REQ_CODE, F.TLS_MS_REJ_REASON]

/-- A write to a register of a block: the registers that have behaviour of their own, else their fields. -/
def blockWrite (a : Nat) (v : Word) (L : Lane) : Lane :=
  let off := offOf a
  match blockOf a with
  | 0x00 =>
    if off = 0x14 then aosDomReq v L else if off = 0x28 then clearBy aosErrFlds v L else if off = 0x2C then swrst v L
    else fldsWrite a v L
  | 0x01 => if off = 0x804 then clearBy xingFlds v L else fldsWrite a v L
  | 0x02 => if off = 0x0C then dbgCtlWrite v L else if off = 0xC80 then eccClr v L else fldsWrite a v L
  | 0x03 => if off = 0x04 then lmmuInv v L else if off = 0x18 then clearBy lmmuFltFlds v L else fldsWrite a v L
  | 0x04 => if off < 0x800 then ringWrite (off / 0x40) (off % 0x40) a v L else fldsWrite a v L
  | 0x05 => if off = 0x44 then clearBy tlsErrFlds v L else if off = 0x810 then clearBy msRejFlds v L else fldsWrite a v L
  | 0x06 => if off = 0x14 then clearBy clvErrFlds v L else fldsWrite a v L
  | 0x07 => if off = 0x04 ∨ off = 0x24 then clearBy (llkLinkFlds (off / 0x20)) v L else fldsWrite a v L
  | 0x08 => if off = 0x0C then clearBy cdspErrFlds v L else if off = 0x14 then cdspDb v L else fldsWrite a v L
  | 0x09 =>
    if off = 0x10 ∨ off = 0x14 then lpeSat ((off - 0x10) / 4) v L
    else if off = 0x18 ∨ off = 0x1C then lpeTripClr ((off - 0x18) / 4) v L
    else if off = 0x24 then clearBy lpeErrFlds v L else fldsWrite a v L
  | 0x0A => if off = 0x40 then clearBy (meErrFlds 0) v L else if off = 0x38 then gdfWrite 0 v L else fldsWrite a v L
  | 0x0B => if off = 0x40 then clearBy (meErrFlds 1) v L else if off = 0x38 then gdfWrite 1 v L else fldsWrite a v L
  | 0x0C => if off < 0x300 then pwmWrite (off / 0x100) (off % 0x100) a v L else fldsWrite a v L
  | 0x0D =>
    if off = 0xA4 then clearBy [F.VDU_ERR_OC_CNT] v L
    else if 0x10 ≤ off ∧ off < 0x90 ∧ off % 0x10 = 0xC then
      (if bitAt v 30 then vduEnable (ocClear ((off - 0x10) / 0x10) L) else L)
    else fldsWrite a v L
  | 0x0E => if off = 0x68 then clearBy ((List.range 4).flatMap deiErrFlds) v L else fldsWrite a v L
  | 0x0F => if off = 0x0C then clearBy [F.ADC_ERR_CONV_CNT] v L else fldsWrite a v L
  | 0x10 =>
    if off = 0x18 then clearBy nteErrFlds v L else if off = 0x850 then clearBy nteTerrFlds v L
    else if off = 0x82C then claimGo v L else fldsWrite a v L
  | 0x11 => if off = 0x18 then clearBy ssgErrFlds v L else fldsWrite a v L
  | 0x12 =>
    if off = 0x00 ∨ off = 0x100 then canCfgWrite (off / 0x100) a v L
    else if off = 0x1C ∨ off = 0x11C then clearBy (canErrFlds (off / 0x100)) v L else fldsWrite a v L
  | 0x13 => if off = 0x18 then clearBy steErrFlds v L else fldsWrite a v L
  | 0x14 => if off = 0x00 then evrCtlWrite v L else if off = 0x20 then clearBy evrErrFlds v L else fldsWrite a v L
  | 0x16 => if off = 0x10 then clearBy bscErrFlds v L else fldsWrite a v L
  | 0x17 =>
    if off = 0x00 then pprCtlWrite v L
    else if 0x100 ≤ off ∧ off < 0x180 then injWrite ((off - 0x100) / 0x10) (off % 0x10) a v L else fldsWrite a v L
  | 0x18 => if off = 0x34 then clearBy lcsErrFlds v L else fldsWrite a v L
  | 0x19 => if off = 0x404 then spiPush v L else fldsWrite a v L
  | 0x1A => if off = 0x18 then clearBy [F.CHP_STAT_ON_CNT] v L else fldsWrite a v L
  | _ => fldsWrite a v L

/-- The state after a command of the model's own. -/
def stateOf (o : Host.Outcome State Fault Refusal) (s : State) : State :=
  match o with
  | .next t => t
  | _ => s

/-- HALT, RESUME and STEP of CDSP_DBG_CTL (R209). -/
def dspDbgWrite (l : LaneId) (v : Word) (s : State) : State :=
  let s1 := if bitAt v 0 then s.onLane l dbgHalt else s
  let s2 := if bitAt v 1 then s1.onLane l dbgResume else s1
  if bitAt v 2 then stateOf (execCdspStep l s2) s2 else s2

/-- A write to a register: a ring's ABORT and a CDSP's STEP reach beyond the lane's registers. DEDUCED: log 30. -/
def regWrite (l : LaneId) (a : Nat) (v : Word) (s : State) : State :=
  if inPlic a then s.onLane l (plicWrite (a - plicBase) v)
  else if inTimer a then s.onLane l (timerWrite (offOf a) v)
  else if a = F.CDSP_DBG_CTL_HALT.addr then dspDbgWrite l v s
  else if inBlocks a then
    let off := offOf a
    let s1 := s.onLane l (blockWrite a v)
    let n := off / 0x40
    if blockOf a = 4 ∧ off < 0x800 ∧ off % 0x40 = 0x14 ∧ bitAt v 0 then onDie l (ringAbort n) s1
    else if blockOf a = 4 ∧ off < 0x800 ∧ off % 0x40 = 0x04 then
      onDie l (ringLeft n ((s.lane l).b (F.RINGn_CFG_ENABLE n))) s1
    else s1
  else s

/-- A write to a register that a live lane's software makes, at the register. DEDUCED: log 30. -/
def execRegisterWrite (l : LaneId) (addr val : Word) (s : State) : Host.Outcome State Fault Refusal :=
  .next (if (s.lane l).live ∧ addr.toNat % 4 = 0 then regWrite l addr.toNat val s else s)

/-- A write to a register that holds a lock bit (R17, R456). -/
def execLockSet (l : LaneId) (addr val : Word) (s : State) : Host.Outcome State Fault Refusal :=
  .next (if (s.lane l).live ∧ lockBits.any (fun f => decide (f.addr = addr.toNat)) then regWrite l addr.toNat val s else s)

/-! Core accesses (R45, R46). -/

/-- A region of the lane address map: extent, whether it takes accesses of 8 and 16 bits, stores, fetches. -/
structure Region where
  base : Nat
  size : Nat
  narrow : Bool
  store : Bool
  fetch : Bool
deriving DecidableEq, Repr

/-- The regions. -/
def regions : List Region :=
  [⟨0x00000000, 0x10000, true, false, true⟩, ⟨emramBase, 0x800000, true, false, true⟩, ⟨sramBase, 0x800000, true, true, true⟩,
   ⟨pBase, 0x100000, false, true, false⟩, ⟨xBase, 0x80000, false, true, false⟩, ⟨yBase, 0x80000, false, true, false⟩,
   ⟨netBase, 0x400000, true, true, false⟩, ⟨tlBase, 0x100000, false, false, false⟩, ⟨lpeBase, 0x10000, false, true, false⟩,
   ⟨0x40000000, 0x1B000, false, true, false⟩, ⟨0x42000000, 0x1000, false, true, false⟩,
   ⟨0x4C000000, 0x4000000, false, true, false⟩, ⟨mbxBase, 0x10000, false, true, false⟩,
   ⟨0x70000000, 0x1000000, true, true, false⟩]

/-- The bytes of a width. -/
def widthBytes : Width → Nat
  | .w8 => 1
  | .w16 => 2
  | .w32 => 4

/-- A core access ends in an access fault before it reaches its region's data (R46, R50, R186, R222). -/
def accessBad (L : Lane) (op : CoreOp) (w : Width) (a : Nat) : Bool :=
  match regions.find? (fun r => inRange a r.base r.size) with
  | none => true
  | some r =>
    (decide (w ≠ .w32) && !r.narrow) || decide (a % widthBytes w ≠ 0) ||
    (match op with
     | .load => false
     | .fetch => !r.fetch
     | .store => !r.store || inRange a (mbxBase + 0x8000) 0x8000 ||
        (L.b F.TLS_MS_CFG_IMG_VALID && (inRange a pBase 0x100000 || inRange a lpeBase 0x10000)))

/-- The domain that an access needs, none for the always-on island (R26, R402). -/
def accessDomain (a : Nat) : Option Nat :=
  if inBlocks a then
    match blockOf a with
    | 0x00 => none
    | 0x01 => none
    | 0x18 => none
    | 0x02 => some 2
    | 0x05 => some 2
    | 0x06 => some 1
    | 0x08 => some 1
    | 0x07 => some 3
    | 0x10 => some 3
    | 0x11 => some 3
    | 0x12 => some 3
    | 0x13 => some 4
    | 0x14 => some 4
    | 0x03 => some 0
    | 0x04 => some 0
    | 0x15 => some 0
    | 0x16 => some 0
    | 0x17 => some 0
    | _ => some 2
  else some (domainOf a)

/-- The address of a register in the always-on island (R30). -/
def inAon (a : Nat) : Bool := inBlocks a && (accessDomain a).isNone

/-- The data of a store, cut to its width, as bytes. -/
def storeBytes (w : Width) (v : Word) : List Byte := (wordBytes v).take (widthBytes w)

/-- How a core's access that a memory fails ends: an uncorrectable error of a lane memory in an access fault, all else in a bus
error (R39, R379, R407). -/
def memFail (a e : Nat) : BusResp := if e = errEcc ∧ ¬ inRange a 0x70000000 0x1000000 then .accessFault else .busError

/-- A core's access to memory or to the staging window: the response, and the lane and die after it (R22, R38, R39). The reserved
words of LPE memory keep reading 0 (R221).
DEDUCED: log 32. -/
def memAccess (op : CoreOp) (w : Width) (a : Nat) (v : Word) (ld : LD) : BusResp × LD :=
  let n := widthBytes w
  match op with
  | .store =>
    if inRange a (lpeBase + 0xD00) 0x300 then (.ok 0, ld) else
    match physWrite a (storeBytes w v) ld with
    | (.ok _, ld1) => (.ok 0, ld1)
    | (.error e, ld1) => (memFail a e, ld1)
  | _ =>
    match physRead a n ld with
    | (.ok bs, ld1) => (.ok (leWord bs), ld1)
    | (.error e, ld1) => (memFail a e, ld1)

/-! Caches (R37 to R40). -/

/-- What the caches hold words of: the Boot ROM, eMRAM and system SRAM. DESIGN CHOICE: log 104. -/
def cacheable (a : Nat) : Bool := decide (a < 0x10000) || inRange a emramBase 0x800000 || inRange a sramBase 0x800000

/-- The cache that an access goes through: 8 for fetches, 9 for loads of what is cacheable. DESIGN CHOICE: log 104. -/
def cacheOf (op : CoreOp) (a : Nat) : Option Nat :=
  if cacheable a then
    match op with
    | .fetch => some 8
    | .load => some 9
    | .store => none
  else none

/-- The words that one cache holds: 32 KiB of its ECC words (R37). -/
def cacheSize (m : Nat) : Nat := 32768 / eccBytes m

/-- A word belongs to a cache of a core. -/
def ofCache (m c : Nat) (x : CacheWord) : Bool := decide (x.m = m ∧ x.core = c)

/-- The word at `a` in a cache, if it is there. -/
def cacheFind (m c a : Nat) (L : Lane) : Option CacheWord :=
  L.cache.find? (fun x => ofCache m c x && decide (x.addr = a))

/-- The word at `a` of a cache is invalid. -/
def cacheDrop (m c a : Nat) (L : Lane) : Lane :=
  { L with cache := L.cache.filter (fun x => !(ofCache m c x && decide (x.addr = a))) }

/-- A word enters a cache; in a full cache the oldest word makes room. DESIGN CHOICE: log 104. -/
def cacheAdd (m c a : Nat) (L : Lane) : Lane :=
  let full := decide (cacheSize m ≤ (L.cache.filter (ofCache m c)).length)
  let rest := match L.cache.find? (ofCache m c) with
    | some old => if full then L.cache.filter (fun x => !decide (x = old)) else L.cache
    | none => L.cache
  { L with cache := rest ++ [⟨m, c, a, none⟩] }

/-- A cached word read: what is found there is counted and raises its source; a correctable error is repaired (R38, R39). -/
def cacheRead (m c a : Nat) (L : Lane) : Bool × Lane :=
  let p := eccInject m a L
  match upsetOf ((cacheFind m c a L).bind (fun x => x.upset)) p.1 with
  | none => (true, p.2)
  | some .single =>
    (true, eccRaise .single m a { p.2 with
      cache := p.2.cache.map (fun x => if ofCache m c x && decide (x.addr = a) then { x with upset := none } else x) })
  | some k => (false, eccRaise k m a p.2)

/-- A word is fetched from the memory behind a cache, where it is not cached; the answer says whether it is there (R39). -/
def cacheFill (m c a : Nat) (ld : LD) : Option BusResp × LD :=
  match cacheFind m c a ld.1 with
  | some _ => (none, ld)
  | none =>
    match physRead a (eccBytes m) ld with
    | (.ok _, ld1) => (none, (cacheAdd m c a ld1.1, ld1.2))
    | (.error e, ld1) => (some (memFail a e), ld1)

/-- A load or fetch through a cache: a word with an uncorrectable error is invalidated and fetched again once; a second one ends in
an access fault (R39). DESIGN CHOICE: log 104. -/
def cachedRead (m c a n : Nat) (ld : LD) : BusResp × LD :=
  let w := a - a % eccBytes m
  match cacheFill m c w ld with
  | (some e, ld1) => (e, ld1)
  | (none, ld1) =>
    let r := cacheRead m c w ld1.1
    if r.1 then (.ok (leWord (r.2.rdBytes a n)), (r.2, ld1.2))
    else
      match cacheFill m c w (cacheDrop m c w r.2, ld1.2) with
      | (some e, ld2) => (e, ld2)
      | (none, ld2) =>
        let q := cacheRead m c w ld2.1
        if q.1 then (.ok (leWord (q.2.rdBytes a n)), (q.2, ld2.2)) else (.accessFault, (cacheDrop m c w q.2, ld2.2))

/-- Words that a store has written are no longer cached. DESIGN CHOICE: log 104. -/
def cacheStored (a n : Nat) (L : Lane) : Lane :=
  { L with cache := L.cache.filter (fun x => !decide (x.addr < a + n ∧ a < x.addr + eccBytes x.m)) }

/-- A core's access to memory, through its caches. DESIGN CHOICE: log 104. -/
def coreMem (c : Nat) (op : CoreOp) (w : Width) (a : Nat) (v : Word) (ld : LD) : BusResp × LD :=
  match cacheOf op a with
  | some m => cachedRead m c a (widthBytes w) ld
  | none =>
    let r := memAccess op w a v ld
    if op = .store ∧ cacheable a then (r.1, (cacheStored a (widthBytes w) r.2.1, r.2.2)) else r

/-- A core's access at its destination: a register of the always-on island over crossing 0x10, other registers, memory (R30, R45). -/
def coreDo (l : LaneId) (c : Nat) (op : CoreOp) (w : Width) (a : Nat) (v : Word) (s : State) : State :=
  if inAon a then
    match op with
    | .store => s.onLane l (fun L => coreResp c (.ok 0) { L with posted := L.posted ++ [⟨none, toW a, v⟩] })
    | _ => s.onLane l (fun L => coreResp c .waiting { L with posted := L.posted ++ [⟨some c, toW a, 0⟩] })
  else if inBlocks a || inTimer a || inPlic a then
    match op with
    | .store => (regWrite l a v s).onLane l (coreResp c (.ok 0))
    | _ => s.onLaneDie l (fun L d =>
        let r := regRead a (L, d)
        (coreResp c (.ok r.1) r.2.1, r.2.2))
  else s.onLaneDie l (fun L d =>
    let r := coreMem c op w a v (L, d)
    (coreResp c r.1 r.2.1, r.2.2))

/-- The crossings that a core's access takes to a domain and its answer back (R29); none within the core island. -/
def xingsOf (d : Nat) : Option (Nat × Nat) :=
  match d with
  | 1 => some (0x01, 0x02)
  | 2 => some (0x03, 0x04)
  | 3 => some (0x07, 0x08)
  | 4 => some (0x0D, 0x0E)
  | _ => none

/-- The crossings of an access to an address; none within the core island and for the always-on island, whose transfers are commands
of their own. -/
def accXings (a : Nat) : Option (Nat × Nat) := (accessDomain a).bind xingsOf

/-- Pepper meets the transfer on a crossing: whether it spoils its parity, and the lane after it (R431). -/
def xingPass (id : Nat) (L : Lane) : Bool × Lane :=
  let p := pepper 7 id (fun _ => true) (pepper 1 id (fun _ => true) L).2
  (p.1.isSome, p.2)

/-- The request of an access fails its parity check: it is discarded; a read ends in a bus error, a write is not retried (R32). -/
def reqSpoilt (c id : Nat) (op : CoreOp) (L : Lane) : Lane :=
  coreResp c (if op = .store then .ok 0 else .busError) (xingSpoilt id L)

/-- A core's access where its domain is up: over the crossing to its island, and for a read with the answer over the crossing
back (R27, R32). -/
def coreGo (l : LaneId) (c : Nat) (op : CoreOp) (w : Width) (a : Nat) (v : Word) (s : State) : State :=
  match accXings a with
  | none => coreDo l c op w a v s
  | some (req, ret) =>
    let p := xingPass req (s.lane l)
    let s1 := s.setLane l p.2
    if p.1 then s1.onLane l (reqSpoilt c req op)
    else
      let s2 := coreDo l c op w a v s1
      if op = .store then s2
      else s2.onLane l (fun L =>
        let q := xingPass ret L
        if q.1 then coreResp c .busError (xingSpoilt ret q.2) else q.2)

/-- A core may make an access: it runs, does not wait for an answer, and is no checker of the other core (R54, R55, R445). -/
def coreMay (L : Lane) (c : Nat) : Bool :=
  coresRun L && !(coreOf L c).stopped && !(coreOf L c).halted && decide ((coreOf L c).resp ≠ .waiting) &&
    (decide (c = 0) || L.b F.TLS_MS_CFG_PAIR)

/-- A core access: refused with an access fault, held while its domain is raised, ended at a domain that has failed, or made (R39,
R46, R407). DEDUCED: log 30. -/
def coreAccess (l : LaneId) (c : Nat) (op : CoreOp) (w : Width) (a : Nat) (v : Word) (s : State) : State :=
  let L := s.lane l
  if coreMay L c then
    if accessBad L op w a then s.onLane l (coreResp c .accessFault)
    else
      match accessDomain a with
      | none => coreGo l c op w a v s
      | some d =>
        if L.bit F.AOS_STAT_FAIL d then s.onLane l (coreResp c .busError)
        else if L.pwr.retained.getLsbD d then
          s.onLane l (fun L => setCore c { coreOf L c with resp := .waiting, held := some ⟨op, w, toW a, v⟩ } (wakeDomain d L))
        else coreGo l c op w a v s
  else s
def execCoreAccess (l : LaneId) (core : Fin 2) (op : CoreOp) (w : Width) (addr data : Word) (s : State) :
    Host.Outcome State Fault Refusal := .next (coreAccess l core.val op w addr.toNat data s)

/-- A core access to the storage staging window (R22, R379). -/
def execStagingWindowAccess (l : LaneId) (core : Fin 2) (op : CoreOp) (w : Width) (off : BitVec 24) (data : Word) (s : State) :
    Host.Outcome State Fault Refusal := .next (coreAccess l core.val op w (0x70000000 + off.toNat) data s)

/-! Crossings (R28 to R32). -/

/-- The transfer at the front of crossing 0x10 reaches the always-on island: a posted write takes effect, a read's answer sets out
on crossing 0x11; a transfer on 0x11 answers its core. DEDUCED: log 29. -/
def xingDeliver (l : LaneId) (id : Nat) (s : State) : State :=
  let L := s.lane l
  if id = 0x10 then
    match L.posted with
    | [] => s
    | p :: rest =>
      let s1 := s.setLane l { L with posted := rest }
      match p.reader with
      | none => regWrite l p.addr.toNat p.val s1
      | some c => s1.onLaneDie l (fun L d =>
          let r := regRead p.addr.toNat (L, d)
          ({ r.2.1 with aosRet := r.2.1.aosRet ++ [(c, r.1)] }, r.2.2))
  else if id = 0x11 then
    match L.aosRet with
    | [] => s
    | p :: rest => s.setLane l (if (coreOf L p.1).resp = .waiting then coreResp p.1 (.ok p.2) { L with aosRet := rest }
        else { L with aosRet := rest })
  else s

/-- A core's access that a crossing carries can be on its way: the core may make it, the map allows it, its domain is up, and the
crossing is one of its two. The answer says whether it is the request. -/
def accOn (L : Lane) (id : Nat) (x : BusAcc) : Option Bool :=
  let a := x.addr.toNat
  if coreMay L x.core.val && !accessBad L x.op x.w a then
    match accessDomain a, accXings a with
    | some d, some (req, ret) =>
      if L.bit F.AOS_STAT_FAIL d || L.pwr.retained.getLsbD d then none
      else if id = req then some true
      else if id = ret ∧ x.op ≠ .store then some false
      else none
    | _, _ => none
  else none

/-- The access that a crossing carries, with whether the crossing takes its request. -/
def accCarried (L : Lane) (id : Nat) (acc : Option BusAcc) : Option (BusAcc × Bool) :=
  acc.bind (fun x => (accOn L id x).map (fun r => (x, r)))

/-- A transfer of a core's access fails its parity check: a request does not reach its destination, an answer is lost after the
access has been made (R32). -/
def accSpoilt (l : LaneId) (id : Nat) (x : BusAcc) (req : Bool) (s : State) : State :=
  if req then s.onLane l (reqSpoilt x.core.val id x.op)
  else (coreDo l x.core.val x.op x.w x.addr.toNat x.data s).onLane l (fun L => coreResp x.core.val .busError (xingSpoilt id L))

/-- A handshake transfer completes at its destination, or is discarded for parity. Pepper may delay it or spoil its parity (R431).
A core's access that the transfer carries goes on to its end, meeting Pepper on each of its crossings. DEDUCED: log 29. -/
def crossingTransfer (l : LaneId) (id : Nat) (parityOk : Bool) (acc : Option BusAcc) (s : State) : State :=
  let L := s.lane l
  if outOfReset L ∧ xingId id then
    match accCarried L id acc with
    | some (x, req) =>
      if parityOk then coreGo l x.core.val x.op x.w x.addr.toNat x.data s
      else accSpoilt l id x req (s.setLane l (xingPass id L).2)
    | none =>
      let p := xingPass id L
      let s1 := s.setLane l p.2
      if parityOk ∧ p.1 = false then xingDeliver l id s1 else s1.onLane l (xingParity id)
  else s
def execCrossingTransfer (l : LaneId) (x : Crossed) (parityOk : Bool) (s : State) : Host.Outcome State Fault Refusal :=
  .next (crossingTransfer l x.id.toNat parityOk x.acc s)

/-- A crossing is abandoned, and the core's access that it carried ends in a bus error: a request without effect at its destination,
an answer after the access has been made (R31). -/
def xingAbandon (l : LaneId) (id : Nat) (acc : Option BusAcc) (s : State) : State :=
  let L := s.lane l
  if outOfReset L ∧ xingId id ∧ ¬ xingWakes id L then
    match accCarried L id acc with
    | some (x, req) =>
      let s1 := if req then s else coreDo l x.core.val x.op x.w x.addr.toNat x.data s
      s1.onLane l (fun L => coreResp x.core.val .busError (xingTimeout id L))
    | none => s.onLane l (xingTimeout id)
  else s
def execXingTimeout (l : LaneId) (x : Crossed) (s : State) : Host.Outcome State Fault Refusal :=
  .next (xingAbandon l x.id.toNat x.acc s)

/-! Domains that wake on access (R407). -/

/-- A core's held access that waits for domain `d`. -/
def heldFor (L : Lane) (c d : Nat) : Option HeldAcc :=
  match (coreOf L c).held with
  | some h => if accessDomain h.addr.toNat = some d then some h else none
  | none => none

/-- A core's held access is made, now that its domain is up. -/
def heldGo (l : LaneId) (c d : Nat) (s : State) : State :=
  match heldFor (s.lane l) c d with
  | some h => coreGo l c h.op h.w h.addr.toNat h.data s
  | none => s

/-- A core's held access ends in a bus error. -/
def heldFail (c d : Nat) (L : Lane) : Lane :=
  match heldFor L c d with
  | some _ => coreResp c .busError L
  | none => L

/-- A retained domain that an access has raised reports ready: the waiting accesses complete together. With domain 0 the cores go on
(R411). DEDUCED: log 28. -/
def domainWoken (l : LaneId) (d : Nat) (s : State) : State :=
  let L := s.lane l
  if L.pwr.retained.getLsbD d ∧ L.pwr.waking.getLsbD d ∧ ¬ L.bit F.AOS_STAT_FAIL d then
    let m : BitVec 7 := BitVec.ofNat 7 (2 ^ d)
    let s1 := s.setLane l { (L.setBit F.AOS_STAT_ON d true) with
      pwr := { L.pwr with retained := L.pwr.retained &&& ~~~ m, waking := L.pwr.waking &&& ~~~ m } }
    let s2 := if d = 0 ∧ L.pwr.phase = .waking then onDie l wokenCore s1 else s1
    heldGo l 1 d (heldGo l 0 d s2)
  else s
def execDomainWakeOnAccess (l : LaneId) (d : Fin 7) (s : State) : Host.Outcome State Fault Refusal :=
  .next (domainWoken l d.val s)

/-- A waking domain is not ready 500 us after the access: waiting accesses end in bus errors, FAIL is set, source 0x001.
DEDUCED: log 28. -/
def domainWakeTimeout (d : Nat) (L : Lane) : Lane :=
  if L.pwr.retained.getLsbD d ∧ L.pwr.waking.getLsbD d ∧ ¬ L.bit F.AOS_STAT_FAIL d then
    let L1 := raise 0x001 (L.setBit F.AOS_STAT_FAIL d true)
    heldFail 1 d (heldFail 0 d
      { L1 with pwr := { L1.pwr with waking := L1.pwr.waking &&& ~~~ BitVec.ofNat 7 (2 ^ d) } })
  else L
def execDomainWakeTimeout (l : LaneId) (d : Fin 7) (s : State) : Host.Outcome State Fault Refusal :=
  .next (s.onLane l (domainWakeTimeout d.val))

end Sys2Proof.Machine
end

