-- ==== Sys2Proof/Machine/RingFetch.lean ====
section
/-! DEFINITION. The fetch of a ring's head descriptor, and the boundaries of a running one (R122, R131 to R135). -/

namespace Sys2Proof.Machine

/-- The checks that each engine adds at fetch (step 7 of R132). DEDUCED: log 56. -/
def parmsOf (role : Nat) (r : Run) (ld : LD) : Option (Nat × Nat × Word) :=
  match role with
  | 0 => parmCopy r
  | 1 => parmStorage r ld
  | 3 => parmMailbox r
  | 4 => parmEvr r
  | 5 => parmBist r ld
  | 7 => parmStage r ld.1
  | 8 => parmCan r ld.1
  | 9 => parmFw r ld.1
  | _ => none

/-- The engine takes a new descriptor of ring `n` now: the ring outranks all that is QUEUED, and the engine is free and the ring ranks
first, or the ring outranks what the engine runs and what runs can be pre-empted (R122, R134, R135). DEDUCED: log 52. -/
def mayFetch (n : Nat) (L : Lane) : Bool :=
  let role := ringRole L n
  let e := getEng L role
  if !overQueued L e (ringPrio L n) || decide (nextRing L (engineOf role) ≠ some n) then false
  else
    match e.run with
    | none => match bestSlot e with
      | some p => decide (ringPrio L n < p)
      | none => true
    | some r =>
      r.d.preemptible && !r.d.fence && decide (roleBoundary (ringRole L r.ring) ≠ 0) &&
        decide (ringPrio L n < ringPrio L r.ring)

/-- The fetch of ring `n`: its checks, the descriptor's start or end, and an audit sector taken by an accepted WRITE (R376). A free
engine then goes on with the work that it holds. DEDUCED: log 52. -/
def descriptorFetch (n : Nat) (ld : LD) : LD :=
  let role := ringRole ld.1 n
  if mayFetch n ld.1 && !((getEng ld.1 role).run.isNone && captureWaits role ld) then
    let ld1 := fetchRing parmsOf n ld
    let e := getEng ld1.1 role
    engineNext role (match role, (e.run.toList ++ e.queued).find? (fun r => decide (r.ring = n)) with
      | 1, some r => acceptStorage r ld1
      | _, _ => ld1)
  else engineNext role ld
def execDescriptorFetch (l : LaneId) (n : Fin 32) (s : State) : Host.Outcome State Fault Refusal :=
  .next (onDie l (descriptorFetch n.val) s)

/-- One unit of a descriptor whose role has boundaries, where its end is not in that unit (R118, R135). DEDUCED: log 53. -/
def boundaryUnit (role : Nat) (r : Run) (ld : LD) : LD :=
  let left := r.d.length - r.progress
  match role, r.d.opcode with
  | 0, _ => if 4096 < left then copyUnit r ld else ld
  | 1, 0x01 => if 4 < dCount r - r.progress / 4096 then readUnit r ld else ld
  | 1, 0x02 => if 4 < dCount r - r.progress / 4096 then writeUnit r ld else ld
  | 1, 0x03 => if 4 < dCount r - r.progress then trimUnit r ld else ld
  | 1, 0x04 => if 4 < dCount r - r.progress then verifyUnit r ld else ld
  | 2, 0x01 => if 4096 < left then hashUnit true r ld else ld
  | 2, 0x03 => if 4096 < left ∧ ld.1.otp.lc ≠ 3 then hashUnit true r ld else ld
  | _, _ => ld

/-- The running descriptor of a role's engine reaches its next boundary (R135). DEDUCED: log 53. -/
def descriptorBoundary (role : Nat) (ld : LD) : LD :=
  match (getEng ld.1 role).run with
  | some r => if ringRole ld.1 r.ring = role then boundaryUnit role r ld else ld
  | none => ld
def execDescriptorBoundary (l : LaneId) (role : Fin 10) (s : State) : Host.Outcome State Fault Refusal :=
  .next (onDie l (descriptorBoundary role.val) s)

end Sys2Proof.Machine
end

