-- ==== Sys2Proof/Machine/Dispatch.lean ====
section
/-! DEFINITION. The command table: one arm for each command. -/

namespace Sys2Proof.Machine

def exec (i : Instr) (s : State) : Host.Outcome State Fault Refusal :=
  match i with
  | .aosPowerOn l => Sys2Proof.Machine.execAosPowerOn l s
  | .supplyWarn l sup => Sys2Proof.Machine.execSupplyWarn l sup s
  | .supplyBelowReset l sup => Sys2Proof.Machine.execSupplyBelowReset l sup s
  | .pgSeen l => Sys2Proof.Machine.execPgSeen l s
  | .pgTmo l => Sys2Proof.Machine.execPgTmo l s
  | .pgFall l => Sys2Proof.Machine.execPgFall l s
  | .rstNLow l => Sys2Proof.Machine.execRstNLow l s
  | .aosSwrst l val => Sys2Proof.Machine.execAosSwrst l val s
  | .domainReady l d => Sys2Proof.Machine.execDomainReady l d s
  | .domainAttemptTimeout l d => Sys2Proof.Machine.execDomainAttemptTimeout l d s
  | .crystalReady l khz => Sys2Proof.Machine.execCrystalReady l khz s
  | .crystalTimeout l => Sys2Proof.Machine.execCrystalTimeout l s
  | .pllLocked l => Sys2Proof.Machine.execPllLocked l s
  | .pllAttemptTimeout l => Sys2Proof.Machine.execPllAttemptTimeout l s
  | .bootRomDigestCheck l ok => Sys2Proof.Machine.execBootRomDigestCheck l ok s
  | .clockLost l why => Sys2Proof.Machine.execClockLost l why s
  | .domainWakeOnAccess l d => Sys2Proof.Machine.execDomainWakeOnAccess l d s
  | .domainWakeTimeout l d => Sys2Proof.Machine.execDomainWakeTimeout l d s
  | .aosDomReq l val => Sys2Proof.Machine.execAosDomReq l val s
  | .crossingTransfer l x parityOk => Sys2Proof.Machine.execCrossingTransfer l x parityOk s
  | .xingTimeout l x => Sys2Proof.Machine.execXingTimeout l x s
  | .clkXingClr l val => Sys2Proof.Machine.execClkXingClr l val s
  | .claimIsoLost l peer g => Sys2Proof.Machine.execClaimIsoLost l peer g s
  | .coreAccess l core op w addr data => Sys2Proof.Machine.execCoreAccess l core op w addr data s
  | .lsmEccClr l val => Sys2Proof.Machine.execLsmEccClr l val s
  | .machineTimerInterrupt l core => Sys2Proof.Machine.execMachineTimerInterrupt l core s
  | .coreLockstep l => Sys2Proof.Machine.execCoreLockstep l s
  | .stagingWindowAccess l core op w off data => Sys2Proof.Machine.execStagingWindowAccess l core op w off data s
  | .modeRequest l => Sys2Proof.Machine.execModeRequest l s
  | .ckpt l => Sys2Proof.Machine.execCkpt l s
  | .bankLoadComplete l => Sys2Proof.Machine.execBankLoadComplete l s
  | .nop l => Sys2Proof.Machine.execNop l s
  | .mid l => Sys2Proof.Machine.execMid l s
  | .irq l => Sys2Proof.Machine.execIrq l s
  | .pwmAlign a cnt count => Sys2Proof.Machine.execPwmAlign a cnt count s
  | .adcSeq l => Sys2Proof.Machine.execAdcSeq l s
  | .meStep l busy => Sys2Proof.Machine.execMeStep l busy s
  | .lpeRun l busy => Sys2Proof.Machine.execLpeRun l busy s
  | .vduUpdate l busy => Sys2Proof.Machine.execVduUpdate l busy s
  | .cdspTask l => Sys2Proof.Machine.execCdspTask l s
  | .netTx a => Sys2Proof.Machine.execNetTx a s
  | .netRx a => Sys2Proof.Machine.execNetRx a s
  | .canTx a => Sys2Proof.Machine.execCanTx a s
  | .sample a => Sys2Proof.Machine.execSample a s
  | .bistWin a => Sys2Proof.Machine.execBistWin a s
  | .evrMark l => Sys2Proof.Machine.execEvrMark l s
  | .cycleStart l => Sys2Proof.Machine.execCycleStart l s
  | .cycleStartEvent l delta => Sys2Proof.Machine.execCycleStartEvent l delta s
  | .cycleStartMissing l => Sys2Proof.Machine.execCycleStartMissing l s
  | .imageVerification l => Sys2Proof.Machine.execImageVerification l s
  | .imageCopy l => Sys2Proof.Machine.execImageCopy l s
  | .stageErase l => Sys2Proof.Machine.execStageErase l s
  | .stageWrite l => Sys2Proof.Machine.execStageWrite l s
  | .stageVerify l => Sys2Proof.Machine.execStageVerify l s
  | .stageActivate l => Sys2Proof.Machine.execStageActivate l s
  | .doorbell l n val => Sys2Proof.Machine.execDoorbell l n val s
  | .ringEnable l n val => Sys2Proof.Machine.execRingEnable l n val s
  | .ringAbort l n => Sys2Proof.Machine.execRingAbort l n s
  | .ringResume l n => Sys2Proof.Machine.execRingResume l n s
  | .descriptorFetch l n => Sys2Proof.Machine.execDescriptorFetch l n s
  | .descriptorBoundary l role => Sys2Proof.Machine.execDescriptorBoundary l role s
  | .copy l => Sys2Proof.Machine.execCopy l s
  | .fill l => Sys2Proof.Machine.execFill l s
  | .lmmuInv l val => Sys2Proof.Machine.execLmmuInv l val s
  | .lmmuInvComplete l => Sys2Proof.Machine.execLmmuInvComplete l s
  | .lmmuFltClr l val => Sys2Proof.Machine.execLmmuFltClr l val s
  | .formTransfer l link x => Sys2Proof.Machine.execFormTransfer l link x s
  | .sampleTransfer l link x => Sys2Proof.Machine.execSampleTransfer l link x s
  | .sampleDeadline l => Sys2Proof.Machine.execSampleDeadline l s
  | .voteTransfer l link x => Sys2Proof.Machine.execVoteTransfer l link x s
  | .voteDeadline l => Sys2Proof.Machine.execVoteDeadline l s
  | .voteRel l => Sys2Proof.Machine.execVoteRel l s
  | .mirrorTransfer l link x => Sys2Proof.Machine.execMirrorTransfer l link x s
  | .catchupTransfer l link x => Sys2Proof.Machine.execCatchupTransfer l link x s
  | .mailboxTransfer l link x => Sys2Proof.Machine.execMailboxTransfer l link x s
  | .timeTransfer l link x stamp => Sys2Proof.Machine.execTimeTransfer l link x stamp s
  | .linkDown l link => Sys2Proof.Machine.execLinkDown l link s
  | .blockLockLoss l link => Sys2Proof.Machine.execBlockLockLoss l link s
  | .linkTraining l link res => Sys2Proof.Machine.execLinkTraining l link res s
  | .formWaitExpiry l => Sys2Proof.Machine.execFormWaitExpiry l s
  | .mbSend l => Sys2Proof.Machine.execMbSend l s
  | .reint l val => Sys2Proof.Machine.execReint l val s
  | .reintBistComplete l => Sys2Proof.Machine.execReintBistComplete l s
  | .crossLaneHaltRequest l peer => Sys2Proof.Machine.execCrossLaneHaltRequest l peer s
  | .clvErrClr l val => Sys2Proof.Machine.execClvErrClr l val s
  | .llkLinkClr l link val => Sys2Proof.Machine.execLlkLinkClr l link val s
  | .lsmRawClear l n val => Sys2Proof.Machine.execLsmRawClear l n val s
  | .tend l => Sys2Proof.Machine.execTend l s
  | .cdspOverrun l => Sys2Proof.Machine.execCdspOverrun l s
  | .illegalInstruction l => Sys2Proof.Machine.execIllegalInstruction l s
  | .cdspInterruptEntry l => Sys2Proof.Machine.execCdspInterruptEntry l s
  | .cdspDb l val => Sys2Proof.Machine.execCdspDb l val s
  | .cdspLockstep l => Sys2Proof.Machine.execCdspLockstep l s
  | .cdspHalt l => Sys2Proof.Machine.execCdspHalt l s
  | .cdspResume l => Sys2Proof.Machine.execCdspResume l s
  | .cdspStep l => Sys2Proof.Machine.execCdspStep l s
  | .cdspErrClr l val => Sys2Proof.Machine.execCdspErrClr l val s
  | .macPairNop l x y => Sys2Proof.Machine.execMacPairNop l x y s
  | .mpy l m => Sys2Proof.Machine.execMpy l m s
  | .mac l m => Sys2Proof.Machine.execMac l m s
  | .msu l m => Sys2Proof.Machine.execMsu l m s
  | .macsu l m => Sys2Proof.Machine.execMacsu l m s
  | .clr l mpair x y => Sys2Proof.Machine.execClr l mpair x y s
  | .asr l mpair count x y => Sys2Proof.Machine.execAsr l mpair count x y s
  | .asl l mpair count x y => Sys2Proof.Machine.execAsl l mpair count x y s
  | .lda l mpair mra mrc x y => Sys2Proof.Machine.execLda l mpair mra mrc x y s
  | .ld l bus reg ptr upd => Sys2Proof.Machine.execLd l bus reg ptr upd s
  | .ldp l bus reg ptr upd => Sys2Proof.Machine.execLdp l bus reg ptr upd s
  | .st l bus reg ptr upd => Sys2Proof.Machine.execSt l bus reg ptr upd s
  | .stp l bus reg ptr upd => Sys2Proof.Machine.execStp l bus reg ptr upd s
  | .sta l bus acc ptr upd => Sys2Proof.Machine.execSta l bus acc ptr upd s
  | .ldc l reg ptr upd => Sys2Proof.Machine.execLdc l reg ptr upd s
  | .ldi l rdst imm => Sys2Proof.Machine.execLdi l rdst imm s
  | .mov l rdst rsa => Sys2Proof.Machine.execMov l rdst rsa s
  | .add l rd ra rb => Sys2Proof.Machine.execAdd l rd ra rb s
  | .sub l rd ra rb => Sys2Proof.Machine.execSub l rd ra rb s
  | .adds l rd ra rb => Sys2Proof.Machine.execAdds l rd ra rb s
  | .subs l rd ra rb => Sys2Proof.Machine.execSubs l rd ra rb s
  | .addi l rd ra imm => Sys2Proof.Machine.execAddi l rd ra imm s
  | .and l rd ra rb => Sys2Proof.Machine.execAnd l rd ra rb s
  | .or l rd ra rb => Sys2Proof.Machine.execOr l rd ra rb s
  | .xor l rd ra rb => Sys2Proof.Machine.execXor l rd ra rb s
  | .shl l rd ra imm => Sys2Proof.Machine.execShl l rd ra imm s
  | .shls l rd ra imm => Sys2Proof.Machine.execShls l rd ra imm s
  | .shra l rd ra imm => Sys2Proof.Machine.execShra l rd ra imm s
  | .shrl l rd ra imm => Sys2Proof.Machine.execShrl l rd ra imm s
  | .min l rd ra rb => Sys2Proof.Machine.execMin l rd ra rb s
  | .max l rd ra rb => Sys2Proof.Machine.execMax l rd ra rb s
  | .abss l rd ra => Sys2Proof.Machine.execAbss l rd ra s
  | .negs l rd ra => Sys2Proof.Machine.execNegs l rd ra s
  | .selneg l rd ra rb => Sys2Proof.Machine.execSelneg l rd ra rb s
  | .selz l rd ra rb => Sys2Proof.Machine.execSelz l rd ra rb s
  | .clamp l rd ra imm => Sys2Proof.Machine.execClamp l rd ra imm s
  | .cdspNop l => Sys2Proof.Machine.execCdspNop l s
  | .jmp l target => Sys2Proof.Machine.execJmp l target s
  | .call l target => Sys2Proof.Machine.execCall l target s
  | .ret l => Sys2Proof.Machine.execRet l s
  | .loop l count target => Sys2Proof.Machine.execLoop l count target s
  | .rep l count => Sys2Proof.Machine.execRep l count s
  | .rti l => Sys2Proof.Machine.execRti l s
  | .dbell l code => Sys2Proof.Machine.execDbell l code s
  | .bkpt l => Sys2Proof.Machine.execBkpt l s
  | .lpeSat l n val => Sys2Proof.Machine.execLpeSat l n val s
  | .lpeTrip l n val => Sys2Proof.Machine.execLpeTrip l n val s
  | .lpeErrClr l val => Sys2Proof.Machine.execLpeErrClr l val s
  | .adcConversionComplete l pair n code => Sys2Proof.Machine.execAdcConversionComplete l pair n code s
  | .adcSequenceComplete l pair => Sys2Proof.Machine.execAdcSequenceComplete l pair s
  | .regimeSwitch l e => Sys2Proof.Machine.execRegimeSwitch l e s
  | .captureTimeout l e => Sys2Proof.Machine.execCaptureTimeout l e s
  | .hfiSettleEnd l e => Sys2Proof.Machine.execHfiSettleEnd l e s
  | .ascRecovery l e => Sys2Proof.Machine.execAscRecovery l e s
  | .stepMissing l e => Sys2Proof.Machine.execStepMissing l e s
  | .overcurrent l e => Sys2Proof.Machine.execOvercurrent l e s
  | .obsDiverge l e => Sys2Proof.Machine.execObsDiverge l e s
  | .vdcLow l e => Sys2Proof.Machine.execVdcLow l e s
  | .meErrClr l e val => Sys2Proof.Machine.execMeErrClr l e val s
  | .adcErrClr l val => Sys2Proof.Machine.execAdcErrClr l val s
  | .commit l n => Sys2Proof.Machine.execCommit l n s
  | .pwmReload l n => Sys2Proof.Machine.execPwmReload l n s
  | .pwmPeriodEvent l n => Sys2Proof.Machine.execPwmPeriodEvent l n s
  | .pwmCompareEvent l n k => Sys2Proof.Machine.execPwmCompareEvent l n k s
  | .pwmEnable l n => Sys2Proof.Machine.execPwmEnable l n s
  | .clkstop l => Sys2Proof.Machine.execClkstop l s
  | .pwmClkStop l => Sys2Proof.Machine.execPwmClkStop l s
  | .pwmErrClr l n val => Sys2Proof.Machine.execPwmErrClr l n val s
  | .vduOcClear l k => Sys2Proof.Machine.execVduOcClear l k s
  | .vduErrClr l val => Sys2Proof.Machine.execVduErrClr l val s
  | .deiErrClr l val => Sys2Proof.Machine.execDeiErrClr l val s
  | .chpErrClr l val => Sys2Proof.Machine.execChpErrClr l val s
  | .claimAttempt l g => Sys2Proof.Machine.execClaimAttempt l g s
  | .claimGuardEnd l g => Sys2Proof.Machine.execClaimGuardEnd l g s
  | .claimBackoffEnd l g => Sys2Proof.Machine.execClaimBackoffEnd l g s
  | .claimLineChange l g peer level => Sys2Proof.Machine.execClaimLineChange l g peer level s
  | .ownerSeen l g peer => Sys2Proof.Machine.execOwnerSeen l g peer s
  | .ownerLost l g => Sys2Proof.Machine.execOwnerLost l g s
  | .successorWaitEnd l g => Sys2Proof.Machine.execSuccessorWaitEnd l g s
  | .deiNoOwner l g => Sys2Proof.Machine.execDeiNoOwner l g s
  | .chpNoCurrent l => Sys2Proof.Machine.execChpNoCurrent l s
  | .chpStuck l => Sys2Proof.Machine.execChpStuck l s
  | .gpioEdge l n rising => Sys2Proof.Machine.execGpioEdge l n rising s
  | .gpioSpiTx l val => Sys2Proof.Machine.execGpioSpiTx l val s
  | .gpioSpiRx l => Sys2Proof.Machine.execGpioSpiRx l s
  | .spiFrame l miso => Sys2Proof.Machine.execSpiFrame l miso s
  | .phyLinkUp l p => Sys2Proof.Machine.execPhyLinkUp l p s
  | .phyLinkDown l p => Sys2Proof.Machine.execPhyLinkDown l p s
  | .frameStart l port t hdr => Sys2Proof.Machine.execFrameStart l port t hdr s
  | .dataFrame l port f => Sys2Proof.Machine.execDataFrame l port f s
  | .nullFrame l port f => Sys2Proof.Machine.execNullFrame l port f s
  | .syncFrame l port f => Sys2Proof.Machine.execSyncFrame l port f s
  | .coldstartFrame l port f => Sys2Proof.Machine.execColdstartFrame l port f s
  | .claimFrame l port f => Sys2Proof.Machine.execClaimFrame l port f s
  | .frameTruncation l port => Sys2Proof.Machine.execFrameTruncation l port s
  | .ownFrameSend l slot => Sys2Proof.Machine.execOwnFrameSend l slot s
  | .syncFrameSend l => Sys2Proof.Machine.execSyncFrameSend l s
  | .networkCycleStart l num => Sys2Proof.Machine.execNetworkCycleStart l num s
  | .timeLost l => Sys2Proof.Machine.execTimeLost l s
  | .coldstartListenEnd l => Sys2Proof.Machine.execColdstartListenEnd l s
  | .waitLeadTimeout l => Sys2Proof.Machine.execWaitLeadTimeout l s
  | .coldstartBegin l => Sys2Proof.Machine.execColdstartBegin l s
  | .coldstartSync l => Sys2Proof.Machine.execColdstartSync l s
  | .winnerSilent l => Sys2Proof.Machine.execWinnerSilent l s
  | .startTimeout l => Sys2Proof.Machine.execStartTimeout l s
  | .trunkLost l => Sys2Proof.Machine.execTrunkLost l s
  | .claimEffect l => Sys2Proof.Machine.execClaimEffect l s
  | .claimGo l val => Sys2Proof.Machine.execClaimGo l val s
  | .claimNoAnswer l => Sys2Proof.Machine.execClaimNoAnswer l s
  | .ssgErrClr l val => Sys2Proof.Machine.execSsgErrClr l val s
  | .nteErrClr l val => Sys2Proof.Machine.execNteErrClr l val s
  | .nteTerrClr l val => Sys2Proof.Machine.execNteTerrClr l val s
  | .canFrameReceived l ch m => Sys2Proof.Machine.execCanFrameReceived l ch m s
  | .canRxTimeout l m => Sys2Proof.Machine.execCanRxTimeout l m s
  | .canBusOff l ch => Sys2Proof.Machine.execCanBusOff l ch s
  | .busOffRecovery l ch => Sys2Proof.Machine.execBusOffRecovery l ch s
  | .tpTimeout l ch rx k => Sys2Proof.Machine.execTpTimeout l ch rx k s
  | .addressClaim l ch => Sys2Proof.Machine.execAddressClaim l ch s
  | .addressClaimComplete l ch => Sys2Proof.Machine.execAddressClaimComplete l ch s
  | .canSend l => Sys2Proof.Machine.execCanSend l s
  | .canRecv l => Sys2Proof.Machine.execCanRecv l s
  | .cgwErrClr l ch val => Sys2Proof.Machine.execCgwErrClr l ch val s
  | .storageDiePowerOn => Sys2Proof.Machine.execStorageDiePowerOn s
  | .steMount => Sys2Proof.Machine.execSteMount s
  | .storageLinkUp l => Sys2Proof.Machine.execStorageLinkUp l s
  | .storageLinkDown l => Sys2Proof.Machine.execStorageLinkDown l s
  | .read l => Sys2Proof.Machine.execRead l s
  | .write l bad => Sys2Proof.Machine.execWrite l bad s
  | .trim l => Sys2Proof.Machine.execTrim l s
  | .verify l => Sys2Proof.Machine.execVerify l s
  | .relocation blk sector bits bad => Sys2Proof.Machine.execRelocation blk sector bits bad s
  | .readDisturbRelocate blk => Sys2Proof.Machine.execReadDisturbRelocate blk s
  | .patrolRead blk sector bits => Sys2Proof.Machine.execPatrolRead blk sector bits s
  | .patrolLate => Sys2Proof.Machine.execPatrolLate s
  | .evrWrite l => Sys2Proof.Machine.execEvrWrite l s
  | .sealSign l ok => Sys2Proof.Machine.execSealSign l ok s
  | .segmentProgram l => Sys2Proof.Machine.execSegmentProgram l s
  | .evrFreeze l => Sys2Proof.Machine.execEvrFreeze l s
  | .evrRead l => Sys2Proof.Machine.execEvrRead l s
  | .evrSeal l => Sys2Proof.Machine.execEvrSeal l s
  | .evrWinlist l => Sys2Proof.Machine.execEvrWinlist l s
  | .evrRelease l => Sys2Proof.Machine.execEvrRelease l s
  | .evrTail l => Sys2Proof.Machine.execEvrTail l s
  | .steErrClr l val => Sys2Proof.Machine.execSteErrClr l val s
  | .evrErrClr l val => Sys2Proof.Machine.execEvrErrClr l val s
  | .dormantStepA l => Sys2Proof.Machine.execDormantStepA l s
  | .dormantStepB l => Sys2Proof.Machine.execDormantStepB l s
  | .dormantStepD l => Sys2Proof.Machine.execDormantStepD l s
  | .dormantStepE l => Sys2Proof.Machine.execDormantStepE l s
  | .wakeEvent l src => Sys2Proof.Machine.execWakeEvent l src s
  | .rejoin l => Sys2Proof.Machine.execRejoin l s
  | .aosErrClr l val => Sys2Proof.Machine.execAosErrClr l val s
  | .startupBist l failed => Sys2Proof.Machine.execStartupBist l failed s
  | .bistElementComplete l cls pass => Sys2Proof.Machine.execBistElementComplete l cls pass s
  | .bistAbort l cls => Sys2Proof.Machine.execBistAbort l cls s
  | .bistStarved l r => Sys2Proof.Machine.execBistStarved l r s
  | .bistPassLate l r => Sys2Proof.Machine.execBistPassLate l r s
  | .bistRun l failed => Sys2Proof.Machine.execBistRun l failed s
  | .bistMfg l failed => Sys2Proof.Machine.execBistMfg l failed s
  | .bistStatus l => Sys2Proof.Machine.execBistStatus l s
  | .bscErrClr l val => Sys2Proof.Machine.execBscErrClr l val s
  | .pprArm l => Sys2Proof.Machine.execPprArm l s
  | .pprDisarm l => Sys2Proof.Machine.execPprDisarm l s
  | .pprInjCfg l n val => Sys2Proof.Machine.execPprInjCfg l n val s
  | .firmwareVerification l => Sys2Proof.Machine.execFirmwareVerification l s
  | .fwErase l => Sys2Proof.Machine.execFwErase l s
  | .fwWrite l => Sys2Proof.Machine.execFwWrite l s
  | .fwVerify l => Sys2Proof.Machine.execFwVerify l s
  | .fwActivate l => Sys2Proof.Machine.execFwActivate l s
  | .bootcfg l => Sys2Proof.Machine.execBootcfg l s
  | .svcNonce l trngOk => Sys2Proof.Machine.execSvcNonce l trngOk s
  | .svcEnter l => Sys2Proof.Machine.execSvcEnter l s
  | .svcEnd l => Sys2Proof.Machine.execSvcEnd l s
  | .lcAdvance l => Sys2Proof.Machine.execLcAdvance l s
  | .keySet l => Sys2Proof.Machine.execKeySet l s
  | .keyRevoke l => Sys2Proof.Machine.execKeyRevoke l s
  | .sm3 l => Sys2Proof.Machine.execSm3 l s
  | .sm2Verify l => Sys2Proof.Machine.execSm2Verify l s
  | .sm2Sign l trngOk => Sys2Proof.Machine.execSm2Sign l trngOk s
  | .attest l trngOk => Sys2Proof.Machine.execAttest l trngOk s
  | .random l trngOk => Sys2Proof.Machine.execRandom l trngOk s
  | .nonceExpiry l => Sys2Proof.Machine.execNonceExpiry l s
  | .serviceExpiry l => Sys2Proof.Machine.execServiceExpiry l s
  | .debugAccess l k => Sys2Proof.Machine.execDebugAccess l k s
  | .lcsErrClr l val => Sys2Proof.Machine.execLcsErrClr l val s
  | .lockSet l addr val => Sys2Proof.Machine.execLockSet l addr val s
  | .registerWrite l addr val => Sys2Proof.Machine.execRegisterWrite l addr val s
  | .storageDiePowerLoss => Sys2Proof.Machine.execStorageDiePowerLoss s
  | .canFrameAcknowledged l ch => Sys2Proof.Machine.execCanFrameAcknowledged l ch s
  | .mailboxAcknowledged l => Sys2Proof.Machine.execMailboxAcknowledged l s
  | .linkIdle l => Sys2Proof.Machine.execLinkIdle l s

end Sys2Proof.Machine
end

