-- ==== Sys2Proof/Machine/Tick.lean ====
section
/-! DEFINITION. What passes while no command waits: 1 us on every lane's own clock (R51, R274, R302, R333, R337, R409, R413). Everything
else that time brings about is a command. DESIGN CHOICE: log 1. -/

namespace Sys2Proof.Machine

/-- AOS_TMR steps; the TIMER wake source fires where it then equals AOS_TMR_CMP (R413, R464). -/
def stepTmr (L : Lane) : Lane :=
  let L1 := L.incMod F.AOS_TMR_TMR
  if L1.fld F.AOS_TMR_TMR = L1.fld F.AOS_TMR_CMP_CMP then wakeEvent 5 L1 else L1

/-- AOS_TMR at 32.768 kHz: 512/15625 of a tick in 1 us (R409). DESIGN CHOICE: log 1. -/
def tickAos (L : Lane) : Lane :=
  if L.pwr.phase = .off then L
  else
    let f := L.pwr.tmrFrac + 512
    let L1 := { L with pwr := { L.pwr with tmrFrac := f % 15625 } }
    if f < 15625 then L1 else stepTmr L1

/-- The machine timer at 1 MHz; stopped in Dormant (R51). DESIGN CHOICE: log 1. -/
def tickMtime (L : Lane) : Lane :=
  if L.live then timerInputs 1 (timerInputs 0 { L with mtime := L.mtime + 1 }) else L

/-- What lane time has gained at tick `k` of a cycle, of the gain that is spread over it (R337). -/
def gainAt (L : Lane) (k : Nat) : Int :=
  let c := L.n F.TLS_TIMING_CYCLE_US
  if c = 0 then 0 else if c ≤ k then L.nte.gain else L.nte.gain * (k : Int) / (c : Int)

/-- The network island runs: its domain is on in a lane that is released or wakes from Dormant (R333, R402, R411). -/
def netRuns (L : Lane) : Bool := decide (L.pwr.phase = .run ∨ L.pwr.phase = .waking) && L.bit F.AOS_STAT_ON 3

/-- Lane time advances by 1 us and by its share of the correction; it never goes back (R333, R337).
DESIGN CHOICE: log 1; DEDUCED: log 57, 85. -/
def tickTime (L : Lane) : Lane :=
  if netRuns L then
    let k := L.nte.ticks + 1
    let g := gainAt L k
    withNte (fun n => { n with ticks := k, gained := g }) { L with time := L.time + (1000 + (g - L.nte.gained)).toNat }
  else L

/-- Motor-island cycles in 1 us, on the PLL or on the RC (R26). -/
def motCycles (L : Lane) : Nat := if L.b F.CLK_STAT_ON_PLL then 200 else 64

/-- The counter of a generator goes on, up to the last cycle of its period: the reload is a command (R274).
DESIGN CHOICE: log 76. -/
def tickGen (n : Nat) (L : Lane) : Lane :=
  if L.b (F.PWMn_CFG_EN n) then
    let g := genOf L n
    let k := g.act.presc + 1
    let x := max (pwmPos n L) (min (pwmPos n L + motCycles L) (g.curPer * k - 1))
    setGen n { g with sub := x % k } (L.putN (F.PWMn_CNT_CNT n) (x / k))
  else L

/-- The motor island: its time, the PWM counters, and the end of trigger pulses (R274, R300, R302). DESIGN CHOICE: log 1, 76. -/
def tickMot (L : Lane) : Lane :=
  if motRuns L && L.bit F.AOS_STAT_ON 2 then
    forEach (List.range 3) tickGen { L with out := { L.out with motTime := L.out.motTime + 1000, pulse := 0 } }
  else L

/-- One microsecond of a lane. DESIGN CHOICE: log 1. -/
def tickLane (L : Lane) : Lane := tickAos (tickMot (tickTime (tickMtime L)))

/-- One microsecond of the module. DESIGN CHOICE: log 1. -/
def idle (s : State) : State :=
  { s with
    laneA := tickLane s.laneA
    laneB := tickLane s.laneB
    laneC := tickLane s.laneC
    sto := if s.sto.powered then { s.sto with poweredUs := s.sto.poweredUs + 1 } else s.sto }

end Sys2Proof.Machine
end

