-- ==== Sys2Proof/Laws/State.lean ====
section
/-! SUPPORT. What each update of the state leaves alone and what it sets: one lemma for each field and update, so that no proof
unfolds a record update. Field updates come down to `put` first. -/

namespace Sys2Proof.Machine

/-! Lanes of a state -/

@[simp] theorem lane_setLane_same (s : State) (l : LaneId) (L : Lane) : (s.setLane l L).lane l = L := by
  cases l <;> rfl
theorem lane_setLane_other (s : State) (l p : LaneId) (L : Lane) (h : p ≠ l) : (s.setLane l L).lane p = s.lane p := by
  cases l <;> cases p <;> first | rfl | exact absurd rfl h
@[simp] theorem setLane_sto (s : State) (l : LaneId) (L : Lane) : (s.setLane l L).sto = s.sto := by cases l <;> rfl
@[simp] theorem setLane_pending (s : State) (l : LaneId) (L : Lane) : (s.setLane l L).pending = s.pending := by
  cases l <;> rfl
@[simp] theorem setLane_lane_self (s : State) (l : LaneId) : s.setLane l (s.lane l) = s := by cases l <;> rfl
@[simp] theorem setLane_setLane (s : State) (l : LaneId) (L L2 : Lane) :
    (s.setLane l L).setLane l L2 = s.setLane l L2 := by cases l <;> rfl
@[simp] theorem lane_onLane_same (s : State) (l : LaneId) (f : Lane → Lane) : (s.onLane l f).lane l = f (s.lane l) := by
  simp [State.onLane]
theorem lane_onLane_other (s : State) (l p : LaneId) (f : Lane → Lane) (h : p ≠ l) :
    (s.onLane l f).lane p = s.lane p := lane_setLane_other s l p _ h
@[simp] theorem onLane_sto (s : State) (l : LaneId) (f : Lane → Lane) : (s.onLane l f).sto = s.sto := setLane_sto s l _
@[simp] theorem onLane_pending (s : State) (l : LaneId) (f : Lane → Lane) : (s.onLane l f).pending = s.pending :=
  setLane_pending s l _
@[simp] theorem onLaneDie_pending (s : State) (l : LaneId) (f : Lane → StorageDie → Lane × StorageDie) :
    (s.onLaneDie l f).pending = s.pending := by cases l <;> rfl
@[simp] theorem lane_sto_update (s : State) (l : LaneId) (d : StorageDie) :
    State.lane { s with sto := d } l = s.lane l := by cases l <;> rfl
@[simp] theorem lane_pending_update (s : State) (l : LaneId) (q : List Instr) :
    State.lane { s with pending := q } l = s.lane l := by cases l <;> rfl
@[simp] theorem lane_onLaneDie_same (s : State) (l : LaneId) (f : Lane → StorageDie → Lane × StorageDie) :
    (s.onLaneDie l f).lane l = (f (s.lane l) s.sto).1 := by cases l <;> rfl
theorem lane_onLaneDie_other (s : State) (l p : LaneId) (f : Lane → StorageDie → Lane × StorageDie) (h : p ≠ l) :
    (s.onLaneDie l f).lane p = s.lane p := by
  cases l <;> cases p <;> first | rfl | exact absurd rfl h
@[simp] theorem onLaneDie_sto (s : State) (l : LaneId) (f : Lane → StorageDie → Lane × StorageDie) :
    (s.onLaneDie l f).sto = (f (s.lane l) s.sto).2 := rfl
@[simp] theorem onDie_pending (l : LaneId) (f : LD → LD) (s : State) : (onDie l f s).pending = s.pending :=
  onLaneDie_pending s l _
theorem lane_onDie_other (l p : LaneId) (f : LD → LD) (s : State) (h : p ≠ l) : (onDie l f s).lane p = s.lane p :=
  lane_onLaneDie_other s l p _ h
theorem onDie_live (l : LaneId) (f : LD → LD) (s : State) (h : (s.lane l).live = true) :
    onDie l f s = { s.setLane l (f (s.lane l, s.sto)).1 with sto := (f (s.lane l, s.sto)).2 } := by
  simp [onDie, State.onLaneDie, h]
theorem whenLive_live (f : Lane → Lane) (L : Lane) (h : L.live = true) : whenLive f L = f L := by simp [whenLive, h]

/-! Field updates come down to `put` -/

theorem putN_eq (L : Lane) (f : Fld) (n : Nat) : L.putN f n = L.put f (toW n) := rfl
theorem setB_eq (L : Lane) (f : Fld) (v : Bool) : L.setB f v = L.put f (if v then 1 else 0) := rfl
theorem incBy_eq (L : Lane) (f : Fld) (k : Nat) : L.incBy f k = L.put f (toW (min (L.n f + k) (2 ^ f.w - 1))) := rfl
theorem inc_eq (L : Lane) (f : Fld) : L.inc f = L.put f (toW (min (L.n f + 1) (2 ^ f.w - 1))) := rfl
theorem incMod_eq (L : Lane) (f : Fld) : L.incMod f = L.put f (toW ((L.n f + 1) % 2 ^ f.w)) := rfl
theorem orF_eq (L : Lane) (f : Fld) (v : Word) : L.orF f v = L.put f (L.fld f ||| v) := rfl
theorem clrF_eq (L : Lane) (f : Fld) (v : Word) : L.clrF f v = L.put f (L.fld f &&& ~~~ v) := rfl
theorem laneSetBit_eq (L : Lane) (f : Fld) (i : Nat) (v : Bool) :
    L.setBit f i v = L.put f (setBit (L.fld f) i v) := rfl

/-! A field set -/

@[simp] theorem put_id (L : Lane) (f : Fld) (v : Word) : (L.put f v).id = L.id := rfl
@[simp] theorem put_mem (L : Lane) (f : Fld) (v : Word) : (L.put f v).mem = L.mem := rfl
@[simp] theorem put_upsets (L : Lane) (f : Fld) (v : Word) : (L.put f v).upsets = L.upsets := rfl
@[simp] theorem put_cache (L : Lane) (f : Fld) (v : Word) : (L.put f v).cache = L.cache := rfl
@[simp] theorem put_time (L : Lane) (f : Fld) (v : Word) : (L.put f v).time = L.time := rfl
@[simp] theorem put_mtime (L : Lane) (f : Fld) (v : Word) : (L.put f v).mtime = L.mtime := rfl
@[simp] theorem put_mtimecmp0 (L : Lane) (f : Fld) (v : Word) : (L.put f v).mtimecmp0 = L.mtimecmp0 := rfl
@[simp] theorem put_mtimecmp1 (L : Lane) (f : Fld) (v : Word) : (L.put f v).mtimecmp1 = L.mtimecmp1 := rfl
@[simp] theorem put_free (L : Lane) (f : Fld) (v : Word) : (L.put f v).free = L.free := rfl
@[simp] theorem put_pwr (L : Lane) (f : Fld) (v : Word) : (L.put f v).pwr = L.pwr := rfl
@[simp] theorem put_core0 (L : Lane) (f : Fld) (v : Word) : (L.put f v).core0 = L.core0 := rfl
@[simp] theorem put_core1 (L : Lane) (f : Fld) (v : Word) : (L.put f v).core1 = L.core1 := rfl
@[simp] theorem put_plic (L : Lane) (f : Fld) (v : Word) : (L.put f v).plic = L.plic := rfl
@[simp] theorem put_posted (L : Lane) (f : Fld) (v : Word) : (L.put f v).posted = L.posted := rfl
@[simp] theorem put_aosRet (L : Lane) (f : Fld) (v : Word) : (L.put f v).aosRet = L.aosRet := rfl
@[simp] theorem put_lsm (L : Lane) (f : Fld) (v : Word) : (L.put f v).lsm = L.lsm := rfl
@[simp] theorem put_tls (L : Lane) (f : Fld) (v : Word) : (L.put f v).tls = L.tls := rfl
@[simp] theorem put_ring (L : Lane) (f : Fld) (v : Word) : (L.put f v).ring = L.ring := rfl
@[simp] theorem put_clv (L : Lane) (f : Fld) (v : Word) : (L.put f v).clv = L.clv := rfl
@[simp] theorem put_evr (L : Lane) (f : Fld) (v : Word) : (L.put f v).evr = L.evr := rfl
@[simp] theorem put_otp (L : Lane) (f : Fld) (v : Word) : (L.put f v).otp = L.otp := rfl
@[simp] theorem put_lcs (L : Lane) (f : Fld) (v : Word) : (L.put f v).lcs = L.lcs := rfl
@[simp] theorem put_ppr (L : Lane) (f : Fld) (v : Word) : (L.put f v).ppr = L.ppr := rfl
@[simp] theorem put_dsp (L : Lane) (f : Fld) (v : Word) : (L.put f v).dsp = L.dsp := rfl
@[simp] theorem put_lpe (L : Lane) (f : Fld) (v : Word) : (L.put f v).lpe = L.lpe := rfl
@[simp] theorem put_out (L : Lane) (f : Fld) (v : Word) : (L.put f v).out = L.out := rfl
@[simp] theorem put_adc (L : Lane) (f : Fld) (v : Word) : (L.put f v).adc = L.adc := rfl
@[simp] theorem put_me (L : Lane) (f : Fld) (v : Word) : (L.put f v).me = L.me := rfl
@[simp] theorem put_nte (L : Lane) (f : Fld) (v : Word) : (L.put f v).nte = L.nte := rfl
@[simp] theorem put_cgw (L : Lane) (f : Fld) (v : Word) : (L.put f v).cgw = L.cgw := rfl
@[simp] theorem put_bsc (L : Lane) (f : Fld) (v : Word) : (L.put f v).bsc = L.bsc := rfl

@[simp] theorem putN_id (L : Lane) (f : Fld) (n : Nat) : (L.putN f n).id = L.id := rfl
@[simp] theorem putN_mem (L : Lane) (f : Fld) (n : Nat) : (L.putN f n).mem = L.mem := rfl
@[simp] theorem putN_upsets (L : Lane) (f : Fld) (n : Nat) : (L.putN f n).upsets = L.upsets := rfl
@[simp] theorem putN_cache (L : Lane) (f : Fld) (n : Nat) : (L.putN f n).cache = L.cache := rfl
@[simp] theorem putN_time (L : Lane) (f : Fld) (n : Nat) : (L.putN f n).time = L.time := rfl
@[simp] theorem putN_mtime (L : Lane) (f : Fld) (n : Nat) : (L.putN f n).mtime = L.mtime := rfl
@[simp] theorem putN_mtimecmp0 (L : Lane) (f : Fld) (n : Nat) : (L.putN f n).mtimecmp0 = L.mtimecmp0 := rfl
@[simp] theorem putN_mtimecmp1 (L : Lane) (f : Fld) (n : Nat) : (L.putN f n).mtimecmp1 = L.mtimecmp1 := rfl
@[simp] theorem putN_free (L : Lane) (f : Fld) (n : Nat) : (L.putN f n).free = L.free := rfl
@[simp] theorem putN_pwr (L : Lane) (f : Fld) (n : Nat) : (L.putN f n).pwr = L.pwr := rfl
@[simp] theorem putN_core0 (L : Lane) (f : Fld) (n : Nat) : (L.putN f n).core0 = L.core0 := rfl
@[simp] theorem putN_core1 (L : Lane) (f : Fld) (n : Nat) : (L.putN f n).core1 = L.core1 := rfl
@[simp] theorem putN_plic (L : Lane) (f : Fld) (n : Nat) : (L.putN f n).plic = L.plic := rfl
@[simp] theorem putN_posted (L : Lane) (f : Fld) (n : Nat) : (L.putN f n).posted = L.posted := rfl
@[simp] theorem putN_aosRet (L : Lane) (f : Fld) (n : Nat) : (L.putN f n).aosRet = L.aosRet := rfl
@[simp] theorem putN_lsm (L : Lane) (f : Fld) (n : Nat) : (L.putN f n).lsm = L.lsm := rfl
@[simp] theorem putN_tls (L : Lane) (f : Fld) (n : Nat) : (L.putN f n).tls = L.tls := rfl
@[simp] theorem putN_ring (L : Lane) (f : Fld) (n : Nat) : (L.putN f n).ring = L.ring := rfl
@[simp] theorem putN_clv (L : Lane) (f : Fld) (n : Nat) : (L.putN f n).clv = L.clv := rfl
@[simp] theorem putN_evr (L : Lane) (f : Fld) (n : Nat) : (L.putN f n).evr = L.evr := rfl
@[simp] theorem putN_otp (L : Lane) (f : Fld) (n : Nat) : (L.putN f n).otp = L.otp := rfl
@[simp] theorem putN_lcs (L : Lane) (f : Fld) (n : Nat) : (L.putN f n).lcs = L.lcs := rfl
@[simp] theorem putN_ppr (L : Lane) (f : Fld) (n : Nat) : (L.putN f n).ppr = L.ppr := rfl
@[simp] theorem putN_dsp (L : Lane) (f : Fld) (n : Nat) : (L.putN f n).dsp = L.dsp := rfl
@[simp] theorem putN_lpe (L : Lane) (f : Fld) (n : Nat) : (L.putN f n).lpe = L.lpe := rfl
@[simp] theorem putN_out (L : Lane) (f : Fld) (n : Nat) : (L.putN f n).out = L.out := rfl
@[simp] theorem putN_adc (L : Lane) (f : Fld) (n : Nat) : (L.putN f n).adc = L.adc := rfl
@[simp] theorem putN_me (L : Lane) (f : Fld) (n : Nat) : (L.putN f n).me = L.me := rfl
@[simp] theorem putN_nte (L : Lane) (f : Fld) (n : Nat) : (L.putN f n).nte = L.nte := rfl
@[simp] theorem putN_cgw (L : Lane) (f : Fld) (n : Nat) : (L.putN f n).cgw = L.cgw := rfl
@[simp] theorem putN_bsc (L : Lane) (f : Fld) (n : Nat) : (L.putN f n).bsc = L.bsc := rfl

@[simp] theorem setB_id (L : Lane) (f : Fld) (n : Bool) : (L.setB f n).id = L.id := rfl
@[simp] theorem setB_mem (L : Lane) (f : Fld) (n : Bool) : (L.setB f n).mem = L.mem := rfl
@[simp] theorem setB_upsets (L : Lane) (f : Fld) (n : Bool) : (L.setB f n).upsets = L.upsets := rfl
@[simp] theorem setB_cache (L : Lane) (f : Fld) (n : Bool) : (L.setB f n).cache = L.cache := rfl
@[simp] theorem setB_time (L : Lane) (f : Fld) (n : Bool) : (L.setB f n).time = L.time := rfl
@[simp] theorem setB_mtime (L : Lane) (f : Fld) (n : Bool) : (L.setB f n).mtime = L.mtime := rfl
@[simp] theorem setB_mtimecmp0 (L : Lane) (f : Fld) (n : Bool) : (L.setB f n).mtimecmp0 = L.mtimecmp0 := rfl
@[simp] theorem setB_mtimecmp1 (L : Lane) (f : Fld) (n : Bool) : (L.setB f n).mtimecmp1 = L.mtimecmp1 := rfl
@[simp] theorem setB_free (L : Lane) (f : Fld) (n : Bool) : (L.setB f n).free = L.free := rfl
@[simp] theorem setB_pwr (L : Lane) (f : Fld) (n : Bool) : (L.setB f n).pwr = L.pwr := rfl
@[simp] theorem setB_core0 (L : Lane) (f : Fld) (n : Bool) : (L.setB f n).core0 = L.core0 := rfl
@[simp] theorem setB_core1 (L : Lane) (f : Fld) (n : Bool) : (L.setB f n).core1 = L.core1 := rfl
@[simp] theorem setB_plic (L : Lane) (f : Fld) (n : Bool) : (L.setB f n).plic = L.plic := rfl
@[simp] theorem setB_posted (L : Lane) (f : Fld) (n : Bool) : (L.setB f n).posted = L.posted := rfl
@[simp] theorem setB_aosRet (L : Lane) (f : Fld) (n : Bool) : (L.setB f n).aosRet = L.aosRet := rfl
@[simp] theorem setB_lsm (L : Lane) (f : Fld) (n : Bool) : (L.setB f n).lsm = L.lsm := rfl
@[simp] theorem setB_tls (L : Lane) (f : Fld) (n : Bool) : (L.setB f n).tls = L.tls := rfl
@[simp] theorem setB_ring (L : Lane) (f : Fld) (n : Bool) : (L.setB f n).ring = L.ring := rfl
@[simp] theorem setB_clv (L : Lane) (f : Fld) (n : Bool) : (L.setB f n).clv = L.clv := rfl
@[simp] theorem setB_evr (L : Lane) (f : Fld) (n : Bool) : (L.setB f n).evr = L.evr := rfl
@[simp] theorem setB_otp (L : Lane) (f : Fld) (n : Bool) : (L.setB f n).otp = L.otp := rfl
@[simp] theorem setB_lcs (L : Lane) (f : Fld) (n : Bool) : (L.setB f n).lcs = L.lcs := rfl
@[simp] theorem setB_ppr (L : Lane) (f : Fld) (n : Bool) : (L.setB f n).ppr = L.ppr := rfl
@[simp] theorem setB_dsp (L : Lane) (f : Fld) (n : Bool) : (L.setB f n).dsp = L.dsp := rfl
@[simp] theorem setB_lpe (L : Lane) (f : Fld) (n : Bool) : (L.setB f n).lpe = L.lpe := rfl
@[simp] theorem setB_out (L : Lane) (f : Fld) (n : Bool) : (L.setB f n).out = L.out := rfl
@[simp] theorem setB_adc (L : Lane) (f : Fld) (n : Bool) : (L.setB f n).adc = L.adc := rfl
@[simp] theorem setB_me (L : Lane) (f : Fld) (n : Bool) : (L.setB f n).me = L.me := rfl
@[simp] theorem setB_nte (L : Lane) (f : Fld) (n : Bool) : (L.setB f n).nte = L.nte := rfl
@[simp] theorem setB_cgw (L : Lane) (f : Fld) (n : Bool) : (L.setB f n).cgw = L.cgw := rfl
@[simp] theorem setB_bsc (L : Lane) (f : Fld) (n : Bool) : (L.setB f n).bsc = L.bsc := rfl

@[simp] theorem inc_id (L : Lane) (f : Fld) : (L.inc f).id = L.id := rfl
@[simp] theorem inc_mem (L : Lane) (f : Fld) : (L.inc f).mem = L.mem := rfl
@[simp] theorem inc_upsets (L : Lane) (f : Fld) : (L.inc f).upsets = L.upsets := rfl
@[simp] theorem inc_cache (L : Lane) (f : Fld) : (L.inc f).cache = L.cache := rfl
@[simp] theorem inc_time (L : Lane) (f : Fld) : (L.inc f).time = L.time := rfl
@[simp] theorem inc_mtime (L : Lane) (f : Fld) : (L.inc f).mtime = L.mtime := rfl
@[simp] theorem inc_mtimecmp0 (L : Lane) (f : Fld) : (L.inc f).mtimecmp0 = L.mtimecmp0 := rfl
@[simp] theorem inc_mtimecmp1 (L : Lane) (f : Fld) : (L.inc f).mtimecmp1 = L.mtimecmp1 := rfl
@[simp] theorem inc_free (L : Lane) (f : Fld) : (L.inc f).free = L.free := rfl
@[simp] theorem inc_pwr (L : Lane) (f : Fld) : (L.inc f).pwr = L.pwr := rfl
@[simp] theorem inc_core0 (L : Lane) (f : Fld) : (L.inc f).core0 = L.core0 := rfl
@[simp] theorem inc_core1 (L : Lane) (f : Fld) : (L.inc f).core1 = L.core1 := rfl
@[simp] theorem inc_plic (L : Lane) (f : Fld) : (L.inc f).plic = L.plic := rfl
@[simp] theorem inc_posted (L : Lane) (f : Fld) : (L.inc f).posted = L.posted := rfl
@[simp] theorem inc_aosRet (L : Lane) (f : Fld) : (L.inc f).aosRet = L.aosRet := rfl
@[simp] theorem inc_lsm (L : Lane) (f : Fld) : (L.inc f).lsm = L.lsm := rfl
@[simp] theorem inc_tls (L : Lane) (f : Fld) : (L.inc f).tls = L.tls := rfl
@[simp] theorem inc_ring (L : Lane) (f : Fld) : (L.inc f).ring = L.ring := rfl
@[simp] theorem inc_clv (L : Lane) (f : Fld) : (L.inc f).clv = L.clv := rfl
@[simp] theorem inc_evr (L : Lane) (f : Fld) : (L.inc f).evr = L.evr := rfl
@[simp] theorem inc_otp (L : Lane) (f : Fld) : (L.inc f).otp = L.otp := rfl
@[simp] theorem inc_lcs (L : Lane) (f : Fld) : (L.inc f).lcs = L.lcs := rfl
@[simp] theorem inc_ppr (L : Lane) (f : Fld) : (L.inc f).ppr = L.ppr := rfl
@[simp] theorem inc_dsp (L : Lane) (f : Fld) : (L.inc f).dsp = L.dsp := rfl
@[simp] theorem inc_lpe (L : Lane) (f : Fld) : (L.inc f).lpe = L.lpe := rfl
@[simp] theorem inc_out (L : Lane) (f : Fld) : (L.inc f).out = L.out := rfl
@[simp] theorem inc_adc (L : Lane) (f : Fld) : (L.inc f).adc = L.adc := rfl
@[simp] theorem inc_me (L : Lane) (f : Fld) : (L.inc f).me = L.me := rfl
@[simp] theorem inc_nte (L : Lane) (f : Fld) : (L.inc f).nte = L.nte := rfl
@[simp] theorem inc_cgw (L : Lane) (f : Fld) : (L.inc f).cgw = L.cgw := rfl
@[simp] theorem inc_bsc (L : Lane) (f : Fld) : (L.inc f).bsc = L.bsc := rfl

@[simp] theorem incMod_id (L : Lane) (f : Fld) : (L.incMod f).id = L.id := rfl
@[simp] theorem incMod_mem (L : Lane) (f : Fld) : (L.incMod f).mem = L.mem := rfl
@[simp] theorem incMod_upsets (L : Lane) (f : Fld) : (L.incMod f).upsets = L.upsets := rfl
@[simp] theorem incMod_cache (L : Lane) (f : Fld) : (L.incMod f).cache = L.cache := rfl
@[simp] theorem incMod_time (L : Lane) (f : Fld) : (L.incMod f).time = L.time := rfl
@[simp] theorem incMod_mtime (L : Lane) (f : Fld) : (L.incMod f).mtime = L.mtime := rfl
@[simp] theorem incMod_mtimecmp0 (L : Lane) (f : Fld) : (L.incMod f).mtimecmp0 = L.mtimecmp0 := rfl
@[simp] theorem incMod_mtimecmp1 (L : Lane) (f : Fld) : (L.incMod f).mtimecmp1 = L.mtimecmp1 := rfl
@[simp] theorem incMod_free (L : Lane) (f : Fld) : (L.incMod f).free = L.free := rfl
@[simp] theorem incMod_pwr (L : Lane) (f : Fld) : (L.incMod f).pwr = L.pwr := rfl
@[simp] theorem incMod_core0 (L : Lane) (f : Fld) : (L.incMod f).core0 = L.core0 := rfl
@[simp] theorem incMod_core1 (L : Lane) (f : Fld) : (L.incMod f).core1 = L.core1 := rfl
@[simp] theorem incMod_plic (L : Lane) (f : Fld) : (L.incMod f).plic = L.plic := rfl
@[simp] theorem incMod_posted (L : Lane) (f : Fld) : (L.incMod f).posted = L.posted := rfl
@[simp] theorem incMod_aosRet (L : Lane) (f : Fld) : (L.incMod f).aosRet = L.aosRet := rfl
@[simp] theorem incMod_lsm (L : Lane) (f : Fld) : (L.incMod f).lsm = L.lsm := rfl
@[simp] theorem incMod_tls (L : Lane) (f : Fld) : (L.incMod f).tls = L.tls := rfl
@[simp] theorem incMod_ring (L : Lane) (f : Fld) : (L.incMod f).ring = L.ring := rfl
@[simp] theorem incMod_clv (L : Lane) (f : Fld) : (L.incMod f).clv = L.clv := rfl
@[simp] theorem incMod_evr (L : Lane) (f : Fld) : (L.incMod f).evr = L.evr := rfl
@[simp] theorem incMod_otp (L : Lane) (f : Fld) : (L.incMod f).otp = L.otp := rfl
@[simp] theorem incMod_lcs (L : Lane) (f : Fld) : (L.incMod f).lcs = L.lcs := rfl
@[simp] theorem incMod_ppr (L : Lane) (f : Fld) : (L.incMod f).ppr = L.ppr := rfl
@[simp] theorem incMod_dsp (L : Lane) (f : Fld) : (L.incMod f).dsp = L.dsp := rfl
@[simp] theorem incMod_lpe (L : Lane) (f : Fld) : (L.incMod f).lpe = L.lpe := rfl
@[simp] theorem incMod_out (L : Lane) (f : Fld) : (L.incMod f).out = L.out := rfl
@[simp] theorem incMod_adc (L : Lane) (f : Fld) : (L.incMod f).adc = L.adc := rfl
@[simp] theorem incMod_me (L : Lane) (f : Fld) : (L.incMod f).me = L.me := rfl
@[simp] theorem incMod_nte (L : Lane) (f : Fld) : (L.incMod f).nte = L.nte := rfl
@[simp] theorem incMod_cgw (L : Lane) (f : Fld) : (L.incMod f).cgw = L.cgw := rfl
@[simp] theorem incMod_bsc (L : Lane) (f : Fld) : (L.incMod f).bsc = L.bsc := rfl

@[simp] theorem laneSetBit_id (L : Lane) (f : Fld) (i : Nat) (v : Bool) : (L.setBit f i v).id = L.id := rfl
@[simp] theorem laneSetBit_mem (L : Lane) (f : Fld) (i : Nat) (v : Bool) : (L.setBit f i v).mem = L.mem := rfl
@[simp] theorem laneSetBit_upsets (L : Lane) (f : Fld) (i : Nat) (v : Bool) : (L.setBit f i v).upsets = L.upsets := rfl
@[simp] theorem laneSetBit_cache (L : Lane) (f : Fld) (i : Nat) (v : Bool) : (L.setBit f i v).cache = L.cache := rfl
@[simp] theorem laneSetBit_time (L : Lane) (f : Fld) (i : Nat) (v : Bool) : (L.setBit f i v).time = L.time := rfl
@[simp] theorem laneSetBit_mtime (L : Lane) (f : Fld) (i : Nat) (v : Bool) : (L.setBit f i v).mtime = L.mtime := rfl
@[simp] theorem laneSetBit_mtimecmp0 (L : Lane) (f : Fld) (i : Nat) (v : Bool) : (L.setBit f i v).mtimecmp0 = L.mtimecmp0 := rfl
@[simp] theorem laneSetBit_mtimecmp1 (L : Lane) (f : Fld) (i : Nat) (v : Bool) : (L.setBit f i v).mtimecmp1 = L.mtimecmp1 := rfl
@[simp] theorem laneSetBit_free (L : Lane) (f : Fld) (i : Nat) (v : Bool) : (L.setBit f i v).free = L.free := rfl
@[simp] theorem laneSetBit_pwr (L : Lane) (f : Fld) (i : Nat) (v : Bool) : (L.setBit f i v).pwr = L.pwr := rfl
@[simp] theorem laneSetBit_core0 (L : Lane) (f : Fld) (i : Nat) (v : Bool) : (L.setBit f i v).core0 = L.core0 := rfl
@[simp] theorem laneSetBit_core1 (L : Lane) (f : Fld) (i : Nat) (v : Bool) : (L.setBit f i v).core1 = L.core1 := rfl
@[simp] theorem laneSetBit_plic (L : Lane) (f : Fld) (i : Nat) (v : Bool) : (L.setBit f i v).plic = L.plic := rfl
@[simp] theorem laneSetBit_posted (L : Lane) (f : Fld) (i : Nat) (v : Bool) : (L.setBit f i v).posted = L.posted := rfl
@[simp] theorem laneSetBit_aosRet (L : Lane) (f : Fld) (i : Nat) (v : Bool) : (L.setBit f i v).aosRet = L.aosRet := rfl
@[simp] theorem laneSetBit_lsm (L : Lane) (f : Fld) (i : Nat) (v : Bool) : (L.setBit f i v).lsm = L.lsm := rfl
@[simp] theorem laneSetBit_tls (L : Lane) (f : Fld) (i : Nat) (v : Bool) : (L.setBit f i v).tls = L.tls := rfl
@[simp] theorem laneSetBit_ring (L : Lane) (f : Fld) (i : Nat) (v : Bool) : (L.setBit f i v).ring = L.ring := rfl
@[simp] theorem laneSetBit_clv (L : Lane) (f : Fld) (i : Nat) (v : Bool) : (L.setBit f i v).clv = L.clv := rfl
@[simp] theorem laneSetBit_evr (L : Lane) (f : Fld) (i : Nat) (v : Bool) : (L.setBit f i v).evr = L.evr := rfl
@[simp] theorem laneSetBit_otp (L : Lane) (f : Fld) (i : Nat) (v : Bool) : (L.setBit f i v).otp = L.otp := rfl
@[simp] theorem laneSetBit_lcs (L : Lane) (f : Fld) (i : Nat) (v : Bool) : (L.setBit f i v).lcs = L.lcs := rfl
@[simp] theorem laneSetBit_ppr (L : Lane) (f : Fld) (i : Nat) (v : Bool) : (L.setBit f i v).ppr = L.ppr := rfl
@[simp] theorem laneSetBit_dsp (L : Lane) (f : Fld) (i : Nat) (v : Bool) : (L.setBit f i v).dsp = L.dsp := rfl
@[simp] theorem laneSetBit_lpe (L : Lane) (f : Fld) (i : Nat) (v : Bool) : (L.setBit f i v).lpe = L.lpe := rfl
@[simp] theorem laneSetBit_out (L : Lane) (f : Fld) (i : Nat) (v : Bool) : (L.setBit f i v).out = L.out := rfl
@[simp] theorem laneSetBit_adc (L : Lane) (f : Fld) (i : Nat) (v : Bool) : (L.setBit f i v).adc = L.adc := rfl
@[simp] theorem laneSetBit_me (L : Lane) (f : Fld) (i : Nat) (v : Bool) : (L.setBit f i v).me = L.me := rfl
@[simp] theorem laneSetBit_nte (L : Lane) (f : Fld) (i : Nat) (v : Bool) : (L.setBit f i v).nte = L.nte := rfl
@[simp] theorem laneSetBit_cgw (L : Lane) (f : Fld) (i : Nat) (v : Bool) : (L.setBit f i v).cgw = L.cgw := rfl
@[simp] theorem laneSetBit_bsc (L : Lane) (f : Fld) (i : Nat) (v : Bool) : (L.setBit f i v).bsc = L.bsc := rfl

/-! A byte of memory written -/

@[simp] theorem wrB_regs (L : Lane) (a : Nat) (v : Byte) : (L.wrB a v).regs = L.regs := rfl
@[simp] theorem wrB_id (L : Lane) (a : Nat) (v : Byte) : (L.wrB a v).id = L.id := rfl
@[simp] theorem wrB_upsets (L : Lane) (a : Nat) (v : Byte) : (L.wrB a v).upsets = L.upsets := rfl
@[simp] theorem wrB_cache (L : Lane) (a : Nat) (v : Byte) : (L.wrB a v).cache = L.cache := rfl
@[simp] theorem wrB_time (L : Lane) (a : Nat) (v : Byte) : (L.wrB a v).time = L.time := rfl
@[simp] theorem wrB_mtime (L : Lane) (a : Nat) (v : Byte) : (L.wrB a v).mtime = L.mtime := rfl
@[simp] theorem wrB_mtimecmp0 (L : Lane) (a : Nat) (v : Byte) : (L.wrB a v).mtimecmp0 = L.mtimecmp0 := rfl
@[simp] theorem wrB_mtimecmp1 (L : Lane) (a : Nat) (v : Byte) : (L.wrB a v).mtimecmp1 = L.mtimecmp1 := rfl
@[simp] theorem wrB_free (L : Lane) (a : Nat) (v : Byte) : (L.wrB a v).free = L.free := rfl
@[simp] theorem wrB_pwr (L : Lane) (a : Nat) (v : Byte) : (L.wrB a v).pwr = L.pwr := rfl
@[simp] theorem wrB_core0 (L : Lane) (a : Nat) (v : Byte) : (L.wrB a v).core0 = L.core0 := rfl
@[simp] theorem wrB_core1 (L : Lane) (a : Nat) (v : Byte) : (L.wrB a v).core1 = L.core1 := rfl
@[simp] theorem wrB_plic (L : Lane) (a : Nat) (v : Byte) : (L.wrB a v).plic = L.plic := rfl
@[simp] theorem wrB_posted (L : Lane) (a : Nat) (v : Byte) : (L.wrB a v).posted = L.posted := rfl
@[simp] theorem wrB_aosRet (L : Lane) (a : Nat) (v : Byte) : (L.wrB a v).aosRet = L.aosRet := rfl
@[simp] theorem wrB_lsm (L : Lane) (a : Nat) (v : Byte) : (L.wrB a v).lsm = L.lsm := rfl
@[simp] theorem wrB_tls (L : Lane) (a : Nat) (v : Byte) : (L.wrB a v).tls = L.tls := rfl
@[simp] theorem wrB_ring (L : Lane) (a : Nat) (v : Byte) : (L.wrB a v).ring = L.ring := rfl
@[simp] theorem wrB_clv (L : Lane) (a : Nat) (v : Byte) : (L.wrB a v).clv = L.clv := rfl
@[simp] theorem wrB_evr (L : Lane) (a : Nat) (v : Byte) : (L.wrB a v).evr = L.evr := rfl
@[simp] theorem wrB_otp (L : Lane) (a : Nat) (v : Byte) : (L.wrB a v).otp = L.otp := rfl
@[simp] theorem wrB_lcs (L : Lane) (a : Nat) (v : Byte) : (L.wrB a v).lcs = L.lcs := rfl
@[simp] theorem wrB_ppr (L : Lane) (a : Nat) (v : Byte) : (L.wrB a v).ppr = L.ppr := rfl
@[simp] theorem wrB_dsp (L : Lane) (a : Nat) (v : Byte) : (L.wrB a v).dsp = L.dsp := rfl
@[simp] theorem wrB_lpe (L : Lane) (a : Nat) (v : Byte) : (L.wrB a v).lpe = L.lpe := rfl
@[simp] theorem wrB_out (L : Lane) (a : Nat) (v : Byte) : (L.wrB a v).out = L.out := rfl
@[simp] theorem wrB_adc (L : Lane) (a : Nat) (v : Byte) : (L.wrB a v).adc = L.adc := rfl
@[simp] theorem wrB_me (L : Lane) (a : Nat) (v : Byte) : (L.wrB a v).me = L.me := rfl
@[simp] theorem wrB_nte (L : Lane) (a : Nat) (v : Byte) : (L.wrB a v).nte = L.nte := rfl
@[simp] theorem wrB_cgw (L : Lane) (a : Nat) (v : Byte) : (L.wrB a v).cgw = L.cgw := rfl
@[simp] theorem wrB_bsc (L : Lane) (a : Nat) (v : Byte) : (L.wrB a v).bsc = L.bsc := rfl

/-! Bytes of memory written -/

@[simp] theorem wrBytes_regs (L : Lane) (a : Nat) (vs : List Byte) : (L.wrBytes a vs).regs = L.regs := by
  induction vs generalizing L a with
  | nil => rfl
  | cons v vs ih => simpa [Lane.wrBytes] using ih (L.wrB a v) (a + 1)
@[simp] theorem wrBytes_id (L : Lane) (a : Nat) (vs : List Byte) : (L.wrBytes a vs).id = L.id := by
  induction vs generalizing L a with
  | nil => rfl
  | cons v vs ih => simpa [Lane.wrBytes] using ih (L.wrB a v) (a + 1)
@[simp] theorem wrBytes_upsets (L : Lane) (a : Nat) (vs : List Byte) : (L.wrBytes a vs).upsets = L.upsets := by
  induction vs generalizing L a with
  | nil => rfl
  | cons v vs ih => simpa [Lane.wrBytes] using ih (L.wrB a v) (a + 1)
@[simp] theorem wrBytes_cache (L : Lane) (a : Nat) (vs : List Byte) : (L.wrBytes a vs).cache = L.cache := by
  induction vs generalizing L a with
  | nil => rfl
  | cons v vs ih => simpa [Lane.wrBytes] using ih (L.wrB a v) (a + 1)
@[simp] theorem wrBytes_time (L : Lane) (a : Nat) (vs : List Byte) : (L.wrBytes a vs).time = L.time := by
  induction vs generalizing L a with
  | nil => rfl
  | cons v vs ih => simpa [Lane.wrBytes] using ih (L.wrB a v) (a + 1)
@[simp] theorem wrBytes_mtime (L : Lane) (a : Nat) (vs : List Byte) : (L.wrBytes a vs).mtime = L.mtime := by
  induction vs generalizing L a with
  | nil => rfl
  | cons v vs ih => simpa [Lane.wrBytes] using ih (L.wrB a v) (a + 1)
@[simp] theorem wrBytes_mtimecmp0 (L : Lane) (a : Nat) (vs : List Byte) : (L.wrBytes a vs).mtimecmp0 = L.mtimecmp0 := by
  induction vs generalizing L a with
  | nil => rfl
  | cons v vs ih => simpa [Lane.wrBytes] using ih (L.wrB a v) (a + 1)
@[simp] theorem wrBytes_mtimecmp1 (L : Lane) (a : Nat) (vs : List Byte) : (L.wrBytes a vs).mtimecmp1 = L.mtimecmp1 := by
  induction vs generalizing L a with
  | nil => rfl
  | cons v vs ih => simpa [Lane.wrBytes] using ih (L.wrB a v) (a + 1)
@[simp] theorem wrBytes_free (L : Lane) (a : Nat) (vs : List Byte) : (L.wrBytes a vs).free = L.free := by
  induction vs generalizing L a with
  | nil => rfl
  | cons v vs ih => simpa [Lane.wrBytes] using ih (L.wrB a v) (a + 1)
@[simp] theorem wrBytes_pwr (L : Lane) (a : Nat) (vs : List Byte) : (L.wrBytes a vs).pwr = L.pwr := by
  induction vs generalizing L a with
  | nil => rfl
  | cons v vs ih => simpa [Lane.wrBytes] using ih (L.wrB a v) (a + 1)
@[simp] theorem wrBytes_core0 (L : Lane) (a : Nat) (vs : List Byte) : (L.wrBytes a vs).core0 = L.core0 := by
  induction vs generalizing L a with
  | nil => rfl
  | cons v vs ih => simpa [Lane.wrBytes] using ih (L.wrB a v) (a + 1)
@[simp] theorem wrBytes_core1 (L : Lane) (a : Nat) (vs : List Byte) : (L.wrBytes a vs).core1 = L.core1 := by
  induction vs generalizing L a with
  | nil => rfl
  | cons v vs ih => simpa [Lane.wrBytes] using ih (L.wrB a v) (a + 1)
@[simp] theorem wrBytes_plic (L : Lane) (a : Nat) (vs : List Byte) : (L.wrBytes a vs).plic = L.plic := by
  induction vs generalizing L a with
  | nil => rfl
  | cons v vs ih => simpa [Lane.wrBytes] using ih (L.wrB a v) (a + 1)
@[simp] theorem wrBytes_posted (L : Lane) (a : Nat) (vs : List Byte) : (L.wrBytes a vs).posted = L.posted := by
  induction vs generalizing L a with
  | nil => rfl
  | cons v vs ih => simpa [Lane.wrBytes] using ih (L.wrB a v) (a + 1)
@[simp] theorem wrBytes_aosRet (L : Lane) (a : Nat) (vs : List Byte) : (L.wrBytes a vs).aosRet = L.aosRet := by
  induction vs generalizing L a with
  | nil => rfl
  | cons v vs ih => simpa [Lane.wrBytes] using ih (L.wrB a v) (a + 1)
@[simp] theorem wrBytes_lsm (L : Lane) (a : Nat) (vs : List Byte) : (L.wrBytes a vs).lsm = L.lsm := by
  induction vs generalizing L a with
  | nil => rfl
  | cons v vs ih => simpa [Lane.wrBytes] using ih (L.wrB a v) (a + 1)
@[simp] theorem wrBytes_tls (L : Lane) (a : Nat) (vs : List Byte) : (L.wrBytes a vs).tls = L.tls := by
  induction vs generalizing L a with
  | nil => rfl
  | cons v vs ih => simpa [Lane.wrBytes] using ih (L.wrB a v) (a + 1)
@[simp] theorem wrBytes_ring (L : Lane) (a : Nat) (vs : List Byte) : (L.wrBytes a vs).ring = L.ring := by
  induction vs generalizing L a with
  | nil => rfl
  | cons v vs ih => simpa [Lane.wrBytes] using ih (L.wrB a v) (a + 1)
@[simp] theorem wrBytes_clv (L : Lane) (a : Nat) (vs : List Byte) : (L.wrBytes a vs).clv = L.clv := by
  induction vs generalizing L a with
  | nil => rfl
  | cons v vs ih => simpa [Lane.wrBytes] using ih (L.wrB a v) (a + 1)
@[simp] theorem wrBytes_evr (L : Lane) (a : Nat) (vs : List Byte) : (L.wrBytes a vs).evr = L.evr := by
  induction vs generalizing L a with
  | nil => rfl
  | cons v vs ih => simpa [Lane.wrBytes] using ih (L.wrB a v) (a + 1)
@[simp] theorem wrBytes_otp (L : Lane) (a : Nat) (vs : List Byte) : (L.wrBytes a vs).otp = L.otp := by
  induction vs generalizing L a with
  | nil => rfl
  | cons v vs ih => simpa [Lane.wrBytes] using ih (L.wrB a v) (a + 1)
@[simp] theorem wrBytes_lcs (L : Lane) (a : Nat) (vs : List Byte) : (L.wrBytes a vs).lcs = L.lcs := by
  induction vs generalizing L a with
  | nil => rfl
  | cons v vs ih => simpa [Lane.wrBytes] using ih (L.wrB a v) (a + 1)
@[simp] theorem wrBytes_ppr (L : Lane) (a : Nat) (vs : List Byte) : (L.wrBytes a vs).ppr = L.ppr := by
  induction vs generalizing L a with
  | nil => rfl
  | cons v vs ih => simpa [Lane.wrBytes] using ih (L.wrB a v) (a + 1)
@[simp] theorem wrBytes_dsp (L : Lane) (a : Nat) (vs : List Byte) : (L.wrBytes a vs).dsp = L.dsp := by
  induction vs generalizing L a with
  | nil => rfl
  | cons v vs ih => simpa [Lane.wrBytes] using ih (L.wrB a v) (a + 1)
@[simp] theorem wrBytes_lpe (L : Lane) (a : Nat) (vs : List Byte) : (L.wrBytes a vs).lpe = L.lpe := by
  induction vs generalizing L a with
  | nil => rfl
  | cons v vs ih => simpa [Lane.wrBytes] using ih (L.wrB a v) (a + 1)
@[simp] theorem wrBytes_out (L : Lane) (a : Nat) (vs : List Byte) : (L.wrBytes a vs).out = L.out := by
  induction vs generalizing L a with
  | nil => rfl
  | cons v vs ih => simpa [Lane.wrBytes] using ih (L.wrB a v) (a + 1)
@[simp] theorem wrBytes_adc (L : Lane) (a : Nat) (vs : List Byte) : (L.wrBytes a vs).adc = L.adc := by
  induction vs generalizing L a with
  | nil => rfl
  | cons v vs ih => simpa [Lane.wrBytes] using ih (L.wrB a v) (a + 1)
@[simp] theorem wrBytes_me (L : Lane) (a : Nat) (vs : List Byte) : (L.wrBytes a vs).me = L.me := by
  induction vs generalizing L a with
  | nil => rfl
  | cons v vs ih => simpa [Lane.wrBytes] using ih (L.wrB a v) (a + 1)
@[simp] theorem wrBytes_nte (L : Lane) (a : Nat) (vs : List Byte) : (L.wrBytes a vs).nte = L.nte := by
  induction vs generalizing L a with
  | nil => rfl
  | cons v vs ih => simpa [Lane.wrBytes] using ih (L.wrB a v) (a + 1)
@[simp] theorem wrBytes_cgw (L : Lane) (a : Nat) (vs : List Byte) : (L.wrBytes a vs).cgw = L.cgw := by
  induction vs generalizing L a with
  | nil => rfl
  | cons v vs ih => simpa [Lane.wrBytes] using ih (L.wrB a v) (a + 1)
@[simp] theorem wrBytes_bsc (L : Lane) (a : Nat) (vs : List Byte) : (L.wrBytes a vs).bsc = L.bsc := by
  induction vs generalizing L a with
  | nil => rfl
  | cons v vs ih => simpa [Lane.wrBytes] using ih (L.wrB a v) (a + 1)

/-! An interrupt source raised -/

@[simp] theorem plicRaise_regs (n : Nat) (L : Lane) : (plicRaise n L).regs = L.regs := by
  unfold plicRaise; split <;> rfl
@[simp] theorem plicRaise_id (n : Nat) (L : Lane) : (plicRaise n L).id = L.id := by
  unfold plicRaise; split <;> rfl
@[simp] theorem plicRaise_mem (n : Nat) (L : Lane) : (plicRaise n L).mem = L.mem := by
  unfold plicRaise; split <;> rfl
@[simp] theorem plicRaise_upsets (n : Nat) (L : Lane) : (plicRaise n L).upsets = L.upsets := by
  unfold plicRaise; split <;> rfl
@[simp] theorem plicRaise_cache (n : Nat) (L : Lane) : (plicRaise n L).cache = L.cache := by
  unfold plicRaise; split <;> rfl
@[simp] theorem plicRaise_time (n : Nat) (L : Lane) : (plicRaise n L).time = L.time := by
  unfold plicRaise; split <;> rfl
@[simp] theorem plicRaise_mtime (n : Nat) (L : Lane) : (plicRaise n L).mtime = L.mtime := by
  unfold plicRaise; split <;> rfl
@[simp] theorem plicRaise_mtimecmp0 (n : Nat) (L : Lane) : (plicRaise n L).mtimecmp0 = L.mtimecmp0 := by
  unfold plicRaise; split <;> rfl
@[simp] theorem plicRaise_mtimecmp1 (n : Nat) (L : Lane) : (plicRaise n L).mtimecmp1 = L.mtimecmp1 := by
  unfold plicRaise; split <;> rfl
@[simp] theorem plicRaise_free (n : Nat) (L : Lane) : (plicRaise n L).free = L.free := by
  unfold plicRaise; split <;> rfl
@[simp] theorem plicRaise_pwr (n : Nat) (L : Lane) : (plicRaise n L).pwr = L.pwr := by
  unfold plicRaise; split <;> rfl
@[simp] theorem plicRaise_core0 (n : Nat) (L : Lane) : (plicRaise n L).core0 = L.core0 := by
  unfold plicRaise; split <;> rfl
@[simp] theorem plicRaise_core1 (n : Nat) (L : Lane) : (plicRaise n L).core1 = L.core1 := by
  unfold plicRaise; split <;> rfl
@[simp] theorem plicRaise_posted (n : Nat) (L : Lane) : (plicRaise n L).posted = L.posted := by
  unfold plicRaise; split <;> rfl
@[simp] theorem plicRaise_aosRet (n : Nat) (L : Lane) : (plicRaise n L).aosRet = L.aosRet := by
  unfold plicRaise; split <;> rfl
@[simp] theorem plicRaise_lsm (n : Nat) (L : Lane) : (plicRaise n L).lsm = L.lsm := by
  unfold plicRaise; split <;> rfl
@[simp] theorem plicRaise_tls (n : Nat) (L : Lane) : (plicRaise n L).tls = L.tls := by
  unfold plicRaise; split <;> rfl
@[simp] theorem plicRaise_ring (n : Nat) (L : Lane) : (plicRaise n L).ring = L.ring := by
  unfold plicRaise; split <;> rfl
@[simp] theorem plicRaise_clv (n : Nat) (L : Lane) : (plicRaise n L).clv = L.clv := by
  unfold plicRaise; split <;> rfl
@[simp] theorem plicRaise_evr (n : Nat) (L : Lane) : (plicRaise n L).evr = L.evr := by
  unfold plicRaise; split <;> rfl
@[simp] theorem plicRaise_otp (n : Nat) (L : Lane) : (plicRaise n L).otp = L.otp := by
  unfold plicRaise; split <;> rfl
@[simp] theorem plicRaise_lcs (n : Nat) (L : Lane) : (plicRaise n L).lcs = L.lcs := by
  unfold plicRaise; split <;> rfl
@[simp] theorem plicRaise_ppr (n : Nat) (L : Lane) : (plicRaise n L).ppr = L.ppr := by
  unfold plicRaise; split <;> rfl
@[simp] theorem plicRaise_dsp (n : Nat) (L : Lane) : (plicRaise n L).dsp = L.dsp := by
  unfold plicRaise; split <;> rfl
@[simp] theorem plicRaise_lpe (n : Nat) (L : Lane) : (plicRaise n L).lpe = L.lpe := by
  unfold plicRaise; split <;> rfl
@[simp] theorem plicRaise_out (n : Nat) (L : Lane) : (plicRaise n L).out = L.out := by
  unfold plicRaise; split <;> rfl
@[simp] theorem plicRaise_adc (n : Nat) (L : Lane) : (plicRaise n L).adc = L.adc := by
  unfold plicRaise; split <;> rfl
@[simp] theorem plicRaise_me (n : Nat) (L : Lane) : (plicRaise n L).me = L.me := by
  unfold plicRaise; split <;> rfl
@[simp] theorem plicRaise_nte (n : Nat) (L : Lane) : (plicRaise n L).nte = L.nte := by
  unfold plicRaise; split <;> rfl
@[simp] theorem plicRaise_cgw (n : Nat) (L : Lane) : (plicRaise n L).cgw = L.cgw := by
  unfold plicRaise; split <;> rfl
@[simp] theorem plicRaise_bsc (n : Nat) (L : Lane) : (plicRaise n L).bsc = L.bsc := by
  unfold plicRaise; split <;> rfl

/-! withClv -/

@[simp] theorem withClv_regs (f : ClvSt → ClvSt) (L : Lane) : (withClv f L).regs = L.regs := rfl
@[simp] theorem withClv_id (f : ClvSt → ClvSt) (L : Lane) : (withClv f L).id = L.id := rfl
@[simp] theorem withClv_mem (f : ClvSt → ClvSt) (L : Lane) : (withClv f L).mem = L.mem := rfl
@[simp] theorem withClv_upsets (f : ClvSt → ClvSt) (L : Lane) : (withClv f L).upsets = L.upsets := rfl
@[simp] theorem withClv_cache (f : ClvSt → ClvSt) (L : Lane) : (withClv f L).cache = L.cache := rfl
@[simp] theorem withClv_time (f : ClvSt → ClvSt) (L : Lane) : (withClv f L).time = L.time := rfl
@[simp] theorem withClv_mtime (f : ClvSt → ClvSt) (L : Lane) : (withClv f L).mtime = L.mtime := rfl
@[simp] theorem withClv_mtimecmp0 (f : ClvSt → ClvSt) (L : Lane) : (withClv f L).mtimecmp0 = L.mtimecmp0 := rfl
@[simp] theorem withClv_mtimecmp1 (f : ClvSt → ClvSt) (L : Lane) : (withClv f L).mtimecmp1 = L.mtimecmp1 := rfl
@[simp] theorem withClv_free (f : ClvSt → ClvSt) (L : Lane) : (withClv f L).free = L.free := rfl
@[simp] theorem withClv_pwr (f : ClvSt → ClvSt) (L : Lane) : (withClv f L).pwr = L.pwr := rfl
@[simp] theorem withClv_core0 (f : ClvSt → ClvSt) (L : Lane) : (withClv f L).core0 = L.core0 := rfl
@[simp] theorem withClv_core1 (f : ClvSt → ClvSt) (L : Lane) : (withClv f L).core1 = L.core1 := rfl
@[simp] theorem withClv_plic (f : ClvSt → ClvSt) (L : Lane) : (withClv f L).plic = L.plic := rfl
@[simp] theorem withClv_posted (f : ClvSt → ClvSt) (L : Lane) : (withClv f L).posted = L.posted := rfl
@[simp] theorem withClv_aosRet (f : ClvSt → ClvSt) (L : Lane) : (withClv f L).aosRet = L.aosRet := rfl
@[simp] theorem withClv_lsm (f : ClvSt → ClvSt) (L : Lane) : (withClv f L).lsm = L.lsm := rfl
@[simp] theorem withClv_tls (f : ClvSt → ClvSt) (L : Lane) : (withClv f L).tls = L.tls := rfl
@[simp] theorem withClv_ring (f : ClvSt → ClvSt) (L : Lane) : (withClv f L).ring = L.ring := rfl
@[simp] theorem withClv_clv (f : ClvSt → ClvSt) (L : Lane) : (withClv f L).clv = f L.clv := rfl
@[simp] theorem withClv_evr (f : ClvSt → ClvSt) (L : Lane) : (withClv f L).evr = L.evr := rfl
@[simp] theorem withClv_otp (f : ClvSt → ClvSt) (L : Lane) : (withClv f L).otp = L.otp := rfl
@[simp] theorem withClv_lcs (f : ClvSt → ClvSt) (L : Lane) : (withClv f L).lcs = L.lcs := rfl
@[simp] theorem withClv_ppr (f : ClvSt → ClvSt) (L : Lane) : (withClv f L).ppr = L.ppr := rfl
@[simp] theorem withClv_dsp (f : ClvSt → ClvSt) (L : Lane) : (withClv f L).dsp = L.dsp := rfl
@[simp] theorem withClv_lpe (f : ClvSt → ClvSt) (L : Lane) : (withClv f L).lpe = L.lpe := rfl
@[simp] theorem withClv_out (f : ClvSt → ClvSt) (L : Lane) : (withClv f L).out = L.out := rfl
@[simp] theorem withClv_adc (f : ClvSt → ClvSt) (L : Lane) : (withClv f L).adc = L.adc := rfl
@[simp] theorem withClv_me (f : ClvSt → ClvSt) (L : Lane) : (withClv f L).me = L.me := rfl
@[simp] theorem withClv_nte (f : ClvSt → ClvSt) (L : Lane) : (withClv f L).nte = L.nte := rfl
@[simp] theorem withClv_cgw (f : ClvSt → ClvSt) (L : Lane) : (withClv f L).cgw = L.cgw := rfl
@[simp] theorem withClv_bsc (f : ClvSt → ClvSt) (L : Lane) : (withClv f L).bsc = L.bsc := rfl

/-! withTls -/

@[simp] theorem withTls_regs (f : TlsSt → TlsSt) (L : Lane) : (withTls f L).regs = L.regs := rfl
@[simp] theorem withTls_id (f : TlsSt → TlsSt) (L : Lane) : (withTls f L).id = L.id := rfl
@[simp] theorem withTls_mem (f : TlsSt → TlsSt) (L : Lane) : (withTls f L).mem = L.mem := rfl
@[simp] theorem withTls_upsets (f : TlsSt → TlsSt) (L : Lane) : (withTls f L).upsets = L.upsets := rfl
@[simp] theorem withTls_cache (f : TlsSt → TlsSt) (L : Lane) : (withTls f L).cache = L.cache := rfl
@[simp] theorem withTls_time (f : TlsSt → TlsSt) (L : Lane) : (withTls f L).time = L.time := rfl
@[simp] theorem withTls_mtime (f : TlsSt → TlsSt) (L : Lane) : (withTls f L).mtime = L.mtime := rfl
@[simp] theorem withTls_mtimecmp0 (f : TlsSt → TlsSt) (L : Lane) : (withTls f L).mtimecmp0 = L.mtimecmp0 := rfl
@[simp] theorem withTls_mtimecmp1 (f : TlsSt → TlsSt) (L : Lane) : (withTls f L).mtimecmp1 = L.mtimecmp1 := rfl
@[simp] theorem withTls_free (f : TlsSt → TlsSt) (L : Lane) : (withTls f L).free = L.free := rfl
@[simp] theorem withTls_pwr (f : TlsSt → TlsSt) (L : Lane) : (withTls f L).pwr = L.pwr := rfl
@[simp] theorem withTls_core0 (f : TlsSt → TlsSt) (L : Lane) : (withTls f L).core0 = L.core0 := rfl
@[simp] theorem withTls_core1 (f : TlsSt → TlsSt) (L : Lane) : (withTls f L).core1 = L.core1 := rfl
@[simp] theorem withTls_plic (f : TlsSt → TlsSt) (L : Lane) : (withTls f L).plic = L.plic := rfl
@[simp] theorem withTls_posted (f : TlsSt → TlsSt) (L : Lane) : (withTls f L).posted = L.posted := rfl
@[simp] theorem withTls_aosRet (f : TlsSt → TlsSt) (L : Lane) : (withTls f L).aosRet = L.aosRet := rfl
@[simp] theorem withTls_lsm (f : TlsSt → TlsSt) (L : Lane) : (withTls f L).lsm = L.lsm := rfl
@[simp] theorem withTls_tls (f : TlsSt → TlsSt) (L : Lane) : (withTls f L).tls = f L.tls := rfl
@[simp] theorem withTls_ring (f : TlsSt → TlsSt) (L : Lane) : (withTls f L).ring = L.ring := rfl
@[simp] theorem withTls_clv (f : TlsSt → TlsSt) (L : Lane) : (withTls f L).clv = L.clv := rfl
@[simp] theorem withTls_evr (f : TlsSt → TlsSt) (L : Lane) : (withTls f L).evr = L.evr := rfl
@[simp] theorem withTls_otp (f : TlsSt → TlsSt) (L : Lane) : (withTls f L).otp = L.otp := rfl
@[simp] theorem withTls_lcs (f : TlsSt → TlsSt) (L : Lane) : (withTls f L).lcs = L.lcs := rfl
@[simp] theorem withTls_ppr (f : TlsSt → TlsSt) (L : Lane) : (withTls f L).ppr = L.ppr := rfl
@[simp] theorem withTls_dsp (f : TlsSt → TlsSt) (L : Lane) : (withTls f L).dsp = L.dsp := rfl
@[simp] theorem withTls_lpe (f : TlsSt → TlsSt) (L : Lane) : (withTls f L).lpe = L.lpe := rfl
@[simp] theorem withTls_out (f : TlsSt → TlsSt) (L : Lane) : (withTls f L).out = L.out := rfl
@[simp] theorem withTls_adc (f : TlsSt → TlsSt) (L : Lane) : (withTls f L).adc = L.adc := rfl
@[simp] theorem withTls_me (f : TlsSt → TlsSt) (L : Lane) : (withTls f L).me = L.me := rfl
@[simp] theorem withTls_nte (f : TlsSt → TlsSt) (L : Lane) : (withTls f L).nte = L.nte := rfl
@[simp] theorem withTls_cgw (f : TlsSt → TlsSt) (L : Lane) : (withTls f L).cgw = L.cgw := rfl
@[simp] theorem withTls_bsc (f : TlsSt → TlsSt) (L : Lane) : (withTls f L).bsc = L.bsc := rfl

/-! withPwr -/

@[simp] theorem withPwr_regs (f : PwrSt → PwrSt) (L : Lane) : (withPwr f L).regs = L.regs := rfl
@[simp] theorem withPwr_id (f : PwrSt → PwrSt) (L : Lane) : (withPwr f L).id = L.id := rfl
@[simp] theorem withPwr_mem (f : PwrSt → PwrSt) (L : Lane) : (withPwr f L).mem = L.mem := rfl
@[simp] theorem withPwr_upsets (f : PwrSt → PwrSt) (L : Lane) : (withPwr f L).upsets = L.upsets := rfl
@[simp] theorem withPwr_cache (f : PwrSt → PwrSt) (L : Lane) : (withPwr f L).cache = L.cache := rfl
@[simp] theorem withPwr_time (f : PwrSt → PwrSt) (L : Lane) : (withPwr f L).time = L.time := rfl
@[simp] theorem withPwr_mtime (f : PwrSt → PwrSt) (L : Lane) : (withPwr f L).mtime = L.mtime := rfl
@[simp] theorem withPwr_mtimecmp0 (f : PwrSt → PwrSt) (L : Lane) : (withPwr f L).mtimecmp0 = L.mtimecmp0 := rfl
@[simp] theorem withPwr_mtimecmp1 (f : PwrSt → PwrSt) (L : Lane) : (withPwr f L).mtimecmp1 = L.mtimecmp1 := rfl
@[simp] theorem withPwr_free (f : PwrSt → PwrSt) (L : Lane) : (withPwr f L).free = L.free := rfl
@[simp] theorem withPwr_pwr (f : PwrSt → PwrSt) (L : Lane) : (withPwr f L).pwr = f L.pwr := rfl
@[simp] theorem withPwr_core0 (f : PwrSt → PwrSt) (L : Lane) : (withPwr f L).core0 = L.core0 := rfl
@[simp] theorem withPwr_core1 (f : PwrSt → PwrSt) (L : Lane) : (withPwr f L).core1 = L.core1 := rfl
@[simp] theorem withPwr_plic (f : PwrSt → PwrSt) (L : Lane) : (withPwr f L).plic = L.plic := rfl
@[simp] theorem withPwr_posted (f : PwrSt → PwrSt) (L : Lane) : (withPwr f L).posted = L.posted := rfl
@[simp] theorem withPwr_aosRet (f : PwrSt → PwrSt) (L : Lane) : (withPwr f L).aosRet = L.aosRet := rfl
@[simp] theorem withPwr_lsm (f : PwrSt → PwrSt) (L : Lane) : (withPwr f L).lsm = L.lsm := rfl
@[simp] theorem withPwr_tls (f : PwrSt → PwrSt) (L : Lane) : (withPwr f L).tls = L.tls := rfl
@[simp] theorem withPwr_ring (f : PwrSt → PwrSt) (L : Lane) : (withPwr f L).ring = L.ring := rfl
@[simp] theorem withPwr_clv (f : PwrSt → PwrSt) (L : Lane) : (withPwr f L).clv = L.clv := rfl
@[simp] theorem withPwr_evr (f : PwrSt → PwrSt) (L : Lane) : (withPwr f L).evr = L.evr := rfl
@[simp] theorem withPwr_otp (f : PwrSt → PwrSt) (L : Lane) : (withPwr f L).otp = L.otp := rfl
@[simp] theorem withPwr_lcs (f : PwrSt → PwrSt) (L : Lane) : (withPwr f L).lcs = L.lcs := rfl
@[simp] theorem withPwr_ppr (f : PwrSt → PwrSt) (L : Lane) : (withPwr f L).ppr = L.ppr := rfl
@[simp] theorem withPwr_dsp (f : PwrSt → PwrSt) (L : Lane) : (withPwr f L).dsp = L.dsp := rfl
@[simp] theorem withPwr_lpe (f : PwrSt → PwrSt) (L : Lane) : (withPwr f L).lpe = L.lpe := rfl
@[simp] theorem withPwr_out (f : PwrSt → PwrSt) (L : Lane) : (withPwr f L).out = L.out := rfl
@[simp] theorem withPwr_adc (f : PwrSt → PwrSt) (L : Lane) : (withPwr f L).adc = L.adc := rfl
@[simp] theorem withPwr_me (f : PwrSt → PwrSt) (L : Lane) : (withPwr f L).me = L.me := rfl
@[simp] theorem withPwr_nte (f : PwrSt → PwrSt) (L : Lane) : (withPwr f L).nte = L.nte := rfl
@[simp] theorem withPwr_cgw (f : PwrSt → PwrSt) (L : Lane) : (withPwr f L).cgw = L.cgw := rfl
@[simp] theorem withPwr_bsc (f : PwrSt → PwrSt) (L : Lane) : (withPwr f L).bsc = L.bsc := rfl

/-! withEvr -/

@[simp] theorem withEvr_regs (f : EvrSt → EvrSt) (L : Lane) : (withEvr f L).regs = L.regs := rfl
@[simp] theorem withEvr_id (f : EvrSt → EvrSt) (L : Lane) : (withEvr f L).id = L.id := rfl
@[simp] theorem withEvr_mem (f : EvrSt → EvrSt) (L : Lane) : (withEvr f L).mem = L.mem := rfl
@[simp] theorem withEvr_upsets (f : EvrSt → EvrSt) (L : Lane) : (withEvr f L).upsets = L.upsets := rfl
@[simp] theorem withEvr_cache (f : EvrSt → EvrSt) (L : Lane) : (withEvr f L).cache = L.cache := rfl
@[simp] theorem withEvr_time (f : EvrSt → EvrSt) (L : Lane) : (withEvr f L).time = L.time := rfl
@[simp] theorem withEvr_mtime (f : EvrSt → EvrSt) (L : Lane) : (withEvr f L).mtime = L.mtime := rfl
@[simp] theorem withEvr_mtimecmp0 (f : EvrSt → EvrSt) (L : Lane) : (withEvr f L).mtimecmp0 = L.mtimecmp0 := rfl
@[simp] theorem withEvr_mtimecmp1 (f : EvrSt → EvrSt) (L : Lane) : (withEvr f L).mtimecmp1 = L.mtimecmp1 := rfl
@[simp] theorem withEvr_free (f : EvrSt → EvrSt) (L : Lane) : (withEvr f L).free = L.free := rfl
@[simp] theorem withEvr_pwr (f : EvrSt → EvrSt) (L : Lane) : (withEvr f L).pwr = L.pwr := rfl
@[simp] theorem withEvr_core0 (f : EvrSt → EvrSt) (L : Lane) : (withEvr f L).core0 = L.core0 := rfl
@[simp] theorem withEvr_core1 (f : EvrSt → EvrSt) (L : Lane) : (withEvr f L).core1 = L.core1 := rfl
@[simp] theorem withEvr_plic (f : EvrSt → EvrSt) (L : Lane) : (withEvr f L).plic = L.plic := rfl
@[simp] theorem withEvr_posted (f : EvrSt → EvrSt) (L : Lane) : (withEvr f L).posted = L.posted := rfl
@[simp] theorem withEvr_aosRet (f : EvrSt → EvrSt) (L : Lane) : (withEvr f L).aosRet = L.aosRet := rfl
@[simp] theorem withEvr_lsm (f : EvrSt → EvrSt) (L : Lane) : (withEvr f L).lsm = L.lsm := rfl
@[simp] theorem withEvr_tls (f : EvrSt → EvrSt) (L : Lane) : (withEvr f L).tls = L.tls := rfl
@[simp] theorem withEvr_ring (f : EvrSt → EvrSt) (L : Lane) : (withEvr f L).ring = L.ring := rfl
@[simp] theorem withEvr_clv (f : EvrSt → EvrSt) (L : Lane) : (withEvr f L).clv = L.clv := rfl
@[simp] theorem withEvr_evr (f : EvrSt → EvrSt) (L : Lane) : (withEvr f L).evr = f L.evr := rfl
@[simp] theorem withEvr_otp (f : EvrSt → EvrSt) (L : Lane) : (withEvr f L).otp = L.otp := rfl
@[simp] theorem withEvr_lcs (f : EvrSt → EvrSt) (L : Lane) : (withEvr f L).lcs = L.lcs := rfl
@[simp] theorem withEvr_ppr (f : EvrSt → EvrSt) (L : Lane) : (withEvr f L).ppr = L.ppr := rfl
@[simp] theorem withEvr_dsp (f : EvrSt → EvrSt) (L : Lane) : (withEvr f L).dsp = L.dsp := rfl
@[simp] theorem withEvr_lpe (f : EvrSt → EvrSt) (L : Lane) : (withEvr f L).lpe = L.lpe := rfl
@[simp] theorem withEvr_out (f : EvrSt → EvrSt) (L : Lane) : (withEvr f L).out = L.out := rfl
@[simp] theorem withEvr_adc (f : EvrSt → EvrSt) (L : Lane) : (withEvr f L).adc = L.adc := rfl
@[simp] theorem withEvr_me (f : EvrSt → EvrSt) (L : Lane) : (withEvr f L).me = L.me := rfl
@[simp] theorem withEvr_nte (f : EvrSt → EvrSt) (L : Lane) : (withEvr f L).nte = L.nte := rfl
@[simp] theorem withEvr_cgw (f : EvrSt → EvrSt) (L : Lane) : (withEvr f L).cgw = L.cgw := rfl
@[simp] theorem withEvr_bsc (f : EvrSt → EvrSt) (L : Lane) : (withEvr f L).bsc = L.bsc := rfl

/-! withNte -/

@[simp] theorem withNte_regs (f : NteSt → NteSt) (L : Lane) : (withNte f L).regs = L.regs := rfl
@[simp] theorem withNte_id (f : NteSt → NteSt) (L : Lane) : (withNte f L).id = L.id := rfl
@[simp] theorem withNte_mem (f : NteSt → NteSt) (L : Lane) : (withNte f L).mem = L.mem := rfl
@[simp] theorem withNte_upsets (f : NteSt → NteSt) (L : Lane) : (withNte f L).upsets = L.upsets := rfl
@[simp] theorem withNte_cache (f : NteSt → NteSt) (L : Lane) : (withNte f L).cache = L.cache := rfl
@[simp] theorem withNte_time (f : NteSt → NteSt) (L : Lane) : (withNte f L).time = L.time := rfl
@[simp] theorem withNte_mtime (f : NteSt → NteSt) (L : Lane) : (withNte f L).mtime = L.mtime := rfl
@[simp] theorem withNte_mtimecmp0 (f : NteSt → NteSt) (L : Lane) : (withNte f L).mtimecmp0 = L.mtimecmp0 := rfl
@[simp] theorem withNte_mtimecmp1 (f : NteSt → NteSt) (L : Lane) : (withNte f L).mtimecmp1 = L.mtimecmp1 := rfl
@[simp] theorem withNte_free (f : NteSt → NteSt) (L : Lane) : (withNte f L).free = L.free := rfl
@[simp] theorem withNte_pwr (f : NteSt → NteSt) (L : Lane) : (withNte f L).pwr = L.pwr := rfl
@[simp] theorem withNte_core0 (f : NteSt → NteSt) (L : Lane) : (withNte f L).core0 = L.core0 := rfl
@[simp] theorem withNte_core1 (f : NteSt → NteSt) (L : Lane) : (withNte f L).core1 = L.core1 := rfl
@[simp] theorem withNte_plic (f : NteSt → NteSt) (L : Lane) : (withNte f L).plic = L.plic := rfl
@[simp] theorem withNte_posted (f : NteSt → NteSt) (L : Lane) : (withNte f L).posted = L.posted := rfl
@[simp] theorem withNte_aosRet (f : NteSt → NteSt) (L : Lane) : (withNte f L).aosRet = L.aosRet := rfl
@[simp] theorem withNte_lsm (f : NteSt → NteSt) (L : Lane) : (withNte f L).lsm = L.lsm := rfl
@[simp] theorem withNte_tls (f : NteSt → NteSt) (L : Lane) : (withNte f L).tls = L.tls := rfl
@[simp] theorem withNte_ring (f : NteSt → NteSt) (L : Lane) : (withNte f L).ring = L.ring := rfl
@[simp] theorem withNte_clv (f : NteSt → NteSt) (L : Lane) : (withNte f L).clv = L.clv := rfl
@[simp] theorem withNte_evr (f : NteSt → NteSt) (L : Lane) : (withNte f L).evr = L.evr := rfl
@[simp] theorem withNte_otp (f : NteSt → NteSt) (L : Lane) : (withNte f L).otp = L.otp := rfl
@[simp] theorem withNte_lcs (f : NteSt → NteSt) (L : Lane) : (withNte f L).lcs = L.lcs := rfl
@[simp] theorem withNte_ppr (f : NteSt → NteSt) (L : Lane) : (withNte f L).ppr = L.ppr := rfl
@[simp] theorem withNte_dsp (f : NteSt → NteSt) (L : Lane) : (withNte f L).dsp = L.dsp := rfl
@[simp] theorem withNte_lpe (f : NteSt → NteSt) (L : Lane) : (withNte f L).lpe = L.lpe := rfl
@[simp] theorem withNte_out (f : NteSt → NteSt) (L : Lane) : (withNte f L).out = L.out := rfl
@[simp] theorem withNte_adc (f : NteSt → NteSt) (L : Lane) : (withNte f L).adc = L.adc := rfl
@[simp] theorem withNte_me (f : NteSt → NteSt) (L : Lane) : (withNte f L).me = L.me := rfl
@[simp] theorem withNte_nte (f : NteSt → NteSt) (L : Lane) : (withNte f L).nte = f L.nte := rfl
@[simp] theorem withNte_cgw (f : NteSt → NteSt) (L : Lane) : (withNte f L).cgw = L.cgw := rfl
@[simp] theorem withNte_bsc (f : NteSt → NteSt) (L : Lane) : (withNte f L).bsc = L.bsc := rfl

/-! withBsc -/

@[simp] theorem withBsc_regs (f : BscSt → BscSt) (L : Lane) : (withBsc f L).regs = L.regs := rfl
@[simp] theorem withBsc_id (f : BscSt → BscSt) (L : Lane) : (withBsc f L).id = L.id := rfl
@[simp] theorem withBsc_mem (f : BscSt → BscSt) (L : Lane) : (withBsc f L).mem = L.mem := rfl
@[simp] theorem withBsc_upsets (f : BscSt → BscSt) (L : Lane) : (withBsc f L).upsets = L.upsets := rfl
@[simp] theorem withBsc_cache (f : BscSt → BscSt) (L : Lane) : (withBsc f L).cache = L.cache := rfl
@[simp] theorem withBsc_time (f : BscSt → BscSt) (L : Lane) : (withBsc f L).time = L.time := rfl
@[simp] theorem withBsc_mtime (f : BscSt → BscSt) (L : Lane) : (withBsc f L).mtime = L.mtime := rfl
@[simp] theorem withBsc_mtimecmp0 (f : BscSt → BscSt) (L : Lane) : (withBsc f L).mtimecmp0 = L.mtimecmp0 := rfl
@[simp] theorem withBsc_mtimecmp1 (f : BscSt → BscSt) (L : Lane) : (withBsc f L).mtimecmp1 = L.mtimecmp1 := rfl
@[simp] theorem withBsc_free (f : BscSt → BscSt) (L : Lane) : (withBsc f L).free = L.free := rfl
@[simp] theorem withBsc_pwr (f : BscSt → BscSt) (L : Lane) : (withBsc f L).pwr = L.pwr := rfl
@[simp] theorem withBsc_core0 (f : BscSt → BscSt) (L : Lane) : (withBsc f L).core0 = L.core0 := rfl
@[simp] theorem withBsc_core1 (f : BscSt → BscSt) (L : Lane) : (withBsc f L).core1 = L.core1 := rfl
@[simp] theorem withBsc_plic (f : BscSt → BscSt) (L : Lane) : (withBsc f L).plic = L.plic := rfl
@[simp] theorem withBsc_posted (f : BscSt → BscSt) (L : Lane) : (withBsc f L).posted = L.posted := rfl
@[simp] theorem withBsc_aosRet (f : BscSt → BscSt) (L : Lane) : (withBsc f L).aosRet = L.aosRet := rfl
@[simp] theorem withBsc_lsm (f : BscSt → BscSt) (L : Lane) : (withBsc f L).lsm = L.lsm := rfl
@[simp] theorem withBsc_tls (f : BscSt → BscSt) (L : Lane) : (withBsc f L).tls = L.tls := rfl
@[simp] theorem withBsc_ring (f : BscSt → BscSt) (L : Lane) : (withBsc f L).ring = L.ring := rfl
@[simp] theorem withBsc_clv (f : BscSt → BscSt) (L : Lane) : (withBsc f L).clv = L.clv := rfl
@[simp] theorem withBsc_evr (f : BscSt → BscSt) (L : Lane) : (withBsc f L).evr = L.evr := rfl
@[simp] theorem withBsc_otp (f : BscSt → BscSt) (L : Lane) : (withBsc f L).otp = L.otp := rfl
@[simp] theorem withBsc_lcs (f : BscSt → BscSt) (L : Lane) : (withBsc f L).lcs = L.lcs := rfl
@[simp] theorem withBsc_ppr (f : BscSt → BscSt) (L : Lane) : (withBsc f L).ppr = L.ppr := rfl
@[simp] theorem withBsc_dsp (f : BscSt → BscSt) (L : Lane) : (withBsc f L).dsp = L.dsp := rfl
@[simp] theorem withBsc_lpe (f : BscSt → BscSt) (L : Lane) : (withBsc f L).lpe = L.lpe := rfl
@[simp] theorem withBsc_out (f : BscSt → BscSt) (L : Lane) : (withBsc f L).out = L.out := rfl
@[simp] theorem withBsc_adc (f : BscSt → BscSt) (L : Lane) : (withBsc f L).adc = L.adc := rfl
@[simp] theorem withBsc_me (f : BscSt → BscSt) (L : Lane) : (withBsc f L).me = L.me := rfl
@[simp] theorem withBsc_nte (f : BscSt → BscSt) (L : Lane) : (withBsc f L).nte = L.nte := rfl
@[simp] theorem withBsc_cgw (f : BscSt → BscSt) (L : Lane) : (withBsc f L).cgw = L.cgw := rfl
@[simp] theorem withBsc_bsc (f : BscSt → BscSt) (L : Lane) : (withBsc f L).bsc = f L.bsc := rfl

/-! setCan -/

@[simp] theorem setCan_regs (c : Nat) (f : CanCh → CanCh) (L : Lane) : (setCan c f L).regs = L.regs := rfl
@[simp] theorem setCan_id (c : Nat) (f : CanCh → CanCh) (L : Lane) : (setCan c f L).id = L.id := rfl
@[simp] theorem setCan_mem (c : Nat) (f : CanCh → CanCh) (L : Lane) : (setCan c f L).mem = L.mem := rfl
@[simp] theorem setCan_upsets (c : Nat) (f : CanCh → CanCh) (L : Lane) : (setCan c f L).upsets = L.upsets := rfl
@[simp] theorem setCan_cache (c : Nat) (f : CanCh → CanCh) (L : Lane) : (setCan c f L).cache = L.cache := rfl
@[simp] theorem setCan_time (c : Nat) (f : CanCh → CanCh) (L : Lane) : (setCan c f L).time = L.time := rfl
@[simp] theorem setCan_pwr (c : Nat) (f : CanCh → CanCh) (L : Lane) : (setCan c f L).pwr = L.pwr := rfl
@[simp] theorem setCan_otp (c : Nat) (f : CanCh → CanCh) (L : Lane) : (setCan c f L).otp = L.otp := rfl
@[simp] theorem setCan_clv (c : Nat) (f : CanCh → CanCh) (L : Lane) : (setCan c f L).clv = L.clv := rfl
@[simp] theorem setCan_evr (c : Nat) (f : CanCh → CanCh) (L : Lane) : (setCan c f L).evr = L.evr := rfl
@[simp] theorem setCan_nte (c : Nat) (f : CanCh → CanCh) (L : Lane) : (setCan c f L).nte = L.nte := rfl
@[simp] theorem setCan_ring (c : Nat) (f : CanCh → CanCh) (L : Lane) : (setCan c f L).ring = L.ring := rfl
@[simp] theorem setCan_bsc (c : Nat) (f : CanCh → CanCh) (L : Lane) : (setCan c f L).bsc = L.bsc := rfl
@[simp] theorem setCan_lsm (c : Nat) (f : CanCh → CanCh) (L : Lane) : (setCan c f L).lsm = L.lsm := rfl
@[simp] theorem setCan_tls (c : Nat) (f : CanCh → CanCh) (L : Lane) : (setCan c f L).tls = L.tls := rfl
@[simp] theorem setCan_dsp (c : Nat) (f : CanCh → CanCh) (L : Lane) : (setCan c f L).dsp = L.dsp := rfl
@[simp] theorem setCan_lpe (c : Nat) (f : CanCh → CanCh) (L : Lane) : (setCan c f L).lpe = L.lpe := rfl
@[simp] theorem setCan_out (c : Nat) (f : CanCh → CanCh) (L : Lane) : (setCan c f L).out = L.out := rfl

/-! setPort -/

@[simp] theorem setPort_regs (p : Nat) (f : PortSt → PortSt) (L : Lane) : (setPort p f L).regs = L.regs := rfl
@[simp] theorem setPort_id (p : Nat) (f : PortSt → PortSt) (L : Lane) : (setPort p f L).id = L.id := rfl
@[simp] theorem setPort_mem (p : Nat) (f : PortSt → PortSt) (L : Lane) : (setPort p f L).mem = L.mem := rfl
@[simp] theorem setPort_upsets (p : Nat) (f : PortSt → PortSt) (L : Lane) : (setPort p f L).upsets = L.upsets := rfl
@[simp] theorem setPort_cache (p : Nat) (f : PortSt → PortSt) (L : Lane) : (setPort p f L).cache = L.cache := rfl
@[simp] theorem setPort_time (p : Nat) (f : PortSt → PortSt) (L : Lane) : (setPort p f L).time = L.time := rfl
@[simp] theorem setPort_pwr (p : Nat) (f : PortSt → PortSt) (L : Lane) : (setPort p f L).pwr = L.pwr := rfl
@[simp] theorem setPort_otp (p : Nat) (f : PortSt → PortSt) (L : Lane) : (setPort p f L).otp = L.otp := rfl
@[simp] theorem setPort_clv (p : Nat) (f : PortSt → PortSt) (L : Lane) : (setPort p f L).clv = L.clv := rfl
@[simp] theorem setPort_evr (p : Nat) (f : PortSt → PortSt) (L : Lane) : (setPort p f L).evr = L.evr := rfl
@[simp] theorem setPort_ring (p : Nat) (f : PortSt → PortSt) (L : Lane) : (setPort p f L).ring = L.ring := rfl
@[simp] theorem setPort_cgw (p : Nat) (f : PortSt → PortSt) (L : Lane) : (setPort p f L).cgw = L.cgw := rfl
@[simp] theorem setPort_bsc (p : Nat) (f : PortSt → PortSt) (L : Lane) : (setPort p f L).bsc = L.bsc := rfl
@[simp] theorem setPort_lsm (p : Nat) (f : PortSt → PortSt) (L : Lane) : (setPort p f L).lsm = L.lsm := rfl
@[simp] theorem setPort_tls (p : Nat) (f : PortSt → PortSt) (L : Lane) : (setPort p f L).tls = L.tls := rfl
@[simp] theorem setPort_dsp (p : Nat) (f : PortSt → PortSt) (L : Lane) : (setPort p f L).dsp = L.dsp := rfl
@[simp] theorem setPort_lpe (p : Nat) (f : PortSt → PortSt) (L : Lane) : (setPort p f L).lpe = L.lpe := rfl
@[simp] theorem setPort_out (p : Nat) (f : PortSt → PortSt) (L : Lane) : (setPort p f L).out = L.out := rfl

/-! setEng -/

@[simp] theorem setEng_id (r : Nat) (e : Engine) (L : Lane) : (setEng r e L).id = L.id := by
  unfold setEng; split <;> rfl
@[simp] theorem setEng_mem (r : Nat) (e : Engine) (L : Lane) : (setEng r e L).mem = L.mem := by
  unfold setEng; split <;> rfl
@[simp] theorem setEng_upsets (r : Nat) (e : Engine) (L : Lane) : (setEng r e L).upsets = L.upsets := by
  unfold setEng; split <;> rfl
@[simp] theorem setEng_cache (r : Nat) (e : Engine) (L : Lane) : (setEng r e L).cache = L.cache := by
  unfold setEng; split <;> rfl
@[simp] theorem setEng_time (r : Nat) (e : Engine) (L : Lane) : (setEng r e L).time = L.time := by
  unfold setEng; split <;> rfl
@[simp] theorem setEng_pwr (r : Nat) (e : Engine) (L : Lane) : (setEng r e L).pwr = L.pwr := by
  unfold setEng; split <;> rfl
@[simp] theorem setEng_otp (r : Nat) (e : Engine) (L : Lane) : (setEng r e L).otp = L.otp := by
  unfold setEng; split <;> rfl
@[simp] theorem setEng_clv (r : Nat) (e : Engine) (L : Lane) : (setEng r e L).clv = L.clv := by
  unfold setEng; split <;> rfl
@[simp] theorem setEng_evr (r : Nat) (e : Engine) (L : Lane) : (setEng r e L).evr = L.evr := by
  unfold setEng; split <;> rfl
@[simp] theorem setEng_nte (r : Nat) (e : Engine) (L : Lane) : (setEng r e L).nte = L.nte := by
  unfold setEng; split <;> rfl
@[simp] theorem setEng_cgw (r : Nat) (e : Engine) (L : Lane) : (setEng r e L).cgw = L.cgw := by
  unfold setEng; split <;> rfl
@[simp] theorem setEng_bsc (r : Nat) (e : Engine) (L : Lane) : (setEng r e L).bsc = L.bsc := by
  unfold setEng; split <;> rfl
@[simp] theorem setEng_lsm (r : Nat) (e : Engine) (L : Lane) : (setEng r e L).lsm = L.lsm := by
  unfold setEng; split <;> rfl
@[simp] theorem setEng_tls (r : Nat) (e : Engine) (L : Lane) : (setEng r e L).tls = L.tls := by
  unfold setEng; split <;> rfl
@[simp] theorem setEng_dsp (r : Nat) (e : Engine) (L : Lane) : (setEng r e L).dsp = L.dsp := by
  unfold setEng; split <;> rfl
@[simp] theorem setEng_lpe (r : Nat) (e : Engine) (L : Lane) : (setEng r e L).lpe = L.lpe := by
  unfold setEng; split <;> rfl
@[simp] theorem setEng_out (r : Nat) (e : Engine) (L : Lane) : (setEng r e L).out = L.out := by
  unfold setEng; split <;> rfl

/-! setGen -/

@[simp] theorem setGen_regs (n : Nat) (g : PwmGen) (L : Lane) : (setGen n g L).regs = L.regs := rfl
@[simp] theorem setGen_id (n : Nat) (g : PwmGen) (L : Lane) : (setGen n g L).id = L.id := rfl
@[simp] theorem setGen_mem (n : Nat) (g : PwmGen) (L : Lane) : (setGen n g L).mem = L.mem := rfl
@[simp] theorem setGen_upsets (n : Nat) (g : PwmGen) (L : Lane) : (setGen n g L).upsets = L.upsets := rfl
@[simp] theorem setGen_cache (n : Nat) (g : PwmGen) (L : Lane) : (setGen n g L).cache = L.cache := rfl
@[simp] theorem setGen_time (n : Nat) (g : PwmGen) (L : Lane) : (setGen n g L).time = L.time := rfl
@[simp] theorem setGen_pwr (n : Nat) (g : PwmGen) (L : Lane) : (setGen n g L).pwr = L.pwr := rfl
@[simp] theorem setGen_otp (n : Nat) (g : PwmGen) (L : Lane) : (setGen n g L).otp = L.otp := rfl
@[simp] theorem setGen_clv (n : Nat) (g : PwmGen) (L : Lane) : (setGen n g L).clv = L.clv := rfl
@[simp] theorem setGen_evr (n : Nat) (g : PwmGen) (L : Lane) : (setGen n g L).evr = L.evr := rfl
@[simp] theorem setGen_nte (n : Nat) (g : PwmGen) (L : Lane) : (setGen n g L).nte = L.nte := rfl
@[simp] theorem setGen_ring (n : Nat) (g : PwmGen) (L : Lane) : (setGen n g L).ring = L.ring := rfl
@[simp] theorem setGen_cgw (n : Nat) (g : PwmGen) (L : Lane) : (setGen n g L).cgw = L.cgw := rfl
@[simp] theorem setGen_bsc (n : Nat) (g : PwmGen) (L : Lane) : (setGen n g L).bsc = L.bsc := rfl
@[simp] theorem setGen_lsm (n : Nat) (g : PwmGen) (L : Lane) : (setGen n g L).lsm = L.lsm := rfl
@[simp] theorem setGen_tls (n : Nat) (g : PwmGen) (L : Lane) : (setGen n g L).tls = L.tls := rfl
@[simp] theorem setGen_dsp (n : Nat) (g : PwmGen) (L : Lane) : (setGen n g L).dsp = L.dsp := rfl
@[simp] theorem setGen_lpe (n : Nat) (g : PwmGen) (L : Lane) : (setGen n g L).lpe = L.lpe := rfl

/-! setMe -/

@[simp] theorem setMe_regs (e : Nat) (m : MeSt) (L : Lane) : (setMe e m L).regs = L.regs := rfl
@[simp] theorem setMe_id (e : Nat) (m : MeSt) (L : Lane) : (setMe e m L).id = L.id := rfl
@[simp] theorem setMe_mem (e : Nat) (m : MeSt) (L : Lane) : (setMe e m L).mem = L.mem := rfl
@[simp] theorem setMe_upsets (e : Nat) (m : MeSt) (L : Lane) : (setMe e m L).upsets = L.upsets := rfl
@[simp] theorem setMe_cache (e : Nat) (m : MeSt) (L : Lane) : (setMe e m L).cache = L.cache := rfl
@[simp] theorem setMe_time (e : Nat) (m : MeSt) (L : Lane) : (setMe e m L).time = L.time := rfl
@[simp] theorem setMe_pwr (e : Nat) (m : MeSt) (L : Lane) : (setMe e m L).pwr = L.pwr := rfl
@[simp] theorem setMe_otp (e : Nat) (m : MeSt) (L : Lane) : (setMe e m L).otp = L.otp := rfl
@[simp] theorem setMe_clv (e : Nat) (m : MeSt) (L : Lane) : (setMe e m L).clv = L.clv := rfl
@[simp] theorem setMe_evr (e : Nat) (m : MeSt) (L : Lane) : (setMe e m L).evr = L.evr := rfl
@[simp] theorem setMe_nte (e : Nat) (m : MeSt) (L : Lane) : (setMe e m L).nte = L.nte := rfl
@[simp] theorem setMe_ring (e : Nat) (m : MeSt) (L : Lane) : (setMe e m L).ring = L.ring := rfl
@[simp] theorem setMe_cgw (e : Nat) (m : MeSt) (L : Lane) : (setMe e m L).cgw = L.cgw := rfl
@[simp] theorem setMe_bsc (e : Nat) (m : MeSt) (L : Lane) : (setMe e m L).bsc = L.bsc := rfl
@[simp] theorem setMe_lsm (e : Nat) (m : MeSt) (L : Lane) : (setMe e m L).lsm = L.lsm := rfl
@[simp] theorem setMe_tls (e : Nat) (m : MeSt) (L : Lane) : (setMe e m L).tls = L.tls := rfl
@[simp] theorem setMe_dsp (e : Nat) (m : MeSt) (L : Lane) : (setMe e m L).dsp = L.dsp := rfl
@[simp] theorem setMe_lpe (e : Nat) (m : MeSt) (L : Lane) : (setMe e m L).lpe = L.lpe := rfl
@[simp] theorem setMe_out (e : Nat) (m : MeSt) (L : Lane) : (setMe e m L).out = L.out := rfl

end Sys2Proof.Machine
end

