-- ==== Sys2Proof/Laws/Memory.lean ====
section
/-! SUPPORT. Sparse maps in canonical form: what a lookup answers after an update, and that every operation over memory and
registers keeps keys rising and defaults unlisted. -/

namespace Sys2Proof.Machine

/-! Keys that rise from a bound on -/

theorem smSortedFrom_le {α : Type} {lo lo' : Nat} {m : List (Nat × α)} (h : lo' ≤ lo) (hs : smSortedFrom lo m = true) :
    smSortedFrom lo' m = true := by
  cases m with
  | nil => rfl
  | cons c r =>
    simp only [smSortedFrom, Bool.and_eq_true, decide_eq_true_eq] at hs ⊢
    exact ⟨Nat.le_trans h hs.1, hs.2⟩

theorem smFind_below {α : Type} {lo k : Nat} {m : List (Nat × α)} (hs : smSortedFrom lo m = true) (h : k < lo) :
    smFind m k = none := by
  cases m with
  | nil => rfl
  | cons c r =>
    obtain ⟨k', v⟩ := c
    simp only [smSortedFrom, Bool.and_eq_true, decide_eq_true_eq] at hs
    have h1 : k' ≠ k := by omega
    have h2 : k < k' := by omega
    simp [smFind, h1, h2]

/-! Removing and setting a key -/

theorem smErase_sortedFrom {α : Type} (k : Nat) (m : List (Nat × α)) (lo : Nat) (hs : smSortedFrom lo m = true) :
    smSortedFrom lo (smErase m k) = true := by
  induction m generalizing lo with
  | nil => rfl
  | cons c r ih =>
    obtain ⟨k', v⟩ := c
    have hs' := hs
    simp only [smSortedFrom, Bool.and_eq_true, decide_eq_true_eq] at hs'
    unfold smErase
    split
    · exact smSortedFrom_le (by omega) hs'.2
    · split
      · exact hs
      · simp [smSortedFrom, hs'.1, ih _ hs'.2]

theorem smSet_sortedFrom {α : Type} (k : Nat) (v : α) (m : List (Nat × α)) (lo : Nat) (hk : lo ≤ k)
    (hs : smSortedFrom lo m = true) : smSortedFrom lo (smSet m k v) = true := by
  induction m generalizing lo with
  | nil => simp [smSet, smSortedFrom, hk]
  | cons c r ih =>
    obtain ⟨k', v'⟩ := c
    have hs' := hs
    simp only [smSortedFrom, Bool.and_eq_true, decide_eq_true_eq] at hs'
    unfold smSet
    split
    · next h => subst h; simp [smSortedFrom, hk, hs'.2]
    · split
      · next h => simp [smSortedFrom, hk, hs'.2, Nat.succ_le_of_lt h]
      · simp [smSortedFrom, hs'.1, ih (k' + 1) (by omega) hs'.2]

theorem smPut_sorted {α : Type} [DecidableEq α] (m : List (Nat × α)) (k : Nat) (d v : α) (hs : smSorted m = true) :
    smSorted (smPut m k d v) = true := by
  unfold smPut smSorted at *
  split
  · exact smErase_sortedFrom k m 0 hs
  · exact smSet_sortedFrom k v m 0 (Nat.zero_le _) hs

theorem smFind_erase {α : Type} (m : List (Nat × α)) (lo k j : Nat) (hs : smSortedFrom lo m = true) :
    smFind (smErase m k) j = if j = k then none else smFind m j := by
  induction m generalizing lo with
  | nil => simp [smErase, smFind]
  | cons c r ih =>
    obtain ⟨k', v⟩ := c
    simp only [smSortedFrom, Bool.and_eq_true, decide_eq_true_eq] at hs
    unfold smErase
    split
    · next h =>
      subst h
      by_cases hj : j = k'
      · subst hj; simp [smFind_below hs.2 (Nat.lt_succ_self j)]
      · by_cases hlt : j < k'
        · simp [smFind, hj, Ne.symm hj, hlt, smFind_below hs.2 (by omega : j < k' + 1)]
        · simp [smFind, hj, Ne.symm hj, hlt]
    · next h =>
      split
      · next h2 =>
        by_cases hj : j = k
        · subst hj; simp [smFind, h, h2]
        · simp [hj]
      · next h2 =>
        simp only [smFind, ih _ hs.2]
        by_cases hj : j = k
        · subst hj; simp [h, h2]
        · simp [hj]

theorem smFind_set {α : Type} (m : List (Nat × α)) (k j : Nat) (v : α) :
    smFind (smSet m k v) j = if j = k then some v else smFind m j := by
  induction m with
  | nil =>
    by_cases hj : j = k
    · subst hj; simp [smSet, smFind]
    · simp [smSet, smFind, hj, Ne.symm hj]
  | cons c r ih =>
    obtain ⟨k', v'⟩ := c
    unfold smSet
    split
    · next h =>
      subst h
      by_cases hj : j = k'
      · subst hj; simp [smFind]
      · simp [smFind, hj, Ne.symm hj]
    · next h =>
      split
      · next h2 =>
        by_cases hj : j = k
        · subst hj; simp [smFind]
        · by_cases hlt : j < k
          · have h3 : k' ≠ j := by omega
            have h4 : j < k' := by omega
            simp [smFind, hj, Ne.symm hj, hlt, h3, h4]
          · simp [smFind, hj, Ne.symm hj, hlt]
      · next h2 =>
        simp only [smFind, ih]
        by_cases hj : j = k
        · subst hj; simp [h, h2]
        · simp [hj]

/-- A key that is put reads as the value put; every other key reads as before. -/
theorem smGet_put {α : Type} [DecidableEq α] (m : List (Nat × α)) (k j : Nat) (d e v : α) (hs : smSorted m = true)
    (hd : j = k → e = d) : smGet (smPut m k d v) j e = if j = k then v else smGet m j e := by
  unfold smGet smPut
  split
  · next h =>
    rw [smFind_erase m 0 k j hs]
    by_cases hj : j = k
    · simp [hj, hd hj, h]
    · simp [hj]
  · rw [smFind_set]
    by_cases hj : j = k <;> simp [hj]

theorem smErase_all {α : Type} (p : Nat × α → Bool) (m : List (Nat × α)) (k : Nat) (h : m.all p = true) :
    (smErase m k).all p = true := by
  induction m with
  | nil => rfl
  | cons c r ih =>
    obtain ⟨k', v⟩ := c
    simp only [List.all_cons, Bool.and_eq_true] at h
    unfold smErase
    split
    · exact h.2
    · split <;> simp [h.1, h.2, ih h.2]

theorem smSet_all {α : Type} (p : Nat × α → Bool) (m : List (Nat × α)) (k : Nat) (v : α) (hv : p (k, v) = true)
    (h : m.all p = true) : (smSet m k v).all p = true := by
  induction m with
  | nil => simp [smSet, hv]
  | cons c r ih =>
    obtain ⟨k', v'⟩ := c
    simp only [List.all_cons, Bool.and_eq_true] at h
    unfold smSet
    split
    · simp [hv, h.2]
    · split <;> simp [hv, h.1, h.2, ih h.2]

theorem filter_sortedFrom {α : Type} (p : Nat × α → Bool) (m : List (Nat × α)) (lo : Nat)
    (hs : smSortedFrom lo m = true) : smSortedFrom lo (m.filter p) = true := by
  induction m generalizing lo with
  | nil => rfl
  | cons c r ih =>
    obtain ⟨k, v⟩ := c
    simp only [smSortedFrom, Bool.and_eq_true, decide_eq_true_eq] at hs
    simp only [List.filter]
    split
    · simp [smSortedFrom, hs.1, ih _ hs.2]
    · exact smSortedFrom_le (by omega) (ih _ hs.2)

/-! Memory -/

/-- The reset memory is in canonical form. -/
theorem reset_memWf (l : LaneId) : memWf (State.reset.lane l).mem = true := by cases l <;> rfl

theorem memWf_sorted {m : List Host.Cell} (h : memWf m = true) : smSorted m = true := by
  simp only [memWf, Bool.and_eq_true] at h; exact h.1

theorem wrB_memWf (L : Lane) (a : Nat) (v : Byte) (h : memWf L.mem = true) : memWf (L.wrB a v).mem = true := by
  simp only [memWf, Bool.and_eq_true] at h ⊢
  refine ⟨smPut_sorted _ _ _ _ h.1, ?_⟩
  simp only [Lane.wrB, smPut]
  split
  · exact smErase_all _ _ _ h.2
  · next hv => exact smSet_all _ _ _ _ (by simpa using hv) h.2

theorem wrBytes_memWf (L : Lane) (a : Nat) (vs : List Byte) (h : memWf L.mem = true) :
    memWf (L.wrBytes a vs).mem = true := by
  induction vs generalizing L a with
  | nil => exact h
  | cons v vs ih => exact ih _ _ (wrB_memWf L a v h)

theorem wrW_memWf (L : Lane) (a : Nat) (v : Word) (h : memWf L.mem = true) : memWf (L.wrW a v).mem = true :=
  wrBytes_memWf L a _ h

theorem wrWords_memWf (L : Lane) (a : Nat) (vs : List Word) (h : memWf L.mem = true) :
    memWf (L.wrWords a vs).mem = true := by
  induction vs generalizing L a with
  | nil => exact h
  | cons v vs ih => exact ih _ _ (wrW_memWf L a v h)

theorem wrD_memWf (L : Lane) (a : Nat) (v : Word64) (h : memWf L.mem = true) : memWf (L.wrD a v).mem = true :=
  wrW_memWf _ _ _ (wrW_memWf L a _ h)

/-- What lane reset and erasure do to memory keeps the form. -/
theorem filter_memWf (p : Host.Cell → Bool) (m : List Host.Cell) (h : memWf m = true) : memWf (m.filter p) = true := by
  simp only [memWf, Bool.and_eq_true] at h ⊢
  refine ⟨filter_sortedFrom p m 0 h.1, ?_⟩
  simp only [List.all_eq_true, List.mem_filter] at h ⊢
  exact fun c hc => h.2 c hc.1

theorem rdB_wrB (L : Lane) (a b : Nat) (v : Byte) (h : smSorted L.mem = true) :
    (L.wrB a v).rdB b = if b = a then v else L.rdB b := by
  unfold Lane.rdB Lane.wrB
  exact smGet_put L.mem a b (memDefault a) (memDefault b) v h (fun e => by rw [e])

/-! Registers -/

/-- A field set reads as the value cut to its width; a field with another home reads as before. -/
theorem fld_put (L : Lane) (f g : Fld) (v : Word) (h : smSorted L.regs = true) (hr : g.key = f.key → g.rst = f.rst) :
    (L.put f v).fld g = if g.key = f.key then toW (v.toNat % 2 ^ f.w) else L.fld g := by
  unfold Lane.fld Lane.put
  exact smGet_put L.regs f.key g.key (toW f.rst) (toW g.rst) _ h (fun e => by rw [hr e])

theorem put_sorted (L : Lane) (f : Fld) (v : Word) (h : smSorted L.regs = true) : smSorted (L.put f v).regs = true :=
  smPut_sorted _ _ _ _ h

end Sys2Proof.Machine
end

