-- ==== Sys2Proof/WellFormed.lean ====
section
/-! DEFINITION. Which commands can come from outside at all: the shapes that the rules give transfers, frames, messages and
register addresses. A meaning is total and does not ask for it. -/

namespace Sys2Proof

/-- A lane-link transfer has 1 to 64 payload words (R155). -/
def Xfer.wf (x : Xfer) : Bool := decide (1 ≤ x.payload.length ∧ x.payload.length ≤ 64)

/-- The digest that link training carries has eight words (R158). -/
def TrainInfo.wf (t : TrainInfo) : Bool := decide (t.digest.length = 8)

/-- A frame is an IEEE 802.3 frame of at least 64 octets with its payload inside (R313). -/
def FrameEnd.wf (f : FrameEnd) : Bool := decide (64 ≤ f.octets ∧ f.payload.length + 18 ≤ f.octets)

/-- The first octets of a frame up to HDR1 (R313, R326). -/
def hdrWf (h : List Byte) : Bool := decide (h.length = 30)

/-- The most data bytes that a mode of CAN carries; a message of several packets has at most 1,785 (R357, R358). -/
def CanMode.most : CanMode → Nat
  | .can11 => 8
  | .can29 => 8
  | .fd11 => 64
  | .fd29 => 64
  | .iso => 1785

/-- A CAN frame or message as received (R358, R359). -/
def CanMsg.wf (m : CanMsg) : Bool :=
  match m.part with
  | .whole => decide (m.data.length ≤ m.mode.most)
  | .opens n => decide (m.mode = .iso ∧ m.data = [] ∧ 8 < n ∧ n ≤ m.mode.most)
  | .aborts => decide (m.mode = .iso ∧ m.data = [])

/-- A register stands at a word address (R13, R47). -/
def regAddrWf (a : Word) : Bool := decide (a.toNat % 4 = 0)

/-- A command is well formed. -/
def Instr.wf : Instr → Bool
  | .claimIsoLost l peer _ => decide (l ≠ peer)
  | .crossLaneHaltRequest l peer => decide (l ≠ peer)
  | .claimLineChange l _ peer _ => decide (l ≠ peer)
  | .ownerSeen l _ peer => decide (l ≠ peer)
  | .formTransfer _ _ x => x.wf
  | .sampleTransfer _ _ x => x.wf
  | .voteTransfer _ _ x => x.wf
  | .mirrorTransfer _ _ x => x.wf
  | .catchupTransfer _ _ x => x.wf
  | .mailboxTransfer _ _ x => x.wf
  | .timeTransfer _ _ x _ => x.wf
  | .linkTraining _ _ res => (res.map TrainInfo.wf).getD true
  | .frameStart _ _ _ hdr => hdrWf hdr
  | .dataFrame _ _ f => f.wf
  | .nullFrame _ _ f => f.wf
  | .syncFrame _ _ f => f.wf
  | .coldstartFrame _ _ f => f.wf
  | .claimFrame _ _ f => f.wf
  | .canFrameReceived _ _ m => m.wf
  | .lockSet _ addr _ => regAddrWf addr
  | .registerWrite _ addr _ => regAddrWf addr
  | .aosPowerOn _ | .supplyWarn _ _ | .supplyBelowReset _ _ | .pgSeen _ | .pgTmo _ | .pgFall _ | .rstNLow _
  | .aosSwrst _ _ | .domainReady _ _ | .domainAttemptTimeout _ _ | .crystalReady _ _ | .crystalTimeout _
  | .pllLocked _ | .pllAttemptTimeout _ | .bootRomDigestCheck _ _ | .clockLost _ _ | .domainWakeOnAccess _ _
  | .domainWakeTimeout _ _ | .aosDomReq _ _ | .crossingTransfer _ _ _ | .xingTimeout _ _ | .clkXingClr _ _
  | .coreAccess _ _ _ _ _ _ | .lsmEccClr _ _ | .machineTimerInterrupt _ _ | .coreLockstep _
  | .stagingWindowAccess _ _ _ _ _ _ | .modeRequest _ | .ckpt _ | .bankLoadComplete _ | .nop _ | .mid _ | .irq _
  | .pwmAlign _ _ _ | .adcSeq _ | .meStep _ _ | .lpeRun _ _ | .vduUpdate _ _ | .cdspTask _ | .netTx _ | .netRx _
  | .canTx _ | .sample _ | .bistWin _ | .evrMark _ | .cycleStart _ | .cycleStartEvent _ _ | .cycleStartMissing _
  | .imageVerification _ | .imageCopy _ | .stageErase _ | .stageWrite _ | .stageVerify _ | .stageActivate _
  | .doorbell _ _ _ | .ringEnable _ _ _ | .ringAbort _ _ | .ringResume _ _ | .descriptorFetch _ _
  | .descriptorBoundary _ _ | .copy _ | .fill _ | .lmmuInv _ _ | .lmmuInvComplete _ | .lmmuFltClr _ _
  | .sampleDeadline _ | .voteDeadline _ | .voteRel _ | .linkDown _ _ | .blockLockLoss _ _ | .formWaitExpiry _
  | .mbSend _ | .reint _ _ | .reintBistComplete _ | .clvErrClr _ _ | .llkLinkClr _ _ _ | .lsmRawClear _ _ _
  | .tend _ | .cdspOverrun _ | .illegalInstruction _ | .cdspInterruptEntry _ | .cdspDb _ _ | .cdspLockstep _
  | .cdspHalt _ | .cdspResume _ | .cdspStep _ | .cdspErrClr _ _ | .macPairNop _ _ _ | .mpy _ _ | .mac _ _
  | .msu _ _ | .macsu _ _ | .clr _ _ _ _ | .asr _ _ _ _ _ | .asl _ _ _ _ _ | .lda _ _ _ _ _ _ | .ld _ _ _ _ _
  | .ldp _ _ _ _ _ | .st _ _ _ _ _ | .stp _ _ _ _ _ | .sta _ _ _ _ _ | .ldc _ _ _ _ | .ldi _ _ _ | .mov _ _ _
  | .add _ _ _ _ | .sub _ _ _ _ | .adds _ _ _ _ | .subs _ _ _ _ | .addi _ _ _ _ | .and _ _ _ _ | .or _ _ _ _
  | .xor _ _ _ _ | .shl _ _ _ _ | .shls _ _ _ _ | .shra _ _ _ _ | .shrl _ _ _ _ | .min _ _ _ _ | .max _ _ _ _
  | .abss _ _ _ | .negs _ _ _ | .selneg _ _ _ _ | .selz _ _ _ _ | .clamp _ _ _ _ | .cdspNop _ | .jmp _ _
  | .call _ _ | .ret _ | .loop _ _ _ | .rep _ _ | .rti _ | .dbell _ _ | .bkpt _ | .lpeSat _ _ _ | .lpeTrip _ _ _
  | .lpeErrClr _ _ | .adcConversionComplete _ _ _ _ | .adcSequenceComplete _ _ | .regimeSwitch _ _
  | .captureTimeout _ _ | .hfiSettleEnd _ _ | .ascRecovery _ _ | .stepMissing _ _ | .overcurrent _ _
  | .obsDiverge _ _ | .vdcLow _ _ | .meErrClr _ _ _ | .adcErrClr _ _ | .commit _ _ | .pwmReload _ _
  | .pwmPeriodEvent _ _ | .pwmCompareEvent _ _ _ | .pwmEnable _ _ | .clkstop _ | .pwmClkStop _ | .pwmErrClr _ _ _
  | .vduOcClear _ _ | .vduErrClr _ _ | .deiErrClr _ _ | .chpErrClr _ _ | .claimAttempt _ _ | .claimGuardEnd _ _
  | .claimBackoffEnd _ _ | .ownerLost _ _ | .successorWaitEnd _ _ | .deiNoOwner _ _ | .chpNoCurrent _ | .chpStuck _
  | .gpioEdge _ _ _ | .gpioSpiTx _ _ | .gpioSpiRx _ | .spiFrame _ _ | .phyLinkUp _ _ | .phyLinkDown _ _
  | .frameTruncation _ _ | .ownFrameSend _ _ | .syncFrameSend _ | .networkCycleStart _ _ | .timeLost _
  | .coldstartListenEnd _ | .waitLeadTimeout _ | .coldstartBegin _ | .coldstartSync _ | .winnerSilent _
  | .startTimeout _ | .trunkLost _ | .claimEffect _ | .claimGo _ _ | .claimNoAnswer _ | .ssgErrClr _ _
  | .nteErrClr _ _ | .nteTerrClr _ _ | .canRxTimeout _ _ | .canBusOff _ _ | .busOffRecovery _ _
  | .tpTimeout _ _ _ _ | .addressClaim _ _ | .addressClaimComplete _ _ | .canSend _ | .canRecv _ | .cgwErrClr _ _ _
  | .storageDiePowerOn | .steMount | .storageLinkUp _ | .storageLinkDown _ | .read _ | .write _ _ | .trim _
  | .verify _ | .relocation _ _ _ _ | .readDisturbRelocate _ | .patrolRead _ _ _ | .patrolLate | .evrWrite _
  | .sealSign _ _ | .segmentProgram _ | .evrFreeze _ | .evrRead _ | .evrSeal _ | .evrWinlist _ | .evrRelease _
  | .evrTail _ | .steErrClr _ _ | .evrErrClr _ _ | .dormantStepA _ | .dormantStepB _ | .dormantStepD _
  | .dormantStepE _ | .wakeEvent _ _ | .rejoin _ | .aosErrClr _ _ | .startupBist _ _ | .bistElementComplete _ _ _
  | .bistAbort _ _ | .bistStarved _ _ | .bistPassLate _ _ | .bistRun _ _ | .bistMfg _ _ | .bistStatus _
  | .bscErrClr _ _ | .pprArm _ | .pprDisarm _ | .pprInjCfg _ _ _ | .firmwareVerification _ | .fwErase _
  | .fwWrite _ | .fwVerify _ | .fwActivate _ | .bootcfg _ | .svcNonce _ _ | .svcEnter _ | .svcEnd _ | .lcAdvance _
  | .keySet _ | .keyRevoke _ | .sm3 _ | .sm2Verify _ | .sm2Sign _ _ | .attest _ _ | .random _ _ | .nonceExpiry _
  | .serviceExpiry _ | .debugAccess _ _ | .lcsErrClr _ _ | .storageDiePowerLoss | .canFrameAcknowledged _ _
  | .mailboxAcknowledged _ | .linkIdle _ => true

end Sys2Proof
end

