-- ==== Sys2Proof/Safety.lean ====
section
/-! DEFINITION. The terms in which statements about runs are made: the lane a command happens in, what it leaves alone, and
what the storage die must always satisfy. -/

namespace Sys2Proof

/-- The lane in which a command happens; none for an event of the storage die, which every linked lane may see, as it sees the
block that a WRITE has retired (R368). -/
def Instr.laneOf : Instr → Option LaneId
  | .aosPowerOn l | .supplyWarn l _ | .supplyBelowReset l _ | .pgSeen l | .pgTmo l | .pgFall l | .rstNLow l
  | .aosSwrst l _ | .domainReady l _ | .domainAttemptTimeout l _ | .crystalReady l _ | .crystalTimeout l
  | .pllLocked l | .pllAttemptTimeout l | .bootRomDigestCheck l _ | .clockLost l _ | .domainWakeOnAccess l _
  | .domainWakeTimeout l _ | .aosDomReq l _ | .crossingTransfer l _ _ | .xingTimeout l _ | .clkXingClr l _
  | .claimIsoLost l _ _ | .coreAccess l _ _ _ _ _ | .lsmEccClr l _ | .machineTimerInterrupt l _
  | .coreLockstep l | .stagingWindowAccess l _ _ _ _ _ | .modeRequest l | .ckpt l | .bankLoadComplete l
  | .nop l | .mid l | .irq l | .pwmAlign ⟨l, _⟩ _ _ | .adcSeq l | .meStep l _ | .lpeRun l _ | .vduUpdate l _
  | .cdspTask l | .netTx ⟨l, _⟩ | .netRx ⟨l, _⟩ | .canTx ⟨l, _⟩ | .sample ⟨l, _⟩ | .bistWin ⟨l, _⟩ | .evrMark l | .cycleStart l
  | .cycleStartEvent l _ | .cycleStartMissing l | .imageVerification l | .imageCopy l | .stageErase l
  | .stageWrite l | .stageVerify l | .stageActivate l | .doorbell l _ _ | .ringEnable l _ _ | .ringAbort l _
  | .ringResume l _ | .descriptorFetch l _ | .descriptorBoundary l _ | .copy l | .fill l | .lmmuInv l _
  | .lmmuInvComplete l | .lmmuFltClr l _ | .formTransfer l _ _ | .sampleTransfer l _ _ | .sampleDeadline l
  | .voteTransfer l _ _ | .voteDeadline l | .voteRel l | .mirrorTransfer l _ _ | .catchupTransfer l _ _
  | .mailboxTransfer l _ _ | .timeTransfer l _ _ _ | .linkDown l _ | .blockLockLoss l _ | .linkTraining l _ _
  | .formWaitExpiry l | .mbSend l | .reint l _ | .reintBistComplete l | .crossLaneHaltRequest l _
  | .clvErrClr l _ | .llkLinkClr l _ _ | .lsmRawClear l _ _ | .tend l | .cdspOverrun l | .illegalInstruction l
  | .cdspInterruptEntry l | .cdspDb l _ | .cdspLockstep l | .cdspHalt l | .cdspResume l | .cdspStep l
  | .cdspErrClr l _ | .macPairNop l _ _ | .mpy l _ | .mac l _ | .msu l _ | .macsu l _ | .clr l _ _ _
  | .asr l _ _ _ _ | .asl l _ _ _ _ | .lda l _ _ _ _ _ | .ld l _ _ _ _ | .ldp l _ _ _ _ | .st l _ _ _ _
  | .stp l _ _ _ _ | .sta l _ _ _ _ | .ldc l _ _ _ | .ldi l _ _ | .mov l _ _ | .add l _ _ _ | .sub l _ _ _
  | .adds l _ _ _ | .subs l _ _ _ | .addi l _ _ _ | .and l _ _ _ | .or l _ _ _ | .xor l _ _ _ | .shl l _ _ _
  | .shls l _ _ _ | .shra l _ _ _ | .shrl l _ _ _ | .min l _ _ _ | .max l _ _ _ | .abss l _ _ | .negs l _ _
  | .selneg l _ _ _ | .selz l _ _ _ | .clamp l _ _ _ | .cdspNop l | .jmp l _ | .call l _ | .ret l | .loop l _ _
  | .rep l _ | .rti l | .dbell l _ | .bkpt l | .lpeSat l _ _ | .lpeTrip l _ _ | .lpeErrClr l _
  | .adcConversionComplete l _ _ _ | .adcSequenceComplete l _ | .regimeSwitch l _ | .captureTimeout l _
  | .hfiSettleEnd l _ | .ascRecovery l _ | .stepMissing l _ | .overcurrent l _ | .obsDiverge l _ | .vdcLow l _
  | .meErrClr l _ _ | .adcErrClr l _ | .commit l _ | .pwmReload l _ | .pwmPeriodEvent l _
  | .pwmCompareEvent l _ _ | .pwmEnable l _ | .clkstop l | .pwmClkStop l | .pwmErrClr l _ _ | .vduOcClear l _
  | .vduErrClr l _ | .deiErrClr l _ | .chpErrClr l _ | .claimAttempt l _ | .claimGuardEnd l _
  | .claimBackoffEnd l _ | .claimLineChange l _ _ _ | .ownerSeen l _ _ | .ownerLost l _ | .successorWaitEnd l _
  | .deiNoOwner l _ | .chpNoCurrent l | .chpStuck l | .gpioEdge l _ _ | .gpioSpiTx l _ | .gpioSpiRx l
  | .spiFrame l _ | .phyLinkUp l _ | .phyLinkDown l _ | .frameStart l _ _ _ | .dataFrame l _ _
  | .nullFrame l _ _ | .syncFrame l _ _ | .coldstartFrame l _ _ | .claimFrame l _ _ | .frameTruncation l _
  | .ownFrameSend l _ | .syncFrameSend l | .networkCycleStart l _ | .timeLost l | .coldstartListenEnd l
  | .waitLeadTimeout l | .coldstartBegin l | .coldstartSync l | .winnerSilent l | .startTimeout l
  | .trunkLost l | .claimEffect l | .claimGo l _ | .claimNoAnswer l | .ssgErrClr l _ | .nteErrClr l _
  | .nteTerrClr l _ | .canFrameReceived l _ _ | .canRxTimeout l _ | .canBusOff l _ | .busOffRecovery l _
  | .tpTimeout l _ _ _ | .addressClaim l _ | .addressClaimComplete l _ | .canSend l | .canRecv l
  | .cgwErrClr l _ _ | .storageLinkUp l | .storageLinkDown l | .read l | .write l none | .write l (some .noResponse) | .trim l | .verify l
  | .evrWrite l | .sealSign l _ | .segmentProgram l | .evrFreeze l | .evrRead l | .evrSeal l | .evrWinlist l
  | .evrRelease l | .evrTail l | .steErrClr l _ | .evrErrClr l _ | .dormantStepA l | .dormantStepB l
  | .dormantStepD l | .dormantStepE l | .wakeEvent l _ | .rejoin l | .aosErrClr l _ | .startupBist l _
  | .bistElementComplete l _ _ | .bistAbort l _ | .bistStarved l _ | .bistPassLate l _ | .bistRun l _
  | .bistMfg l _ | .bistStatus l | .bscErrClr l _ | .pprArm l | .pprDisarm l | .pprInjCfg l _ _
  | .firmwareVerification l | .fwErase l | .fwWrite l | .fwVerify l | .fwActivate l | .bootcfg l
  | .svcNonce l _ | .svcEnter l | .svcEnd l | .lcAdvance l | .keySet l | .keyRevoke l | .sm3 l | .sm2Verify l
  | .sm2Sign l _ | .attest l _ | .random l _ | .nonceExpiry l | .serviceExpiry l | .debugAccess l _
  | .lcsErrClr l _ | .lockSet l _ _ | .registerWrite l _ _ | .canFrameAcknowledged l _ | .mailboxAcknowledged l
  | .linkIdle l => some l
  | .storageDiePowerOn | .steMount | .relocation _ _ _ _ | .readDisturbRelocate _ | .patrolRead _ _ _
  | .patrolLate | .storageDiePowerLoss | .write _ (some (.programFails _)) => none

/-- Commands at which the lane may find that its device has lost a cold start, which the other lanes of the device are bound by
(R349). -/
def Instr.bindsDevice : Instr → Bool
  | .frameStart _ _ _ _ | .syncFrame _ _ _ | .coldstartFrame _ _ _ | .syncFrameSend _ => true
  | _ => false

namespace Machine

/-- Everything but lane `l` and the storage die is as before: the other lanes and the waiting commands (R23). -/
def othersSame (l : LaneId) (s t : State) : Prop := t.pending = s.pending ∧ ∀ p, p ≠ l → t.lane p = s.lane p

/-- Everything but lane `l` is as before. -/
def onlyLane (l : LaneId) (s t : State) : Prop := othersSame l s t ∧ t.sto = s.sto

/-- The state with lane `l` and the storage die replaced, as an engine of that lane leaves them. -/
def State.withLD (s : State) (l : LaneId) (ld : LD) : State := { s.setLane l ld.1 with sto := ld.2 }

/-- Nothing of a lane but its register fields and its interrupt controller differs. -/
def sameBeside (L L2 : Lane) : Prop := { L2 with regs := L.regs, plic := L.plic } = L

/-- The CDSP issues with nothing in flight, no output held, no loop, no repeat, no control transfer pending and no halt requested. -/
def dspQuiet (L : Lane) : Prop :=
  dspRuns L = true ∧ (dspBank L).fly = [] ∧ (dspBank L).redir = none ∧ L.dsp.haltReq = false ∧ L.dsp.flow.rep = 0 ∧
    L.dsp.flow.loops = [] ∧ L.dsp.out = []

/-- What holds of the storage die at every moment (R368, R369, R373): without supply it is not mounted, unmounted it has no link;
SPARE is 1,824 less the retired blocks and the grown count is their number; no erase counts lie more than 2,000 apart. -/
def dieInv (d : StorageDie) : Prop :=
  (d.powered = false → d.mounted = false) ∧ (d.mounted = false → d.links = 0) ∧
  d.spare = 1824 - d.retired.length ∧ d.grown = min d.retired.length 65535 ∧
  d.wearLow ≤ d.wearHigh ∧ d.wearHigh ≤ d.wearLow + 2000 ∧ d.wearHigh < 50000

/-- The next selected entry of the running list, and the lane after the look at it. -/
def nextEntryOf (L : Lane) : Option (Nat × TlEnt) × Lane :=
  nextEntry (curBank L) (tlsCycle L) (curEntries L - L.tls.pos) L.tls.pos L

/-- The lane as the action of entry `i` finds it: the position moved on, Pepper's delay met (R108, R431). -/
def atEntry (i : Nat) (e : TlEnt) (L : Lane) : Lane :=
  (pepper 3 e.action (fun _ => true) (setTlPos (i + 1) ((nextEntryOf L).2.putN F.TLS_OFFSET_OFFSET e.offset))).2

/-- One byte of the division by the CRC-32C polynomial, highest bit first (R316). -/
def crcMsbBit (c : Word) : Word := if c.msb then (c <<< 1) ^^^ 0x1EDC6F41 else c <<< 1
def crcMsbFirst (c : Word) (b : Byte) : Word :=
  (List.range 8).foldl (fun x _ => crcMsbBit x) (c ^^^ (b.setWidth 32 <<< 24))

/-- A word of the ALU and immediate format (R210), from its fields. -/
def aluWord (aop rdst rsa rsb : Nat) (imm : Word) : Word64 :=
  BitVec.ofNat 64 (1 * 2 ^ 62 + aop * 2 ^ 56 + rdst * 2 ^ 50 + rsa * 2 ^ 44 + rsb * 2 ^ 38 + imm.toNat)

/-- A move field and a word of the parallel format (R210), from their fields. -/
def moveCode (m : Move) : Nat :=
  (match m.kind with
    | .none => 0 | .ld => 1 | .ldp => 2 | .st => 3 | .stp => 4 | .sta => 5 | .ldc => 6) * 2 ^ 10 +
  m.reg.toNat * 2 ^ 6 + m.ptr.toNat * 2 ^ 3 + m.upd.toNat
def macWord (mop : Nat) (g : MacArgs) : Word64 :=
  BitVec.ofNat 64 (mop * 2 ^ 57 + g.mpair.toNat * 2 ^ 55 + g.mra.toNat * 2 ^ 51 + g.mrb.toNat * 2 ^ 47 + g.mrc.toNat * 2 ^ 43 +
    g.mrd.toNat * 2 ^ 39 + moveCode g.x * 2 ^ 26 + moveCode g.y * 2 ^ 13)

/-- Every waiting command has the shape of something that can come from outside. -/
def queueWf (s : State) : Prop := ∀ c ∈ s.pending, c.wf = true

end Machine

end Sys2Proof
end

