-- ==== Sys2Proof/Certificates/Slice0/Obligations.lean ====
section
/-! DEFINITION. The statements for the provers, over the whole table and the whole state. Each is stated for every lane, state and
operand that meets its premises; a completion clause gives the next state that the command's own effect answers. -/

open Sys2Proof Sys2Proof.Machine

/-! Steps, reset and the whole machine -/

/-- A step with a command at the front of the queue is that command's meaning on the queue's rest. -/
def Obligations.StepRunsTheFrontCommand : Prop :=
  ∀ (c : Instr) (s : State), step { s with pending := c :: s.pending } = exec c s

/-- The model's choice (log entry 1): with no command waiting, 1 us passes on each lane's own clock. The machine timer of a
live lane steps by one (R51) and may change the cores' timer inputs, lane time of a lane whose network island runs steps by
1,000 ns where no correction is being spread (R333), the motor island's time and its PWM counters go on and trigger pulses end
while it runs (R274, R302), AOS_TMR counts 32,768 Hz while the lane has supply (R409) and fires the TIMER wake source where it
comes to equal AOS_TMR_CMP (R413, R464), the powered time of the die counts; nothing else of the lanes and the die changes. -/
def Obligations.EmptyQueueLetsOneMicrosecondPass : Prop :=
  ∀ (s : State), s.pending = [] → ∃ t, step s = .next t ∧ t.pending = [] ∧
    t.sto = (if s.sto.powered then { s.sto with poweredUs := s.sto.poweredUs + 1 } else s.sto) ∧ ∀ (l : LaneId),
    let A := s.lane l
    let B := t.lane l
    let f := A.pwr.tmrFrac + 512
    let steps : Prop := A.pwr.phase ≠ .off ∧ 15625 ≤ f
    let fires : Prop := steps ∧ A.fld F.AOS_TMR_TMR + 1 = A.fld F.AOS_TMR_CMP_CMP ∧ A.b F.AOS_WAKE_EN_TIMER = true
    let mot : Prop := motRuns A = true ∧ A.bit F.AOS_STAT_ON 2 = true
    { B with regs := A.regs, mtime := A.mtime, time := A.time, core0 := A.core0, core1 := A.core1, pwr := A.pwr, nte := A.nte,
             out := A.out } = A ∧
    { B.core0 with mtip := A.core0.mtip } = A.core0 ∧ { B.core1 with mtip := A.core1.mtip } = A.core1 ∧
    { B.pwr with tmrFrac := A.pwr.tmrFrac, phase := A.pwr.phase, waking := A.pwr.waking, wakePend := A.pwr.wakePend } = A.pwr ∧
    { B.nte with ticks := A.nte.ticks, gained := A.nte.gained } = A.nte ∧
    { B.out with motTime := A.out.motTime, pulse := A.out.pulse, pwm := A.out.pwm } = A.out ∧
    B.mtime = (if A.live then A.mtime + 1 else A.mtime) ∧
    (netRuns A = true → A.nte.gain = 0 → A.nte.gained = 0 → B.time = A.time + 1000) ∧
    (netRuns A = false → B.time = A.time ∧ B.nte = A.nte) ∧
    (mot → B.out.motTime = A.out.motTime + 1000 ∧ B.out.pulse = 0) ∧ (¬ mot → B.out = A.out) ∧
    (A.pwr.phase ≠ .off → B.pwr.tmrFrac = f % 15625) ∧
    (smSorted A.regs = true →
      (∀ g : Fld, g.key ≠ F.AOS_TMR_TMR.key → g.key ≠ F.AOS_WAKE_TIME_TIME.key → (∀ n, n < 3 → g.key ≠ (F.PWMn_CNT_CNT n).key) →
        B.fld g = A.fld g) ∧
      B.fld F.AOS_TMR_TMR = (if A.pwr.phase ≠ .off ∧ 15625 ≤ f then A.fld F.AOS_TMR_TMR + 1 else A.fld F.AOS_TMR_TMR) ∧
      (fires → A.pwr.phase = .run ∨ A.pwr.phase = .dormant → B.pwr.wakePend = A.pwr.wakePend ||| 32) ∧
      (fires → A.pwr.phase = .dormant → B.pwr.phase = .waking) ∧
      (¬ fires ∨ (A.pwr.phase ≠ .run ∧ A.pwr.phase ≠ .dormant) → { B.pwr with tmrFrac := A.pwr.tmrFrac } = A.pwr))

/-- After reset no command waits, every lane waits for x_PG with the power-on cause recorded, no register differs from its
reset value and memory lists nothing. Choices of the model it rests on: log entries 7, 9, 10, 11, 12, 13. -/
def Obligations.ResetLeavesEveryLaneAtPowerOn : Prop :=
  State.reset.pending = [] ∧ State.reset.sto.powered = false ∧ ∀ (l : LaneId),
    (State.reset.lane l).pwr.phase = .waitPg ∧ (State.reset.lane l).mem = [] ∧ (State.reset.lane l).time = 0 ∧
    (∀ f : Fld, (State.reset.lane l).fld f = toW f.rst) ∧ (State.reset.lane l).n F.AOS_RSTCAUSE_CAUSE = 1 ∧
    (∀ a : Nat, (State.reset.lane l).rdB a = memDefault a)

/-- Every command of the table completes in every state: it answers a next state, with the commands that wait behind it
still waiting; so as many steps as commands wait leave the queue empty. Choices of the model it rests on: log entries 3,
102. -/
def Obligations.EveryCommandCompletes : Prop :=
  (∀ (c : Instr) (s : State), ∃ t, exec c s = .next t ∧ t.pending = s.pending) ∧
  ∀ (s : State), ∃ t, Sys2Proof.core.run s.pending.length s = .next t ∧ t.pending = []

/-- A command of one lane changes no other lane (R23): it reaches its own lane and the storage die only. The one exception is
R349: a lane that finds that its device has lost a cold start takes the lanes behind its links out of it too, and changes nothing
else of them. Choices of the model it rests on: log entries 84, 103. -/
def Obligations.ACommandChangesNoOtherLane : Prop :=
  ∀ (c : Instr) (l : LaneId) (s t : State), c.laneOf = some l → exec c s = .next t →
    (c.bindsDevice = false → othersSame l s t) ∧
    (c.bindsDevice = true → t.pending = s.pending ∧ t.sto = s.sto ∧ ∀ p, p ≠ l → t.lane p = s.lane p ∨
      ((s.lane l).nte.abandoned = false ∧ (t.lane l).nte.abandoned = true ∧ (s.lane p).live = true ∧
        coldStarting (s.lane p) = true ∧ t.lane p = follow none (some l) (csAbandon (s.lane p))))

/-- What a command does to its lane and to the storage die depends on nothing but these two: two states that agree on them
agree on them afterwards, whatever the other lanes and the waiting commands are. A TIME transfer also sees the trunk port that the
sending lane follows (R352). Choices of the model it rests on: log entries 4, 85, 103. -/
def Obligations.ACommandSeesOnlyItsLaneAndTheDie : Prop :=
  ∀ (c : Instr) (l : LaneId) (s s' t t' : State), c.laneOf = some l → s.lane l = s'.lane l → s.sto = s'.sto →
    (∀ k x w, c = .timeTransfer l k x w → (s.lane (linkPeer l k.val)).n F.NTE_TIME_STAT_SRC_PORT =
      (s'.lane (linkPeer l k.val)).n F.NTE_TIME_STAT_SRC_PORT) →
    exec c s = .next t → exec c s' = .next t' → t.lane l = t'.lane l ∧ t.sto = t'.sto

/-- The storage die's invariant is kept by every step. Choices of the model it rests on: log entries 11, 22. -/
def Obligations.DieInvariantIsKeptByEveryStep : Prop :=
  ∀ (s t : State), dieInv s.sto → step s = .next t → dieInv t.sto

/-- The storage die's invariant holds at reset. Choices of the model it rests on: log entry 11. -/
def Obligations.DieInvariantHoldsAtReset : Prop := dieInv State.reset.sto

/-! Supplies, resets and bring-up -/

/-- AOS power-on (R399, R401) starts the lane afresh: every register takes its reset value, the lane waits for x_PG, a
pending lifecycle state takes effect, and memory keeps only what power-off keeps. Choices of the model it rests on: log
entries 9, 12, 25. -/
def Obligations.PowerOnStartsTheLaneAfresh : Prop :=
  ∀ (l : LaneId) (s : State), ∃ t, exec (.aosPowerOn l) s = .next t ∧ onlyLane l s t ∧
    (t.lane l).pwr.phase = .waitPg ∧ (∀ f : Fld, (t.lane l).fld f = toW f.rst) ∧ (t.lane l).id = (s.lane l).id ∧
    (t.lane l).otp.lc = (s.lane l).otp.pendLc ∧ (t.lane l).otp.keys = (s.lane l).otp.keys ∧ (t.lane l).time = 0 ∧
    (∀ a, memKept a = false → (t.lane l).rdB a = memDefault a) ∧
    (memWf (s.lane l).mem = true → ∀ a, memKept a = true → (t.lane l).rdB a = (s.lane l).rdB a)

/-- Lane reset, as the causes of R401 apply it. Every register but those that R16 keeps reads its reset value; every kept
register keeps its value; memory outside eMRAM and Boot ROM is zero; OTP stays, with a pending lifecycle state taken.
Choices of the model it rests on: log entries 9, 12, 25. -/
def Obligations.LaneResetKeepsOnlyWhatItMust : Prop :=
  ∀ (ph : Phase) (L : Lane), (applyReset ph L).pwr.phase = ph ∧
    (∀ f : Fld, keptKey f.key = false → (applyReset ph L).fld f = toW f.rst) ∧
    (smSorted L.regs = true → ∀ f : Fld, keptKey f.key = true → (applyReset ph L).fld f = L.fld f) ∧
    (∀ a, memKept a = false → (applyReset ph L).rdB a = memDefault a) ∧
    (memWf L.mem = true → ∀ a, memKept a = true → (applyReset ph L).rdB a = L.rdB a) ∧
    (applyReset ph L).otp = { L.otp with lc := L.otp.pendLc } ∧ (applyReset ph L).id = L.id ∧
    (applyReset ph L).clv.members = 0 ∧ (applyReset ph L).time = 0

/-- The causes of lane reset (R398, R400, R401): a supply below its threshold, x_PG falling after release, x_RST_N low, the
software reset value 0x0000_A55A and the end of the wait for x_PG each reset the lane and set their bit of AOS_RSTCAUSE.
Another value written to AOS_SWRST does nothing; a lane that is held until power-on only records the cause, one without supply
stays as it is. Once x_PG has been seen, its wait cannot end again before the next AOS power-on. Choices of the model it rests
on: log entries 3, 25. -/
def Obligations.ResetCausesAreRecorded : Prop :=
  ∀ (l : LaneId) (s : State) (sup : Fin 5) (val : Word),
    let L := s.lane l
    let after (k : Nat) : State := s.setLane l ((applyReset .waitPg L).setBit F.AOS_RSTCAUSE_CAUSE k true)
    let held : Prop := L.pwr.phase = .off ∨ L.pwr.phase = .heldPg ∨ L.pwr.phase = .heldDomain
    (¬ held → exec (.supplyBelowReset l sup) s = .next (after 3)) ∧
    (¬ held → exec (.rstNLow l) s = .next (after 1)) ∧
    (L.pwr.phase = .off → exec (.supplyBelowReset l sup) s = .next s ∧ exec (.rstNLow l) s = .next s) ∧
    (L.pwr.phase = .heldPg ∨ L.pwr.phase = .heldDomain →
      exec (.supplyBelowReset l sup) s = .next (s.setLane l (L.setBit F.AOS_RSTCAUSE_CAUSE 3 true)) ∧
      exec (.rstNLow l) s = .next (s.setLane l (L.setBit F.AOS_RSTCAUSE_CAUSE 1 true))) ∧
    (L.live = true → exec (.aosSwrst l 0x0000A55A) s = .next (after 5)) ∧
    (val ≠ 0x0000A55A → exec (.aosSwrst l val) s = .next s) ∧
    (L.pwr.phase = .run ∨ L.pwr.phase = .dormant ∨ L.pwr.phase = .waking → exec (.pgFall l) s = .next (after 2)) ∧
    (L.pwr.phase = .bringUp → exec (.pgFall l) s = .next s) ∧
    (L.pwr.phase = .waitPg → L.pwr.pgOnce = false →
      exec (.pgTmo l) s = .next (s.setLane l ((applyReset .heldPg L).setBit F.AOS_RSTCAUSE_CAUSE 6 true))) ∧
    (L.pwr.pgOnce = true → exec (.pgTmo l) s = .next s)

/-- Bring-up (R400, R403 to R405, R41): what each event of it does in the phase it belongs to. x_PG starts it; domains
report ready in order, with at most three attempts each; the crystal must lie within 5 % of XTAL_KHZ; the PLL has three
attempts; the Boot ROM check must match. Choices of the model it rests on: log entries 3, 26. -/
def Obligations.BringUpProceedsStepByStep : Prop :=
  ∀ (l : LaneId) (s : State) (d : Fin 7) (khz : BitVec 16),
    let L := s.lane l
    let x := L.n F.CLK_STAT_XTAL_KHZ
    (L.pwr.phase = .waitPg → ∃ t, exec (.pgSeen l) s = .next t ∧ onlyLane l s t ∧ (t.lane l).pwr.phase = .bringUp ∧
      (t.lane l).pwr.domNext = 0 ∧ (t.lane l).pwr.pgOnce = true ∧ (t.lane l).cache = [] ∧ (t.lane l).pwr.xtal = none ∧ (t.lane l).pwr.pll = none ∧ (t.lane l).pwr.romOk = false ∧
      ∀ a, memKept a = false → (t.lane l).rdB a = memDefault a) ∧
    (L.pwr.phase = .bringUp → L.pwr.domNext = d.val → L.pwr.domTry = 0 → exec (.domainReady l d) s = .next (s.setLane l
      (tryRelease { L.setBit F.AOS_STAT_ON d.val true with pwr := { L.pwr with domNext := d.val + 1, domTry := 0 } }))) ∧
    (L.pwr.phase = .bringUp → L.pwr.domNext = d.val → L.pwr.domTry < 2 → exec (.domainAttemptTimeout l d) s = .next (s.setLane l
      { L.inc F.AOS_ERR_DOMRETRY_CNT with pwr := { L.pwr with domTry := L.pwr.domTry + 1 } })) ∧
    (L.pwr.phase = .bringUp → L.pwr.domNext = d.val → 2 ≤ L.pwr.domTry → exec (.domainAttemptTimeout l d) s = .next (s.setLane l
      ((applyReset .heldDomain L).setBit F.AOS_RSTCAUSE_CAUSE 7 true))) ∧
    (L.pwr.phase = .bringUp → L.pwr.xtal = none → 95 * x ≤ 100 * khz.toNat → 100 * khz.toNat ≤ 105 * x →
      exec (.crystalReady l khz) s = .next (s.setLane l (tryRelease
        { (L.putN F.CLK_MEAS_KHZ khz.toNat).setB F.CLK_STAT_XTAL_OK true with pwr := { L.pwr with xtal := some true } }))) ∧
    (L.pwr.phase = .bringUp → L.pwr.xtal = none → 100 * khz.toNat < 95 * x ∨ 105 * x < 100 * khz.toNat →
      exec (.crystalReady l khz) s = .next (s.setLane l (L.putN F.CLK_MEAS_KHZ khz.toNat))) ∧
    (L.pwr.phase = .bringUp → L.pwr.xtal = none →
      exec (.crystalTimeout l) s = .next (s.setLane l (tryRelease
        (withPwr (fun p => { p with xtal := some false }) (raise 0x002 (clockDegraded 1 L)))))) ∧
    (L.pwr.phase = .bringUp → L.pwr.xtal = some true → L.pwr.pll = none → L.pwr.pllTry = 0 →
      exec (.pllLocked l) s = .next (s.setLane l (tryRelease
        { (L.setB F.CLK_STAT_PLL_LOCK true).setB F.CLK_STAT_ON_PLL true with pwr := { L.pwr with pll := some true } }))) ∧
    (L.pwr.phase = .bringUp → L.pwr.xtal = some true → L.pwr.pll = none → L.pwr.pllTry < 2 →
      exec (.pllAttemptTimeout l) s = .next (s.setLane l
        { L.inc F.AOS_ERR_PLLRETRY_CNT with pwr := { L.pwr with pllTry := L.pwr.pllTry + 1 } })) ∧
    (L.pwr.phase = .bringUp → L.pwr.xtal = some true → L.pwr.pll = none → 2 ≤ L.pwr.pllTry →
      exec (.pllAttemptTimeout l) s = .next (s.setLane l (tryRelease
        (withPwr (fun p => { p with pll := some false }) (raise 0x002 (clockDegraded 2 L)))))) ∧
    (L.pwr.phase = .bringUp → L.bit F.AOS_STAT_ON 0 = true → L.pwr.romOk = false →
      exec (.bootRomDigestCheck l true) s = .next (s.setLane l
        (tryRelease (withPwr (fun p => { p with romOk := true }) (returnedDestruction L))))) ∧
    (L.pwr.phase = .bringUp → L.bit F.AOS_STAT_ON 0 = true → L.pwr.romOk = false →
      exec (.bootRomDigestCheck l false) s = .next (s.setLane l (withPwr (fun p => { p with phase := .heldRom }) (raise 0x054 L))))

/-- The last step of bring-up releases the lane (R403, R405, R439): substate 0x1, or Hold where the clock is degraded; the
PHY domain goes OFF; a SCRAPPED lane is never released. While a step is missing nothing happens. Choices of the model it
rests on: log entry 26. -/
def Obligations.ReleaseFollowsTheLastStep : Prop :=
  ∀ (L : Lane),
    let clk : Prop := L.pwr.xtal = some false ∨ (L.pwr.xtal = some true ∧ L.pwr.pll ≠ none)
    let ready : Prop := L.pwr.phase = .bringUp ∧ L.pwr.domNext = 7 ∧ clk ∧ L.pwr.romOk = true
    (¬ ready → tryRelease L = L) ∧
    (ready → L.otp.lc = 4 → tryRelease L = withPwr (fun p => { p with phase := .scrapped }) L) ∧
    (ready → L.otp.lc ≠ 4 → (tryRelease L).pwr.phase = .run ∧ (tryRelease L).live = true ∧
      (smSorted L.regs = true → (tryRelease L).bit F.AOS_STAT_ON 6 = false ∧
        (tryRelease L).n F.TLS_MS_STAT_SUBSTATE = (if L.b F.CLK_STAT_DEGRADED then 7 else 1)))

/-- Supplies and clocks of a running lane, and its domains (R398, R406, R407, R413). A supply warning is recorded and counted in
every lane that has supply, and out of reset raises source 0x005. A lost clock raises 0x003, degrades the lane once and powers
its PHYs down; a released lane that is still in STARTUP then enters Hold (R61). A retained domain that an access raised comes up
and the core accesses held for it are made, those of core 0 first; one that does not come up fails with source 0x001 and ends
them in bus errors; the domains named in AOS_DOM_REQ that are retained and have not failed are asked for, and its bit 7 is wake
source SW. Choices of the model it rests on: log entries 3, 24, 27, 28. -/
def Obligations.SuppliesClocksAndDomains : Prop :=
  ∀ (l : LaneId) (s : State) (sup : Fin 5) (d : Fin 7) (why : ClockLoss) (val : Word),
    let L := s.lane l
    let m : BitVec 7 := BitVec.ofNat 7 (2 ^ d.val)
    let warned := (L.setBit F.AOS_STAT_SUP sup.val true).inc F.AOS_ERR_SUPWARN_CNT
    let C1 := clockDegraded 3 (physOff (raise 0x003 L))
    let C := plicRaise 2 (match why with
      | .pllUnlock => C1.setB F.CLK_STAT_PLL_LOCK false
      | _ => C1.setB F.CLK_STAT_XTAL_OK false)
    let inStartup : Prop := curMode C = mStartup ∧ 1 ≤ substate C ∧ substate C ≤ 6
    let asked : Prop := L.pwr.retained.getLsbD d.val = true ∧ L.pwr.waking.getLsbD d.val = true ∧
      L.bit F.AOS_STAT_FAIL d.val = false
    let up : State := s.setLane l { L.setBit F.AOS_STAT_ON d.val true with
      pwr := { L.pwr with retained := L.pwr.retained &&& ~~~ m, waking := L.pwr.waking &&& ~~~ m } }
    let A := withPwr (fun p => { p with waking := p.waking ||| (val.setWidth 7 &&& p.retained &&&
      ~~~ BitVec.ofNat 7 (L.n F.AOS_STAT_FAIL)) }) L
    (L.pwr.phase = .off → exec (.supplyWarn l sup) s = .next s) ∧
    (L.pwr.phase ≠ .off → outOfReset L = false → exec (.supplyWarn l sup) s = .next (s.setLane l warned)) ∧
    (outOfReset L = true → exec (.supplyWarn l sup) s = .next (s.setLane l (raise 0x005 warned))) ∧
    (L.live = true → L.b F.CLK_STAT_DEGRADED = false → inStartup → exec (.clockLost l why) s = .next (s.setLane l (enterHold C))) ∧
    (L.live = true → L.b F.CLK_STAT_DEGRADED = false → ¬ inStartup → exec (.clockLost l why) s = .next (s.setLane l C)) ∧
    (L.live = false ∨ L.b F.CLK_STAT_DEGRADED = true → exec (.clockLost l why) s = .next s) ∧
    (asked → L.pwr.phase ≠ .waking ∨ d ≠ 0 → exec (.domainWakeOnAccess l d) s = .next (heldGo l 1 d.val (heldGo l 0 d.val up))) ∧
    (asked → L.pwr.phase = .waking → d = 0 →
      exec (.domainWakeOnAccess l d) s = .next (heldGo l 1 0 (heldGo l 0 0 (onDie l wokenCore up)))) ∧
    (¬ asked → exec (.domainWakeOnAccess l d) s = .next s ∧ exec (.domainWakeTimeout l d) s = .next s) ∧
    (∀ c t, heldFor (t.lane l) c d.val = none → heldGo l c d.val t = t) ∧
    (∀ c t h, heldFor (t.lane l) c d.val = some h → heldGo l c d.val t = coreGo l c h.op h.w h.addr.toNat h.data t) ∧
    (asked → exec (.domainWakeTimeout l d) s = .next (s.setLane l (heldFail 1 d.val (heldFail 0 d.val
        (withPwr (fun p => { p with waking := p.waking &&& ~~~ m }) (raise 0x001 (L.setBit F.AOS_STAT_FAIL d.val true))))))) ∧
    (L.live = true → bitAt val 7 = false → exec (.aosDomReq l val) s = .next (s.setLane l A)) ∧
    (L.pwr.phase = .run → bitAt val 7 = true → L.pwr.dormStep ≠ 0 → exec (.aosDomReq l val) s = .next (s.setLane l
      (withPwr (fun p => { p with wakePend := p.wakePend ||| 0x80 }) A))) ∧
    (L.live = true → bitAt val 7 = true → L.pwr.dormStep = 0 ∨ L.pwr.phase = .waking →
      exec (.aosDomReq l val) s = .next (s.setLane l A)) ∧
    (L.live = false → exec (.aosDomReq l val) s = .next s)

/-! The timeline and the mode sequencer -/

/-- Entries that act within the sequencer, on interrupts, on the CDSP, on inputs and on self-test windows (R107, R110, R111,
R192, R194, R423, R490): each issues when the running list holds it next, and an entry of another action code leaves the lane as
it is. A task for a CDSP that runs a handler from idle waits; one that meets its target busy is dropped and counted with source
0x07B. Choices of the model it rests on: log entries 3, 39. -/
def Obligations.TimelineEntriesAct : Prop :=
  ∀ (l : LaneId) (s : State) (i : Nat) (e : TlEnt),
    let L := s.lane l
    let P := atEntry i e L
    let E := evrEvent 4 (toW e.arg) P
    let dropped : State := s.setLane l (raise 0x07B (P.inc F.TLS_ERR_BUSY_CNT))
    tlsRuns L = true → (nextEntryOf L).1 = some (i, e) →
    (e.action = 0x00 → exec (.nop l) s = .next (s.setLane l P)) ∧
    (e.action ≠ 0x00 → exec (.nop l) s = .next s) ∧
    (e.action = 0x01 → exec (.mid l) s = .next (s.setLane l ((P.setB F.TLS_OFFSET_SEG true).putN F.TLS_OFFSET_OFFSET 0))) ∧
    (e.action = 0x02 → exec (.irq l) s = .next (s.setLane l (plicRaise (41 + e.arg % 8) P))) ∧
    (e.action = 0x30 → P.n F.CDSP_STAT_STATE = 0 →
      exec (.cdspTask l) s = .next (s.setLane l (taskStart e.target (10 * e.arg) P))) ∧
    (e.action = 0x30 → P.n F.CDSP_STAT_STATE = 2 → P.dsp.fromIdle = true → P.dsp.heldTask = none → exec (.cdspTask l) s =
      .next (s.setLane l { P with dsp := { P.dsp with heldTask := some (e.target, 10 * e.arg) } })) ∧
    (e.action = 0x30 → P.n F.CDSP_STAT_STATE = 2 → P.dsp.fromIdle = false ∨ P.dsp.heldTask ≠ none →
      exec (.cdspTask l) s = .next dropped) ∧
    (e.action = 0x30 → P.n F.CDSP_STAT_STATE = 3 → exec (.cdspTask l) s = .next (s.setLane l P)) ∧
    (e.action = 0x41 → 16 ≤ e.target → exec (.sample ⟨l, false⟩) s = .next (s.setLane l P)) ∧
    (e.action = 0x41 → e.target < 16 → exec (.sample ⟨l, false⟩) s = .next (s.setLane l (sampleAct e P))) ∧
    (e.action = 0x48 → e.target < 32 → exec (.bistWin ⟨l, false⟩) s = .next (s.setLane l (bistWin e.target e.arg P))) ∧
    (e.action = 0x41 → exec (.sample ⟨l, true⟩) s = .next dropped) ∧ (e.action = 0x48 → exec (.bistWin ⟨l, true⟩) s = .next dropped) ∧
    (e.action = 0x50 → E.b F.EVR_FRZCFG_MARK = false ∨ e.arg.testBit 15 = false →
      exec (.evrMark l) s = .next (s.withLD l (pump (E, s.sto)))) ∧
    (e.action = 0x50 → E.b F.EVR_FRZCFG_MARK = true → e.arg.testBit 15 = true →
      exec (.evrMark l) s = .next (s.withLD l (pump ((freezeTrigger 4 E).1, s.sto))))

/-- Entries that command the motor island, the valves, the network and the CAN gateway (R246, R250, R226, R282, R288, R321,
R325, R360); one that meets its target busy is dropped and counted with source 0x07B (R110), a sequence also with PLIC source
66 (R53). Choices of the model it rests on: log entries 39, 74. -/
def Obligations.TimelineEntriesDriveTheBlocks : Prop :=
  ∀ (l : LaneId) (s : State) (i : Nat) (e : TlEnt) (cnt : BitVec 16) (count : BitVec 18),
    let L := s.lane l
    let P := atEntry i e L
    let dropped : State := s.setLane l (raise 0x07B (P.inc F.TLS_ERR_BUSY_CNT))
    tlsRuns L = true → (nextEntryOf L).1 = some (i, e) →
    (e.action = 0x08 → e.target < 3 →
      exec (.pwmAlign ⟨l, false⟩ cnt count) s = .next (s.setLane l (pwmAlign e.target cnt.toNat count.toNat P))) ∧
    (e.action = 0x10 → e.target < 2 → P.bit F.ADC_STAT_BUSY e.target = false →
      exec (.adcSeq l) s = .next (s.setLane l (adcStart e.target e.arg P))) ∧
    (e.action = 0x10 → e.target < 2 → P.bit F.ADC_STAT_BUSY e.target = true →
      exec (.adcSeq l) s = .next (s.setLane l (plicRaise 66 (raise 0x07B (P.inc F.TLS_ERR_BUSY_CNT))))) ∧
    (e.action = 0x18 → e.target < 2 → exec (.meStep l false) s = .next (s.setLane l (meStep e.target P)) ∧
      exec (.meStep l true) s = .next dropped) ∧
    (e.action = 0x20 → exec (.lpeRun l false) s = .next (s.setLane l (lpeRun e.target (min e.arg (64 - e.target)) P)) ∧
      exec (.lpeRun l true) s = .next dropped) ∧
    (e.action = 0x28 → exec (.vduUpdate l false) s = .next (s.setLane l (vduUpdate e.target P)) ∧
      exec (.vduUpdate l true) s = .next dropped) ∧
    (e.action = 0x30 → P.n F.CDSP_STAT_STATE = 1 → exec (.cdspTask l) s = .next dropped) ∧
    (e.action = 0x38 → exec (.netTx ⟨l, false⟩) s = .next (s.setLane l (netTx e.arg (entNs P e) P))) ∧
    (e.action = 0x39 → exec (.netRx ⟨l, false⟩) s = .next (s.setLane l (netRx e.arg P))) ∧
    (e.action = 0x3A → e.target < 2 → exec (.canTx ⟨l, false⟩) s = .next (s.setLane l (canTx e.arg e.target P))) ∧
    (e.action = 0x08 → exec (.pwmAlign ⟨l, true⟩ cnt count) s = .next dropped) ∧ (e.action = 0x38 → exec (.netTx ⟨l, true⟩) s = .next dropped) ∧
    (e.action = 0x39 → exec (.netRx ⟨l, true⟩) s = .next dropped) ∧ (e.action = 0x3A → exec (.canTx ⟨l, true⟩) s = .next dropped)

/-- Cycle starts (R103 to R105): unlocked and in holdover the TLS starts cycles on its own count; the first event locks it;
an event within 1 us of its instant starts the cycle of the network; a missing one begins holdover; one outside 2 us in
holdover is only counted. Choices of the model it rests on: log entry 40. -/
def Obligations.CyclesStartAsTheClockAllows : Prop :=
  ∀ (l : LaneId) (s : State) (delta : Int),
    let L := s.lane l
    let hold : Lane := cycleTo (tlsCycle L + 1) false (raise 0x078 ((L.setB F.TLS_STAT_HOLDOVER true).inc F.TLS_ERR_MISS_CNT))
    tlsRuns L = true →
    (L.b F.TLS_STAT_LOCKED = false → exec (.cycleStart l) s = .next (s.setLane l (timeOwn (cycleTo (tlsCycle L + 1) false L)))) ∧
    (L.b F.TLS_STAT_LOCKED = true → L.b F.TLS_STAT_HOLDOVER = true → exec (.cycleStart l) s = .next (s.setLane l hold)) ∧
    (L.b F.TLS_STAT_LOCKED = true → L.b F.TLS_STAT_HOLDOVER = false → exec (.cycleStartMissing l) s = .next (s.setLane l hold)) ∧
    (synced L = true → L.b F.TLS_STAT_LOCKED = false → exec (.cycleStartEvent l delta) s = .next (s.setLane l
      (cycleTo (frameCyc L) true (L.setB F.TLS_STAT_LOCKED true)))) ∧
    (synced L = true → L.b F.TLS_STAT_LOCKED = true → L.b F.TLS_STAT_HOLDOVER = false → delta ≤ 1000 →
      exec (.cycleStartEvent l delta) s = .next (s.setLane l (cycleTo (frameCyc L) false L))) ∧
    (synced L = true → L.b F.TLS_STAT_LOCKED = true → L.b F.TLS_STAT_HOLDOVER = true → 0 < delta → delta ≤ 2000 →
      exec (.cycleStartEvent l delta) s = .next (s.setLane l (L.setB F.TLS_STAT_HOLDOVER false))) ∧
    (synced L = true → L.b F.TLS_STAT_LOCKED = true → L.b F.TLS_STAT_HOLDOVER = true → delta < -2000 ∨ 2000 < delta →
      exec (.cycleStartEvent l delta) s = .next (s.setLane l (L.inc F.TLS_ERR_MISS_CNT))) ∧
    (synced L = true → L.b F.TLS_STAT_LOCKED = true → L.b F.TLS_STAT_HOLDOVER = true → -2000 ≤ delta → delta ≤ 0 →
      exec (.cycleStartEvent l delta) s = .next (s.setLane l (cycleTo (frameCyc L) false (L.setB F.TLS_STAT_HOLDOVER false))))

/-- A checkpoint (R111, R144, R177): with no halt asked by a peer the lane carries out its round, its mode step and the
selection block, an ended request completes and the recorder goes on, and SERVICE ends as entry to Dormant begins (R451); with
one asked the lane halts instead. A request
descriptor with a proper word is held (R71), one with code 0 is rejected with reason 1 (R84). A bank whose entries have been
read is READY, and the next target begins to load (R82). Choices of the model it rests on: log entries 35, 36, 42, 65. -/
def Obligations.CheckpointsRequestsAndBanks : Prop :=
  ∀ (l : LaneId) (s : State) (i : Nat) (e : TlEnt) (r : Run) (bs : List Byte) (n p : Nat),
    let L := s.lane l
    let P := atEntry i e L
    let q := iovaReadN 6 r.d.ctx r.d.src 4 (L, s.sto)
    let w := leWord bs
    let b := readBytes (masalaSlot (L.n F.TLS_IMG_STAT_ASLOT) + (pointRec L p).tlOff) (8 * (pointRec L p).tlEntries) L
    L.live = true →
    (tlsRuns L = true → (nextEntryOf L).1 = some (i, e) → e.action = 0x40 → haltAsked P = false → L.ring.noFetch = false →
      P.pwr.dormStep ≠ 0 ∨ (ckptLane e P).pwr.dormStep ≠ 1 → P.pwr.dormStep ≠ 3 ∨ (ckptLane e P).pwr.dormStep ≠ 4 →
      exec (.ckpt l) s = .next (s.withLD l (pump (flushReq (ckptLane e P, s.sto))))) ∧
    (tlsRuns L = true → (nextEntryOf L).1 = some (i, e) → e.action = 0x40 → haltAsked P = false → L.ring.noFetch = false →
      P.pwr.dormStep = 0 → (ckptLane e P).pwr.dormStep = 1 →
      exec (.ckpt l) s = .next (s.withLD l (pump (flushReq (svcEnded 3 (ckptLane e P), s.sto))))) ∧
    (tlsRuns L = true → (nextEntryOf L).1 = some (i, e) → e.action = 0x40 → haltAsked P = true →
      exec (.ckpt l) s = .next (s.setLane l (crossHalt P))) ∧
    (runningOp L 6 0x01 = some r → L.tls.reqWord = none → r.d.length = 4 → q.1 = .ok bs → bitsOf w 0 8 ≠ 0 → bitsOf w 8 8 = 0 →
      q.2.1.b F.CLV_STAT_EXCL = false → exec (.modeRequest l) s = .next (s.withLD l
        (withTls (fun t => { t with reqWord := some w, reqStage := 0, reqAge := 0 }) q.2.1, q.2.2))) ∧
    (runningOp L 6 0x01 = some r → L.tls.reqWord = none → r.d.length = 4 → q.1 = .ok bs → bitsOf w 0 8 = 0 →
      exec (.modeRequest l) s = .next (s.withLD l (finish 6 r 1 stRejected 0x100 (msRejected 0 1 q.2.1, q.2.2)))) ∧
    (L.tls.loading = some (n, p) → b.1 = some bs → exec (.bankLoadComplete l) s = .next (s.setLane l (startLoad
      (setTlBank n 2 p (writeBytes (entAddr n 0) bs
        ((withTls (fun t => { t with loading := none }) b.2).setB F.TLS_MS_STAT_PRELOAD_BUSY false)).2)))) ∧
    (L.tls.loading = some (n, p) → b.1 = none → exec (.bankLoadComplete l) s = .next (s.setLane l (startLoad
      (raise 0x07D (setTlBank n 3 p (withTls (fun t => { t with failedPts := p :: t.failedPts })
        ((withTls (fun t => { t with loading := none }) b.2).setB F.TLS_MS_STAT_PRELOAD_BUSY false)))))))

/-- Images (R93 to R101): the slot of the boot header is verified in substate 0x2, and a slot that passes is the one that is
copied; after the copy the tables are locked. An active slot that fails sends the lane to Hold (R100). Choices of the model
it rests on: log entries 38, 50. -/
def Obligations.ImagesAreVerifiedThenCopied : Prop :=
  ∀ (l : LaneId) (s : State) (slot : Nat) (bs : List Byte),
    let L := s.lane l
    let h := bootHdr L
    let v := imgVerify (h.imAct.toNat % 2) L
    let b := readBytes (masalaSlot slot) (L.rdW (masalaSlot slot + 8)).toNat L
    let I := imgOf bs (L.rdW (masalaSlot slot + 8)).toNat
    L.live = true → substate L = 2 →
    (L.lcs.fwSlot.isSome = true → L.tls.verified = none → h.imFlag = 0 → v.1.cause = 0 →
      exec (.imageVerification l) s = .next (s.setLane l
        (withTls (fun t => { t with verified := some (h.imAct.toNat % 2) }) (imgReport v.1 v.2)))) ∧
    (L.lcs.fwSlot.isSome = true → L.tls.verified = none → h.imFlag = 0 → v.1.cause ≠ 0 →
      exec (.imageVerification l) s = .next (s.setLane l (enterHold (imgReport v.1 v.2)))) ∧
    (L.tls.verified = some slot → b.1 = some bs → exec (.imageCopy l) s = .next (s.setLane l
      ((startTls I slot bs (copyTables I (copyPwm I (copyNetwork I (copyPrograms I b.2))))).setB F.LSM_CTL_LOCK true))) ∧
    (L.tls.verified = some slot → b.1 = none → exec (.imageCopy l) s = .next (s.setLane l
      (enterHold (withTls (fun t => { t with verified := none }) b.2))))

/-- Staging of images and firmware (R97, R98, R453): ERASE fills the slot with erased bytes and takes its verification back,
WRITE copies the source page by page, VERIFY ends DONE with the cause in its status and remembers a pass, ACTIVATE makes the
slot pending. Each ends its descriptor DONE. Choices of the model it rests on: log entries 50, 51. -/
def Obligations.StagingOperationsEndDone : Prop :=
  ∀ (l : LaneId) (s : State) (r : Run) (bs : List Byte),
    let L := s.lane l
    let k := targetSlot r
    let v := imgVerify k L
    let at7 := masalaSlot k + bitsOf r.d.w4 8 24 * 256
    let at9 := fwSlotBase k + bitsOf r.d.w4 8 24 * 256
    let q7 := iovaReadN 7 r.d.ctx (r.d.src + 0) r.d.length (stageSet false k L, s.sto)
    let q9 := iovaReadN 9 r.d.ctx (r.d.src + 0) r.d.length (fwStageSet false k L, s.sto)
    L.live = true → r.progress = 0 →
    (runningOp L 7 0x20 = some r → exec (.stageErase l) s = .next (s.withLD l (finish 7 { r with progress := 2097152 } 0 stDone 0
      (stageSet false k (clearRange (masalaSlot k) 2097152 L), s.sto)))) ∧
    (runningOp L 9 0x30 = some r → exec (.fwErase l) s = .next (s.withLD l (finish 9 { r with progress := 2097152 } 0 stDone 0
      (fwStageSet false k (clearRange (fwSlotBase k) 2097152 L), s.sto)))) ∧
    (runningOp L 7 0x21 = some r → 0 < r.d.length → r.d.length < 4096 → q7.1 = .ok bs → exec (.stageWrite l) s =
      .next (s.withLD l (finish 7 { r with progress := r.d.length } 0 stDone 0 (place at7 bs q7.2.1, q7.2.2)))) ∧
    (runningOp L 9 0x31 = some r → 0 < r.d.length → r.d.length < 4096 → q9.1 = .ok bs → exec (.fwWrite l) s =
      .next (s.withLD l (finish 9 { r with progress := r.d.length } 0 stDone 0 (place at9 bs q9.2.1, q9.2.2)))) ∧
    (runningOp L 7 0x22 = some r → v.1.cause = 0 → exec (.stageVerify l) s = .next (s.withLD l
      (finish 7 { r with progress := v.1.step } 0 stDone 0 (stageSet true k (imgReport v.1 v.2), s.sto)))) ∧
    (runningOp L 7 0x22 = some r → v.1.cause ≠ 0 → exec (.stageVerify l) s = .next (s.withLD l
      (finish 7 { r with progress := v.1.step } 0 stDone (toW v.1.cause) (imgReport v.1 v.2, s.sto)))) ∧
    (runningOp L 7 0x23 = some r → L.b F.TLS_MS_CFG_IMG_VALID = false → exec (.stageActivate l) s = .next (s.withLD l
      (finish 7 r 0 stDone 0 (bootWrite (fun b => { b with imPend := BitVec.ofNat 8 k, imFlag := 1 }) L, s.sto))))

/-! Rings and the LMMU -/

/-- Doorbells and ring configuration (R129, R130, R132, R140): a doorbell of an enabled ring moves PI where it neither goes
back nor past the ring's size, and is refused with source 0x03E otherwise; on a disabled ring both indices are set. ENABLE
is taken where the configuration is proper, else CFG_ERR is set; it is given back while no descriptor is in service. RESUME
clears the halt. ABORT of an idle ring halts it at once, of a held or queued descriptor ends that at once, of a running one waits
for its boundary; the engine then takes other work. An invalidation of the LMMU (R138, R142) is accepted while none is in
progress and ignored meanwhile; when it completes, the cached translations that it covers are gone and BUSY clears. Choices
of the model it rests on: log entries 53, 54. -/
def Obligations.DoorbellsAndRingControl : Prop :=
  ∀ (l : LaneId) (s : State) (n : Fin 32) (val : Word) (r : Run) (p : Nat) (iv : Nat × Nat × Nat),
    let L := s.lane l
    let v := val.toNat % 65536
    let dNew := (v + 65536 - L.n (F.RINGn_CI_CI n.val)) % 65536
    let size := 2 ^ L.n (F.RINGn_CFG_LOG2SIZE n.val)
    let refused (f : Fld) : State := s.setLane l
      (plicRaise (9 + n.val) (raise 0x03E ((L.setB f true).inc (F.RINGn_STAT_DB_REF_CNT n.val))))
    let L1 := ((L.putN (F.RINGn_CFG_ROLE n.val) (bitsOf val 20 4)).putN (F.RINGn_CFG_PRIO n.val) (bitsOf val 16 2)).putN
      (F.RINGn_CFG_LOG2SIZE n.val) (bitsOf val 0 4)
    let e := getEng L (ringRole L n.val)
    L.live = true →
    (L.b (F.RINGn_CFG_ENABLE n.val) = true → dNew ≤ size → ringFill L n.val ≤ dNew →
      exec (.doorbell l n val) s = .next (s.setLane l (L.putN (F.RINGn_PI_PI n.val) v))) ∧
    (L.b (F.RINGn_CFG_ENABLE n.val) = true → size < dNew → exec (.doorbell l n val) s = .next (refused (F.RINGn_STAT_DB_OVER n.val))) ∧
    (L.b (F.RINGn_CFG_ENABLE n.val) = true → dNew ≤ size → dNew < ringFill L n.val →
      exec (.doorbell l n val) s = .next (refused (F.RINGn_STAT_DB_BACK n.val))) ∧
    (L.b (F.RINGn_CFG_ENABLE n.val) = false →
      exec (.doorbell l n val) s = .next (s.setLane l ((L.putN (F.RINGn_PI_PI n.val) v).putN (F.RINGn_CI_CI n.val) v))) ∧
    (L.b (F.RINGn_CFG_ENABLE n.val) = false → L.b F.RING_CTL_LOCK = false → bitAt val 31 = true → bitAt val 30 = false →
      enableOk L1 n.val = true →
      exec (.ringEnable l n val) s = .next (s.setLane l (L1.setB (F.RINGn_CFG_ENABLE n.val) true))) ∧
    (L.b (F.RINGn_CFG_ENABLE n.val) = false → L.b F.RING_CTL_LOCK = false → bitAt val 31 = true → bitAt val 30 = false →
      enableOk L1 n.val = false →
      exec (.ringEnable l n val) s = .next (s.setLane l (L1.setB (F.RINGn_CFG_CFG_ERR n.val) true))) ∧
    (L.b (F.RINGn_CFG_ENABLE n.val) = true → L.b (F.RINGn_STAT_BUSY n.val) = false → bitAt val 31 = false → bitAt val 30 = false →
      bitsOf val 20 4 = ringRole L n.val → bitsOf val 16 2 = ringPrio L n.val → bitsOf val 0 4 = L.n (F.RINGn_CFG_LOG2SIZE n.val) →
      smSorted L.regs = true → exec (.ringEnable l n val) s =
        .next (s.withLD l (engineNext (ringRole L n.val) (L.setB (F.RINGn_CFG_ENABLE n.val) false, s.sto)))) ∧
    exec (.ringResume l n) s = .next (s.setLane l (((L.setB (F.RINGn_STAT_HALTED n.val) false).putN
      (F.RINGn_STAT_CAUSE n.val) 0).putN (F.RINGn_STAT_DB_REF_CNT n.val) 0)) ∧
    ((∀ x, e.run = some x → x.ring ≠ n.val) → heldSlot e n.val = none → (∀ x ∈ e.queued, x.ring ≠ n.val) →
      (∀ x ∈ L.ring.recv, x.ring ≠ n.val) →
      exec (.ringAbort l n) s = .next (s.withLD l (engineNext (ringRole L n.val) (ringHalt n.val 1 L, s.sto)))) ∧
    ((∀ x, e.run = some x → x.ring ≠ n.val) → heldSlot e n.val = some (p, r) → exec (.ringAbort l n) s =
      .next (s.withLD l (engineNext (ringRole L n.val) (endStatus (ringRole L n.val) { r with abort := true } 1 stAborted 0
        (setEng (ringRole L n.val) (setSlot e p none) L, s.sto))))) ∧
    ((∀ x, e.run = some x → x.ring ≠ n.val) → heldSlot e n.val = none → e.queued.find? (fun q => decide (q.ring = n.val)) = some r →
      exec (.ringAbort l n) s = .next (s.withLD l (engineNext (ringRole L n.val) (endStatus (ringRole L n.val)
        { r with abort := true } 1 stAborted 0 (setEng (ringRole L n.val)
          { e with queued := e.queued.filter (fun x => decide (x.ring ≠ n.val)) } L, s.sto))))) ∧
    (e.run = some r → r.ring = n.val → exec (.ringAbort l n) s = .next (s.setLane l
      (setEng (ringRole L n.val) { e with run := some { r with abort := true } } (L.setB (F.RINGn_CTL_ABORT n.val) true)))) ∧
    (L.b F.LMMU_INV_BUSY = false → exec (.lmmuInv l val) s = .next (s.setLane l { L.setB F.LMMU_INV_BUSY true with
      ring := { L.ring with inv := some (bitsOf val 16 2, bitsOf val 8 6, L.n F.LMMU_INV_IOVA_IOVA_PAGE) } })) ∧
    (L.b F.LMMU_INV_BUSY = true → exec (.lmmuInv l val) s = .next s) ∧
    (L.ring.inv = some iv → exec (.lmmuInvComplete l) s = .next (s.setLane l { L.setB F.LMMU_INV_BUSY false with
      ring := { L.ring with
        inv := none
        tlb0 := L.ring.tlb0.filter (tlbKeeps iv)
        tlb1 := L.ring.tlb1.filter (tlbKeeps iv)
        tlb2 := L.ring.tlb2.filter (tlbKeeps iv) } }))

/-- The fetch of a head descriptor (R131, R132): where the ring may be served, the checks run in their order. A descriptor
that cannot be read halts the ring with cause 3, one whose context is not enabled and permitted with cause 4; an unknown
opcode ends it FAULT, ERR_PARAM, and REJECTED, reason 1, for a mode request; one that passes every check starts. An accepted
WRITE to the audit log takes its sectors (R376); a free engine then goes on with the work that it holds, and does only that
where the ring may not be served. Choices of the model it rests on: log entries 52, 55, 56. -/
def Obligations.FetchChecksThenStarts : Prop :=
  ∀ (l : LaneId) (s : State) (n : Fin 32) (ws : List Word) (o : OpInfo) (pa : Nat),
    let L := s.lane l
    let role := ringRole L n.val
    let ci := L.n (F.RINGn_CI_CI n.val)
    let q := readWords (L.n (F.RINGn_BASE_BASE n.val) * 512 + 32 * (ci % 2 ^ L.n (F.RINGn_CFG_LOG2SIZE n.val))) 8 L
    let d : Desc := ⟨nth ws 0 0, nth ws 1 0, nth ws 2 0, nth ws 3 0, nth ws 4 0, nth ws 5 0, nth ws 6 0, nth ws 7 0⟩
    let r : Run := ⟨n.val, ci, d, 0, false, false, 0, []⟩
    let t := translate role d.ctx d.status true q.2
    let mine (ld : LD) : Option Run :=
      ((getEng ld.1 role).run.toList ++ (getEng ld.1 role).queued).find? (fun x => decide (x.ring = n.val))
    let goesOn (ld : LD) : State := s.withLD l (engineNext role (match role, mine ld with
      | 1, some x => acceptStorage x ld
      | _, _ => ld))
    let free : Prop := mayFetch n.val L = true ∧ ((getEng L role).run.isSome = true ∨ captureWaits role (L, s.sto) = false)
    L.live = true →
    (¬ free → exec (.descriptorFetch l n) s = .next (s.withLD l (engineNext role (L, s.sto)))) ∧
    (free → q.1 = none → exec (.descriptorFetch l n) s = .next (goesOn (haltAtFetch n.val 3 true (raise 0x03D q.2), s.sto))) ∧
    (free → q.1 = some ws → ctxOk q.2 n.val d.ctx = false → exec (.descriptorFetch l n) s = .next
      (goesOn (haltAtFetch n.val 4 d.chain (raise 0x03F (ringLast n.val ci role errCtx stFault q.2)), s.sto))) ∧
    (free → q.1 = some ws → ctxOk q.2 n.val d.ctx = true → d.status % 16 = 0 → rangeOk q.2 d.ctx d.status 16 = true → t.1 = .ok pa →
      t.2.ring.broken.getLsbD n.val = false → opInfo role d.opcode d.length = none →
      (role ≠ 6 → exec (.descriptorFetch l n) s = .next (goesOn (endAtFetch role r errParam stFault 0 (t.2, s.sto)))) ∧
      (role = 6 → exec (.descriptorFetch l n) s = .next (goesOn (endAtFetch 6 r 1 stRejected 0x100 (t.2, s.sto))))) ∧
    (free → q.1 = some ws → ctxOk q.2 n.val d.ctx = true → d.status % 16 = 0 → rangeOk q.2 d.ctx d.status 16 = true → t.1 = .ok pa →
      t.2.ring.broken.getLsbD n.val = false → opInfo role d.opcode d.length = some o → reservedOk d = true →
      (o.lenZero = true → d.length = 0) → (o.counting = true → d.length ≠ 0) → rangeOk t.2 d.ctx d.src o.src = true →
      rangeOk t.2 d.ctx d.dst o.dst = true → lenOk role d.opcode d.length = true → parmsOf role r (t.2, s.sto) = none →
      exec (.descriptorFetch l n) s = .next (goesOn (startRun role r (t.2, s.sto))))

/-- COPY and FILL (R119, R135): a unit's bytes are read through the LMMU at SRC and written at DST, or the pattern of ARG0
is written; the descriptor of one unit ends DONE with its length as PROGRESS. A read that fails ends it FAULT with the
failure's ERR. With more than a unit left the descriptor passes its boundary. Choices of the model it rests on: log entries
18, 19, 53. -/
def Obligations.CopyAndFillMoveTheirBytes : Prop :=
  ∀ (l : LaneId) (s : State) (r : Run) (bs : List Byte) (e : AccErr),
    let L := s.lane l
    let q := iovaReadN 0 r.d.ctx (r.d.src + 0) r.d.length (L, s.sto)
    let w := iovaWrite 0 r.d.ctx (r.d.dst + 0) bs q.2
    let fin := finish 0 { r with progress := r.d.length } 0 stDone 0 w.2
    let pat := (List.range r.d.length).map (fun i => nth (wordBytes r.d.w4) ((0 + i) % 4) 0)
    let wf := iovaWrite 0 r.d.ctx (r.d.dst + 0) pat (L, s.sto)
    let finF := finish 0 { r with progress := r.d.length } 0 stDone 0 wf.2
    let q1 := iovaReadN 0 r.d.ctx (r.d.src + r.progress) 4096 (L, s.sto)
    let w1 := iovaWrite 0 r.d.ctx (r.d.dst + r.progress) bs q1.2
    let isOver (ld : LD) : Prop := ∀ x, (getEng ld.1 0).run = some x → ¬ (x.ring = r.ring ∧ x.seq = r.seq)
    L.live = true →
    (runningOp L 0 0x01 = some r → r.progress = 0 → r.d.length ≤ 4096 → q.1 = .ok bs → aliased q.2.1 r.d = false →
      w.1 = .ok () → isOver fin → exec (.copy l) s = .next (s.withLD l fin)) ∧
    (runningOp L 0 0x01 = some r → r.progress = 0 → r.d.length ≤ 4096 → q.1 = .error e → isOver (finishErr 0 r e q.2) →
      exec (.copy l) s = .next (s.withLD l (finishErr 0 r e q.2))) ∧
    (runningOp L 0 0x02 = some r → r.progress = 0 → r.d.length ≤ 4096 → wf.1 = .ok () → isOver finF →
      exec (.fill l) s = .next (s.withLD l finF)) ∧
    (runningOp L 0 0x01 = some r → ringRole L r.ring = 0 → 4096 < r.d.length - r.progress → q1.1 = .ok bs →
      aliased q1.2.1 r.d = false → w1.1 = .ok () →
      exec (.descriptorBoundary l 0) s = .next (s.withLD l (atBoundary 0 { r with progress := r.progress + 4096 } w1.2)))

/-- What a final status leaves behind (R123, R125, R131, R140, R452): the ring's index moves on, a chain that did not end DONE is
broken, an interrupt is raised where it was asked for, an abort that was requested halts the ring, and so does a status word that
cannot be written. PLIC source 78 is raised at the end of an SM2_SIGN and an ATTEST and of nothing else. Choices of the model it
rests on: log entries 52, 100. -/
def Obligations.FinalStatusMovesTheRingOn : Prop :=
  ∀ (role : Nat) (r : Run) (err st : Nat) (detail : Word) (ld : LD),
    let w := statusWrite role r err st detail (onL (fun L => cryptoEnd role r (ringLast r.ring r.seq role err st L)) ld)
    let L1 := (w.2.1.incMod (F.RINGn_CI_CI r.ring)).setB (F.RINGn_STAT_BUSY r.ring) false
    let L2 := { L1 with ring := { L1.ring with broken := L1.ring.broken ||| BitVec.ofNat 32 (2 ^ r.ring) } }
    (role = 2 → r.d.opcode = 3 ∨ r.d.opcode = 4 → cryptoEnd role r ld.1 = plicRaise 78 ld.1) ∧
    (role ≠ 2 ∨ (r.d.opcode ≠ 3 ∧ r.d.opcode ≠ 4) → cryptoEnd role r ld.1 = ld.1) ∧
    (r.abort = false → w.1 = true →
      (r.d.chain = false → r.d.irq = false → endStatus role r err st detail ld = (L1, w.2.2)) ∧
      (r.d.chain = false → r.d.irq = true → endStatus role r err st detail ld = (plicRaise (9 + r.ring) L1, w.2.2)) ∧
      (r.d.chain = true → st ≠ stDone → r.d.irq = false → endStatus role r err st detail ld = (L2, w.2.2)) ∧
      (r.d.chain = true → st ≠ stDone → r.d.irq = true → endStatus role r err st detail ld = (plicRaise (9 + r.ring) L2, w.2.2)) ∧
      (r.d.chain = true → st = stDone → r.d.irq = false → endStatus role r err st detail ld = (L1, w.2.2))) ∧
    (r.abort = true → w.1 = true → r.d.chain = false → r.d.irq = false → endStatus role r err st detail ld =
      ((ringHalt r.ring 1 L1).setB (F.RINGn_CTL_ABORT r.ring) false, w.2.2)) ∧
    (r.abort = false → w.1 = false → r.d.chain = false → endStatus role r err st detail ld =
      (ringHalt r.ring 2 (L1.setB (F.RINGn_STAT_STWB_ERR r.ring) true), w.2.2))

/-! Crossings, cores and their accesses -/

/-- Crossings (R28, R30 to R32): a parity error and an abandoned crossing are counted, recorded and raise sources 0x011 and
0x010, and the core's access that was carried ends: a spoilt read and an abandoned access in a bus error, after the
access has been made where its answer was on the way, a spoilt write without effect. A crossing into a domain that is being woken is not abandoned. A transfer in order takes its access to its destination; a
posted write that arrives takes effect at its register; an answer that arrives ends the core's access, after Pepper has met the
transfer. Isolators, timers and lockstep (R25, R51, R55): a claim-line isolator that loses its lane raises 0x012 and the line
falls; a core's timer input is asserted while MTIME has reached its MTIMECMP; Locked cores that differ stop, and source 0x020 is
raised. Choices of the model it rests on: log entries 3, 29, 33, 34. -/
def Obligations.CrossingsTimersAndLockstep : Prop :=
  ∀ (l peer : LaneId) (s : State) (g : Fin 4) (id : Byte) (p : Posted) (rest : List Posted) (c : Nat) (d : Word)
    (more : List (Nat × Word)) (acc : Option BusAcc) (x : BusAcc),
    let L := s.lane l
    let L1 := (pepper 1 id.toNat (fun _ => true) L).2
    let m := pepper 7 id.toNat (fun _ => true) L1
    let spoilt (A : Lane) := plicRaise 2 (raise 0x011 ((A.inc F.CLK_XING_STAT_PAR_CNT).putN F.CLK_XING_STAT_LAST_ID id.toNat))
    let lost (A : Lane) := xingDrop id.toNat
      (plicRaise 2 (raise 0x010 ((A.inc F.CLK_XING_STAT_TMO_CNT).putN F.CLK_XING_STAT_LAST_ID id.toNat)))
    let go := coreGo l x.core.val x.op x.w x.addr.toNat x.data
    outOfReset L = true → xingId id.toNat = true →
    (accCarried L id.toNat acc = none → exec (.crossingTransfer l ⟨id, acc⟩ false) s = .next (s.setLane l (xingDrop id.toNat (spoilt m.2)))) ∧
    (accCarried L id.toNat acc = some (x, true) → x.op ≠ .store → exec (.crossingTransfer l ⟨id, acc⟩ false) s =
      .next (s.setLane l (coreResp x.core.val .busError (spoilt m.2)))) ∧
    (accCarried L id.toNat acc = some (x, true) → x.op = .store → exec (.crossingTransfer l ⟨id, acc⟩ false) s =
      .next (s.setLane l (coreResp x.core.val (.ok 0) (spoilt m.2)))) ∧
    (accCarried L id.toNat acc = some (x, false) → exec (.crossingTransfer l ⟨id, acc⟩ false) s = .next
      ((coreDo l x.core.val x.op x.w x.addr.toNat x.data (s.setLane l m.2)).onLane l
        (fun A => coreResp x.core.val .busError (spoilt A)))) ∧
    (accCarried L id.toNat acc = some (x, true) ∨ accCarried L id.toNat acc = some (x, false) →
      exec (.crossingTransfer l ⟨id, acc⟩ true) s = .next (go s)) ∧
    (xingWakes id.toNat L = false → accCarried L id.toNat acc = none → exec (.xingTimeout l ⟨id, acc⟩) s = .next (s.setLane l (lost L))) ∧
    (xingWakes id.toNat L = false → accCarried L id.toNat acc = some (x, true) → exec (.xingTimeout l ⟨id, acc⟩) s =
      .next (s.setLane l (coreResp x.core.val .busError (lost L)))) ∧
    (xingWakes id.toNat L = false → accCarried L id.toNat acc = some (x, false) → exec (.xingTimeout l ⟨id, acc⟩) s = .next
      ((coreDo l x.core.val x.op x.w x.addr.toNat x.data s).onLane l
        (fun A => coreResp x.core.val .busError (xingTimeout id.toNat A)))) ∧
    (xingWakes id.toNat L = true → exec (.xingTimeout l ⟨id, acc⟩) s = .next s) ∧
    (m.1 = none → accCarried L id.toNat acc = none → id ≠ 0x10 → id ≠ 0x11 →
      exec (.crossingTransfer l ⟨id, acc⟩ true) s = .next (s.setLane l m.2)) ∧
    (m.1 = none → accCarried L id.toNat acc = none → id = 0x10 → m.2.posted = p :: rest → p.reader = none →
      exec (.crossingTransfer l ⟨id, acc⟩ true) s = .next (regWrite l p.addr.toNat p.val (s.setLane l { m.2 with posted := rest }))) ∧
    (m.1 = none → accCarried L id.toNat acc = none → id = 0x11 → m.2.aosRet = (c, d) :: more → (coreOf m.2 c).resp = .waiting →
      exec (.crossingTransfer l ⟨id, acc⟩ true) s = .next (s.setLane l (coreResp c (.ok d) { m.2 with aosRet := more }))) ∧
    (L.live = true →
      (peer ≠ L.id → exec (.claimIsoLost l peer g) s = .next (s.setLane l (raise 0x012 (claimLine g.val peer false L)))) ∧
      (exec (.machineTimerInterrupt l 0) s = .next (s.setLane l
        { L with core0 := { L.core0 with mtip := decide (L.mtimecmp0.toNat ≤ L.mtime.toNat) } })) ∧
      (L.b F.TLS_MS_CFG_PAIR = true → exec (.machineTimerInterrupt l 1) s = .next (s.setLane l
        { L with core1 := { L.core1 with mtip := decide (L.mtimecmp1.toNat ≤ L.mtime.toNat) } })) ∧
      (L.b F.TLS_MS_CFG_PAIR = false → exec (.machineTimerInterrupt l 1) s = .next s) ∧
      (L.b F.TLS_MS_CFG_PAIR = false → exec (.coreLockstep l) s = .next (s.setLane l (raise 0x020 { L with
        core0 := { L.core0 with stopped := true, held := none }, core1 := { L.core1 with stopped := true, held := none } }))) ∧
      (L.b F.TLS_MS_CFG_PAIR = true → exec (.coreLockstep l) s = .next s))

/-- Core accesses (R45, R46, R22, R39, R379, R407): a load or fetch of memory answers the bytes as the memory delivers them,
little-endian, through the core's cache where the memory is cacheable; a store writes the bytes of its width; an access that the
map does not allow ends in an access fault with nothing else changed, one to a domain that has failed in a bus error; one to a
retained domain waits and wakes it. A staging-window access answers the buffer's bytes, and without a link ends in a bus error.
Pepper is not armed. Choices of the model it rests on: log entries 3, 28, 30, 104. -/
def Obligations.CoreAccessesReadAndWriteMemory : Prop :=
  ∀ (l : LaneId) (s : State) (c : Fin 2) (w : Width) (a : Word) (off : BitVec 24) (v : Word) (bs : List Byte) (k d : Nat) (M : Lane),
    let L := s.lane l
    let n := a.toNat
    let q := physRead n (widthBytes w) (L, s.sto)
    let p := physWrite n (storeBytes w v) (L, s.sto)
    let x := n - n % eccBytes k
    let sa := 0x70000000 + off.toNat
    let memory : Prop := inBlocks n = false ∧ inTimer n = false ∧ inPlic n = false
    let up (i : Nat) : Prop := ∀ e, accessDomain i = some e → L.bit F.AOS_STAT_FAIL e = false ∧ L.pwr.retained.getLsbD e = false
    coreMay L c.val = true → L.b F.PPR_CTL_ARMED = false →
    (∀ op, op = .load ∨ op = .fetch → accessBad L op w n = false → memory → up n → cacheOf op n = none → q.1 = .ok bs →
      q.2.1.b F.PPR_CTL_ARMED = false →
      exec (.coreAccess l c op w a v) s = .next (s.withLD l (coreResp c.val (.ok (leWord bs)) q.2.1, q.2.2))) ∧
    (∀ op, accessBad L op w n = false → memory → up n → accXings n = none → cacheOf op n = some k →
      (cacheFind k c.val x L).isSome = true → cacheRead k c.val x L = (true, M) → exec (.coreAccess l c op w a v) s =
        .next (s.setLane l (coreResp c.val (.ok (leWord (M.rdBytes n (widthBytes w)))) M))) ∧
    (accessBad L .store w n = false → memory → up n → inRange n (lpeBase + 0xD00) 0x300 = false → cacheable n = false →
      p.1 = .ok () → exec (.coreAccess l c .store w a v) s = .next (s.withLD l (coreResp c.val (.ok 0) p.2.1, p.2.2))) ∧
    (accessBad L .store w n = false → memory → up n → inRange n (lpeBase + 0xD00) 0x300 = false → cacheable n = true →
      p.1 = .ok () → exec (.coreAccess l c .store w a v) s =
        .next (s.withLD l (coreResp c.val (.ok 0) (cacheStored n (widthBytes w) p.2.1), p.2.2))) ∧
    (∀ op, accessBad L op w n = true → exec (.coreAccess l c op w a v) s = .next (s.setLane l (coreResp c.val .accessFault L))) ∧
    (∀ op, accessBad L op w n = false → accessDomain n = some d → L.bit F.AOS_STAT_FAIL d = true →
      exec (.coreAccess l c op w a v) s = .next (s.setLane l (coreResp c.val .busError L))) ∧
    (∀ op, accessBad L op w n = false → accessDomain n = some d → L.bit F.AOS_STAT_FAIL d = false →
      L.pwr.retained.getLsbD d = true → exec (.coreAccess l c op w a v) s = .next (s.setLane l
        (setCore c.val { coreOf L c.val with resp := .waiting, held := some ⟨op, w, toW n, v⟩ }
          { L with pwr := { L.pwr with waking := L.pwr.waking ||| BitVec.ofNat 7 (2 ^ d) } }))) ∧
    (∀ op, accessBad L op w sa = true →
      exec (.stagingWindowAccess l c op w off v) s = .next (s.setLane l (coreResp c.val .accessFault L))) ∧
    (∀ op, accessBad L op w sa = false → up sa → linkUp L s.sto = false →
      exec (.stagingWindowAccess l c op w off v) s = .next (s.setLane l (coreResp c.val .busError L))) ∧
    (accessBad L .load w sa = false → up sa → linkUp L s.sto = true →
      stagRead off.toNat (widthBytes w) (stoOf s.sto L.id) = some bs →
      exec (.stagingWindowAccess l c .load w off v) s = .next (s.setLane l (coreResp c.val (.ok (leWord bs)) L))) ∧
    (accessBad L .store w sa = false → up sa → linkUp L s.sto = true → exec (.stagingWindowAccess l c .store w off v) s =
      .next (s.withLD l (coreResp c.val (.ok 0) L,
        setStoOf s.sto L.id (stagWrite off.toNat (storeBytes w v) (stoOf s.sto L.id)))))

/-- Writes to registers (R14, R15, R17, R47, R456): a register of the crypto unit's block takes its fields by their access
codes; a lock bit that is written with 1 is set through its own code; the reaction table is not changed while its lock is
set; a write that is not at a word address is no register write. What each access code does to a field is said once. Choices
of the model it rests on: log entry 30. -/
def Obligations.RegisterWritesFollowTheAccessCodes : Prop :=
  ∀ (l : LaneId) (s : State) (a v : Word) (n : Fin 64) (f : Fld) (w : Word) (k : Bool),
    let L := s.lane l
    (L.live = true → inRange a.toNat 0x40015000 0x1000 = true → a.toNat % 4 = 0 →
      exec (.registerWrite l a v) s = .next (s.setLane l (fldsWrite a.toNat v L))) ∧
    (a.toNat % 4 ≠ 0 → exec (.registerWrite l a v) s = .next s) ∧
    (L.live = true → L.b F.LSM_CTL_LOCK = true →
      exec (.registerWrite l (BitVec.ofNat 32 (F.LSM_RTn_CLASS0 n.val).addr) v) s = .next s) ∧
    (L.live = true → f ∈ lockBits → f ≠ F.EVR_CTL_LOCK → a.toNat = f.addr →
      exec (.lockSet l a v) s = .next (s.setLane l (fldsWrite f.addr v L))) ∧
    (f.acc = .rw → L.wrFld k w f = L.put f (fldOf f w)) ∧ (f.acc = .ro → L.wrFld k w f = L) ∧
    (f.acc = .wo → L.wrFld k w f = L) ∧ (f.acc = .w1c → L.wrFld k w f = L.put f (L.fld f &&& ~~~ fldOf f w)) ∧
    (f.acc = .w1s → L.wrFld k w f = L.put f (L.fld f ||| fldOf f w)) ∧
    (f.acc = .rwl → L.wrFld true w f = L ∧ L.wrFld false w f = L.put f (fldOf f w))

/-! Clove and the lane links -/

/-- The checks of a received transfer (R155, R157, R491), where Pepper is not armed: a transfer of the row's TYPE with a
right CRC, a matching COUNT, from the link's peer and, where SEQ is checked, of this round is good and leaves the lane as it
is; any other is discarded, counted, and raises source 0x06B. Choices of the model it rests on: log entry 60. -/
def Obligations.TransfersAreCheckedOnArrival : Prop :=
  ∀ (typ link : Nat) (x : Xfer) (L : Lane),
    let right : Prop := xfTyp x = typ ∧ crcWords (x.hdr0 :: x.aux0 :: x.payload) = x.crc ∧
      x.payload.length = bitsOf x.hdr0 7 6 + 1 ∧ bitsOf x.hdr0 0 2 = laneNo (linkPeer L.id link) ∧
      (typ = 0 ∨ typ = 5 ∨ (voter L = false ∧ L.clv.tookNum = false) ∨ xfSeq x = L.ckpt.toNat % 65536)
    L.b F.PPR_CTL_ARMED = false →
    (right → checkXfer typ link x L = (true, L)) ∧
    (¬ right → checkXfer typ link x L = (false, raise 0x06B (L.inc (F.LLK_LINKl_STAT_CRC_CNT link))))

/-- Good transfers of the formation, the re-integration, the mailbox and the time exchange, and MIRROR transfers, take their
effect (R159, R165, R167, R298, R336); a bad one leaves nothing but its count. Choices of the model it rests on: log entries
3, 59, 60, 63. -/
def Obligations.TransfersReachTheirReceivers : Prop :=
  ∀ (l : LaneId) (s : State) (link : Fin 2) (x : Xfer) (stamp : Word64) (o n : Nat),
    let L := s.lane l
    let c (typ : Nat) : Bool × Lane := checkXfer typ link.val x L
    let box : Nat := x.aux0.toNat % 4096
    let ws : List Word := x.payload.take (4096 - box)
    let M := (writeWords (mbxBase + 0x8000 + 0x4000 * link.val + 4 * box) ws (c 5).2).2
    let keep (m : Option (Nat × Nat)) (A : Lane) := withClv (fun k => if link.val = 0 then { k with mbx0 := m } else { k with mbx1 := m }) A
    let got (at' n : Nat) (A : Lane) := plicRaise 52 ((((A.setB F.LLK_MBX_RX_VALID true).putN F.LLK_MBX_RX_FROM link.val).putN
      F.LLK_MBX_RX_LEN_W n).putN F.LLK_MBX_RX_OFF_W at')
    L.live = true →
    (linkIsUp L link.val = false → exec (.formTransfer l link x) s = .next s) ∧
    (linkIsUp L link.val = true → (c 0).1 = true → exec (.formTransfer l link x) s = .next (s.setLane l (withClv (fun k =>
      if link.val = 0 then { k with rxF0 := some ⟨nth x.payload 0 0, x.aux0⟩ }
      else { k with rxF1 := some ⟨nth x.payload 0 0, x.aux0⟩ }) (c 0).2))) ∧
    (linkIsUp L link.val = true → (c 0).1 = false → exec (.formTransfer l link x) s = .next (s.setLane l (c 0).2)) ∧
    (linkIsUp L link.val = true → (c 3).1 = true → exec (.mirrorTransfer l link x) s = .next (s.setLane l
      (mirrorIn link.val x (c 3).2))) ∧
    (linkIsUp L link.val = true → (c 4).1 = true → (c 4).2.n F.CLV_STAT_REINT_STATE = 2 →
      exec (.catchupTransfer l link x) s = .next (s.setLane l (putRxC link.val ⟨(rxC (c 4).2 link.val).words ++ x.payload,
        xfLast x && decide (((rxC (c 4).2 link.val).words ++ x.payload).length = agreeH (c 4).2 0x16)⟩ (c 4).2))) ∧
    (linkIsUp L link.val = true → (c 5).1 = true → (if link.val = 0 then M.clv.mbx0 else M.clv.mbx1) = none →
      (xfLast x = false → exec (.mailboxTransfer l link x) s = .next (s.setLane l (keep (some (box, ws.length)) M))) ∧
      (xfLast x = true → M.b F.LLK_MBX_RX_VALID = false →
        exec (.mailboxTransfer l link x) s = .next (s.setLane l (got box ws.length (keep none M)))) ∧
      (xfLast x = true → M.b F.LLK_MBX_RX_VALID = true → exec (.mailboxTransfer l link x) s =
        .next (s.setLane l (got box ws.length (keep none (M.setB F.LLK_MBX_RX_OVR true)))))) ∧
    (linkIsUp L link.val = true → (c 5).1 = true → (if link.val = 0 then M.clv.mbx0 else M.clv.mbx1) = some (o, n) → o + n = box →
      (xfLast x = false → exec (.mailboxTransfer l link x) s = .next (s.setLane l (keep (some (o, n + ws.length)) M))) ∧
      (xfLast x = true → M.b F.LLK_MBX_RX_VALID = false →
        exec (.mailboxTransfer l link x) s = .next (s.setLane l (got o (n + ws.length) (keep none M))))) ∧
    (linkIsUp L link.val = true → (c 6).1 = true → exec (.timeTransfer l link x stamp) s = .next (s.setLane l
      (timeIn link.val x stamp.toInt ((s.lane (linkPeer l link.val)).n F.NTE_TIME_STAT_SRC_PORT) (c 6).2)))

/-- SAMPLE and VOTE transfers, and the round's deadlines (R145, R147, R151, R153, R156): the samples and votes of the round
are collected; a member whose sample is missing at the deadline is dropped with source 0x06E and the round goes on without
it; at the vote deadline the round is voted with what has arrived. With no round open a deadline does nothing. Choices of
the model it rests on: log entries 3, 60, 61. -/
def Obligations.RoundsCollectSamplesAndVotes : Prop :=
  ∀ (l : LaneId) (s : State) (link : Fin 2) (x : Xfer),
    let L := s.lane l
    let c1 := checkXfer 1 link.val x L
    let c2 := checkXfer 2 link.val x L
    let V := hear true link.val c2.2
    L.live = true →
    (linkIsUp L link.val = true → c1.1 = true → exec (.sampleTransfer l link x) s = .next (s.withLD l
      (flushReq (sampleIn link.val x c1.2, s.sto)))) ∧
    (linkIsUp L link.val = true → c2.1 = true → V.clv.round = true → V.clv.voteDone = false → (rxV V link.val).done = false →
      V.clv.prov = none → V.tls.reqEnd = none → exec (.voteTransfer l link x) s = .next (s.setLane l (putRxV link.val
        ⟨x.payload, decide (x.payload.length = nVote V), x.aux0, x.aux1, BitVec.ofNat 4 (xfFlags x)⟩ V))) ∧
    (L.clv.round = true → L.clv.prov = none → exec (.sampleDeadline l) s = .next (s.withLD l (flushReq (provStep
      ((otherMembers L).foldl (fun a m => if (rxS a (linkOf a m)).done then a
        else raise 0x06E (a.inc F.CLV_ERR_DROP_CNT)) L), s.sto)))) ∧
    (L.clv.round = true → L.clv.voteDone = false → L.clv.prov.isSome = true →
      exec (.voteDeadline l) s = .next (s.withLD l (flushReq (voteStep L, s.sto)))) ∧
    (L.clv.round = false → L.tls.reqEnd = none → exec (.sampleDeadline l) s = .next s ∧ exec (.voteDeadline l) s = .next s)

/-- The release of the voted vector, formation's wait and re-integration (R146, R160, R166, R167): the release writes the
round's vector once, raises CDSP source 0 (R203), and lets the TIME transfers of the cycle go (R336); FORM_WAIT ends for a lane that is forming; a request of re-integration waits in CLV_CTL; the self-tests
of step 2 make the lane ready. A peer's cross-lane halt request is kept for the next checkpoint (R177). Choices of the model
it rests on: log entries 3, 58, 59. -/
def Obligations.ReleaseFormationAndReintegration : Prop :=
  ∀ (l peer : LaneId) (s : State) (val : Word),
    let L := s.lane l
    let M := checkpointRecord (drain (releaseVoted L))
    let words := (List.range (nVote L)).map (fun i => ((if L.clv.voteDone then nth L.clv.voted i none else none).getD
      (nth L.clv.lastVoted i 0)))
    L.live = true →
    (L.clv.round = true → L.clv.released = false → exec (.voteRel l) s = .next (s.withLD l (pump (timeSend (ntNow M) M, s.sto)))) ∧
    (L.clv.round = false ∨ L.clv.released = true → exec (.voteRel l) s = .next (s.withLD l (pump (L, s.sto)))) ∧
    (∀ A t, (∀ k, k < 2 → linkIsUp A k = true → (peerOf A k).sent = true) → timeSend t A = A) ∧
    (∀ A t, linkIsUp A 0 = true → (peerOf A 0).sent = false → linkIsUp A 1 = false → timeSend t A =
      launch 0 1 (setPeer 0 (fun p => { p with sPrev := p.sLast, sLast := at8 t, sent := true }) A)) ∧
    (forming L = true → exec (.formWaitExpiry l) s = .next (s.setLane l (withClv (fun c => { c with formOver := true }) L))) ∧
    (forming L = false → exec (.formWaitExpiry l) s = .next s) ∧
    (L.clv.round = true → L.clv.released = false → releaseVoted L = cdspIrq 0 (withNte
      (fun n => { n with rel := true, relSeen := [] }) ((List.range (nVote L)).foldl (fun a j => voteDeliver j (nth words j 0) a)
        (withClv (fun c => { c with released := true, lastVoted := words }) (writeWords (votedOff L) words
          (if L.clv.late || !L.clv.voteDone then raise 0x06A (L.inc F.CLV_ERR_LATE_CNT) else L)).2)))) ∧
    (bitAt val 0 = true → exec (.reint l val) s = .next (s.setLane l (L.setB F.CLV_CTL_REINT true))) ∧
    (bitAt val 0 = false → exec (.reint l val) s = .next s) ∧
    (L.n F.CLV_STAT_REINT_STATE = 1 → (∀ r, r < L.n F.BSC_STAT_NSLICE → r ∈ L.bsc.done) →
      exec (.reintBistComplete l) s = .next (s.setLane l (withClv (fun c =>
        { c with reintReady := true, reintAge := 0, rxC0 := default, rxC1 := default }) (L.putN F.CLV_STAT_REINT_STATE 2)))) ∧
    (peer ≠ L.id → exec (.crossLaneHaltRequest l peer) s = .next (s.setLane l
      { L with lsm := { L.lsm with haltSeen := L.lsm.haltSeen ||| laneBit peer } }))

/-- Links and the mailbox (R157, R158, R165): a link that is up goes down with source 0x06C and PLIC source 53 when it loses
its block lock, or after three rounds without a good SAMPLE transfer; a training attempt that succeeds with the right peer
brings it up; a message on a link that is down ends FAULT, ERR_LINK, with source 0x071, and one that has been acknowledged
ends DONE. Choices of the model it rests on: log entries 3, 62, 63. -/
def Obligations.LinksAndMessages : Prop :=
  ∀ (l : LaneId) (s : State) (link : Fin 2) (t : TrainInfo) (r : Run) (bs : List Byte),
    let L := s.lane l
    let q := iovaReadN 3 r.d.ctx r.d.src r.d.length (L, s.sto)
    let D := plicRaise 53 (raise 0x06C (putQuiet link.val 0 (L.setB (F.LLK_LINKl_STAT_UP link.val) false)))
    let up := plicRaise 53 (putQuiet link.val 0 (withClv (fun c =>
      if link.val = 0 then { c with dig0 := t.digest, digDiff0 := false, train0 := 0 }
      else { c with dig1 := t.digest, digDiff1 := false, train1 := 0 })
      ((((L.inc (F.LLK_LINKl_STAT_TRAIN_CNT link.val)).setB (F.LLK_LINKl_STAT_UP link.val) true).setB
        (F.LLK_LINKl_STAT_TRAINED link.val) true).putN (F.LLK_LINKl_STAT_PEER link.val) (laneNo (linkPeer L.id link.val)))))
    L.live = true →
    (linkIsUp L link.val = true → exec (.blockLockLoss l link) s = .next (s.withLD l
      (let d := flushReq (linkDrop link.val L, s.sto)
       if d.1.live then mbLost d else d))) ∧
    (linkIsUp L link.val = true → 4 ≤ quietOf L link.val → exec (.linkDown l link) s = exec (.blockLockLoss l link) s) ∧
    (linkIsUp L link.val = true → quietOf L link.val < 4 → L.tls.reqEnd = none → mbLost (L, s.sto) = (L, s.sto) →
      exec (.linkDown l link) s = .next s) ∧
    (linkIsUp L link.val = true → otherMembers D = [] → linkDrop link.val L = D) ∧
    (linkIsUp L link.val = false → mayTrain L = true → t.letter = linkPeer L.id link.val → substate up ≠ 3 →
      exec (.linkTraining l link (some t)) s = .next (s.setLane l up)) ∧
    (linkIsUp L link.val = false → mayTrain L = true → substate (L.inc (F.LLK_LINKl_STAT_TRAIN_CNT link.val)) ≠ 3 →
      exec (.linkTraining l link none) s = .next (s.setLane l (L.inc (F.LLK_LINKl_STAT_TRAIN_CNT link.val)))) ∧
    (runningOp L 3 0x01 = some r → r.aux ≠ 1 → linkIsUp L (mbLink r) = true → q.1 = .ok bs →
      exec (.mbSend l) s = .next (s.withLD l (setEng 3 { getEng q.2.1 3 with run := some { r with aux := 1 } }
        (launch (mbLink r) (xfers (r.d.length / 4)) q.2.1), q.2.2))) ∧
    (runningOp L 3 0x01 = some r → r.aux ≠ 1 → linkIsUp L (mbLink r) = false →
      exec (.mbSend l) s = .next (s.withLD l (mbFault (finish 3 r errLink stFault 0 (L, s.sto))))) ∧
    (runningOp L 3 0x01 = some r → r.aux = 1 →
      exec (.mailboxAcknowledged l) s = .next (s.withLD l (finish 3 { r with progress := r.d.length } 0 stDone 0 (L, s.sto))))

/-! The control DSP -/

/-- ALU and immediate instructions (R213, R214): where the CDSP issues, the instruction issues and RDST takes the result
that the table gives it; a saturating result outside 32 bits stops at the limit and sets SAT; a form that the table does not
allow is illegal. The table's AOP codes decode to these instructions, reserved codes and non-zero unused fields to none.
Choices of the model it rests on: log entries 66 (bits of IMM beside IMM[4:0]), 67 (what the command of an instruction is).
-/
def Obligations.AluInstructionsGiveTheTablesResults : Prop :=
  ∀ (l : LaneId) (s : State) (rd ra rb : BitVec 4) (imm : Word) (n m : BitVec 6) (x : Int)
    (w : Word64),
    let L := s.lane l
    let dec := fun (op b : Nat) (i : Word) => decDsp l (aluWord op rd.toNat ra.toNat b i)
    let r := rb.toNat
    let a := fun (A : Lane) => dReg A ra.toNat
    let b := fun (A : Lane) => dReg A rb.toNat
    let k := imm.toNat % 32
    let put := fun (f : Lane → Word) => Host.Outcome.next (s.setLane l (issue false (fun A => setD rd.toNat (f A) A) L))
    let sat := fun (f : Lane → Int) => Host.Outcome.next (s.setLane l (issue false (fun A => satD rd.toNat (f A) A) L))
    let bad := Host.Outcome.next (s.setLane l (illegal 0x02A L))
    (dec 0x02 r 0 = some (.add l rd ra rb) ∧ dec 0x03 r 0 = some (.sub l rd ra rb) ∧ dec 0x04 r 0 = some (.adds l rd ra rb) ∧
      dec 0x05 r 0 = some (.subs l rd ra rb) ∧ dec 0x06 0 imm = some (.addi l rd ra imm) ∧ dec 0x07 r 0 = some (.and l rd ra rb) ∧
      dec 0x08 r 0 = some (.or l rd ra rb) ∧ dec 0x09 r 0 = some (.xor l rd ra rb) ∧ dec 0x0A 0 imm = some (.shl l rd ra imm) ∧
      dec 0x0B 0 imm = some (.shls l rd ra imm) ∧ dec 0x0C 0 imm = some (.shra l rd ra imm) ∧
      dec 0x0D 0 imm = some (.shrl l rd ra imm) ∧ dec 0x0E r 0 = some (.min l rd ra rb) ∧ dec 0x0F r 0 = some (.max l rd ra rb) ∧
      dec 0x10 0 0 = some (.abss l rd ra) ∧ dec 0x11 0 0 = some (.negs l rd ra) ∧ dec 0x12 r 0 = some (.selneg l rd ra rb) ∧
      dec 0x13 r 0 = some (.selz l rd ra rb) ∧ dec 0x14 0 imm = some (.clamp l rd ra imm) ∧
      decDsp l (aluWord 0 n.toNat 0 0 imm) = some (.ldi l n imm) ∧ decDsp l (aluWord 1 n.toNat m.toNat 0 0) = some (.mov l n m)) ∧
    (bitsOf64 w 62 2 = 1 → 0x15 ≤ bitsOf64 w 56 6 ∨ bitsOf64 w 32 6 ≠ 0 → decDsp l w = none) ∧
    (bitsOf64 w 62 2 = 1 → 2 ≤ bitsOf64 w 56 6 → 16 ≤ bitsOf64 w 50 6 ∨ 16 ≤ bitsOf64 w 44 6 ∨ 16 ≤ bitsOf64 w 38 6 →
      decDsp l w = none) ∧
    (bitsOf64 w 62 2 = 1 → bitsOf64 w 56 6 ∈ [0, 6, 10, 11, 12, 13, 16, 17, 20] → bitsOf64 w 38 6 ≠ 0 → decDsp l w = none) ∧
    (bitsOf64 w 62 2 = 1 → bitsOf64 w 56 6 ∈ [1, 2, 3, 4, 5, 7, 8, 9, 14, 15, 16, 17, 18, 19] → lo32 w ≠ 0 → decDsp l w = none) ∧
    (bitsOf64 w 62 2 = 1 → bitsOf64 w 56 6 = 0 → bitsOf64 w 44 6 ≠ 0 → decDsp l w = none) ∧
    (bitsOf64 w 62 2 = 1 → bitsOf64 w 56 6 = 1 → bitsOf64 w 38 6 ≠ 0 → decDsp l w = none) ∧
    (-(2 ^ 31) ≤ x → x < 2 ^ 31 → satD rd.toNat x L = setD rd.toNat (BitVec.ofInt 32 x) L) ∧
    (2 ^ 31 ≤ x → satD rd.toNat x L = setD rd.toNat 0x7FFFFFFF (setBank { dspBank L with sat := true } L)) ∧
    (x < -(2 ^ 31) → satD rd.toNat x L = setD rd.toNat 0x80000000 (setBank { dspBank L with sat := true } L)) ∧
    (dspRuns L = true →
    exec (.add l rd ra rb) s = put (fun A => a A + b A) ∧ exec (.sub l rd ra rb) s = put (fun A => a A - b A) ∧
    exec (.addi l rd ra imm) s = put (fun A => a A + imm) ∧
    exec (.adds l rd ra rb) s = sat (fun A => (a A).toInt + (b A).toInt) ∧
    exec (.subs l rd ra rb) s = sat (fun A => (a A).toInt - (b A).toInt) ∧
    exec (.and l rd ra rb) s = put (fun A => a A &&& b A) ∧ exec (.or l rd ra rb) s = put (fun A => a A ||| b A) ∧
    exec (.xor l rd ra rb) s = put (fun A => a A ^^^ b A) ∧
    exec (.shl l rd ra imm) s = put (fun A => a A <<< k) ∧ exec (.shrl l rd ra imm) s = put (fun A => a A >>> k) ∧
    exec (.shra l rd ra imm) s = put (fun A => (a A).sshiftRight k) ∧
    exec (.shls l rd ra imm) s = sat (fun A => (a A).toInt * 2 ^ k) ∧
    exec (.min l rd ra rb) s = put (fun A => if (b A).toInt < (a A).toInt then b A else a A) ∧
    exec (.max l rd ra rb) s = put (fun A => if (a A).toInt < (b A).toInt then b A else a A) ∧
    exec (.abss l rd ra) s = sat (fun A => ((a A).toInt.natAbs : Int)) ∧
    exec (.negs l rd ra) s = sat (fun A => - (a A).toInt) ∧
    exec (.selneg l rd ra rb) s = .next (s.setLane l (issue false (fun A => if (a A).toInt < 0 then setD rd.toNat (b A) A else A) L)) ∧
    exec (.selz l rd ra rb) s = .next (s.setLane l (issue false (fun A => if a A = 0 then setD rd.toNat (b A) A else A) L)) ∧
    (imm.toNat < 2 ^ 31 → exec (.clamp l rd ra imm) s =
      put (fun A => BitVec.ofInt 32 (min (max (a A).toInt (-imm.toInt)) imm.toInt))) ∧
    (2 ^ 31 ≤ imm.toNat → exec (.clamp l rd ra imm) s = bad) ∧
    (n.toNat < 16 → exec (.ldi l n imm) s = .next (s.setLane l (issue false (setD n.toNat imm) L))) ∧
    (dstOk n.toNat = true → n.toNat < 0x18 ∨ 0x30 ≤ n.toNat ∨ imm.toNat < 2 ^ 18 →
      exec (.ldi l n imm) s = .next (s.setLane l (issue false (dstReg n.toNat imm) L))) ∧
    (dstOk n.toNat = false → exec (.ldi l n imm) s = bad) ∧
    (0x18 ≤ n.toNat → n.toNat < 0x30 → 2 ^ 18 ≤ imm.toNat → exec (.ldi l n imm) s = bad) ∧
    (n.toNat < 16 → m.toNat < 16 →
      exec (.mov l n m) s = .next (s.setLane l (issue false (fun A => setD n.toNat (dReg A m.toNat) A) L))) ∧
    (dstOk n.toNat = true → srcOk m.toNat = true → exec (.mov l n m) s =
      .next (s.setLane l (issue false (fun A => dstReg n.toNat (srcReg m.toNat A).1 (srcReg m.toNat A).2) L))) ∧
    (dstOk n.toNat = false ∨ srcOk m.toNat = false → exec (.mov l n m) s = bad))

/-- What an ALU instruction leaves alone (R180, R195, R214). With nothing in flight, no output held, no loop, no repeat and no
control transfer pending, a three-register instruction changes no data register but RDST, no accumulator, pointer or modifier, no
memory, no ring; PC steps by one, and no register field but LDEPTH of CDSP_STAT can change. Choices of the model it rests
on: log entry 67. -/
def Obligations.AluInstructionsChangeOnlyTheirRegister : Prop :=
  ∀ (l : LaneId) (s : State) (rd ra rb : BitVec 4) (imm : Word) (c : Instr),
    let L := s.lane l
    let B := dspBank L
    c ∈ [Instr.add l rd ra rb, .sub l rd ra rb, .addi l rd ra imm, .adds l rd ra rb, .subs l rd ra rb, .and l rd ra rb,
      .or l rd ra rb, .xor l rd ra rb, .shl l rd ra imm, .shrl l rd ra imm, .shra l rd ra imm, .shls l rd ra imm,
      .min l rd ra rb, .max l rd ra rb, .abss l rd ra, .negs l rd ra, .selneg l rd ra rb, .selz l rd ra rb] →
    smSorted L.regs = true → dspQuiet L →
    ∃ t, exec c s = .next t ∧ onlyLane l s t ∧
      (∀ n, n ≠ rd.toNat → nth (dspBank (t.lane l)).d n 0 = nth B.d n 0) ∧
      (dspBank (t.lane l)).aF = B.aF ∧ (dspBank (t.lane l)).aR = B.aR ∧ (dspBank (t.lane l)).pF = B.pF ∧
      (dspBank (t.lane l)).pM = B.pM ∧ (dspBank (t.lane l)).mF = B.mF ∧ (dspBank (t.lane l)).aov = B.aov ∧
      (dspBank (t.lane l)).pc = (B.pc + 1) % 131072 ∧ (t.lane l).mem = L.mem ∧ (t.lane l).ring = L.ring ∧
      (t.lane l).plic = L.plic ∧
      (∀ f : Fld, f.key ≠ F.CDSP_STAT_LDEPTH.key → (t.lane l).fld f = L.fld f)

/-- MAC-pair operations (R211, R181): MPY sets, MAC and MACSU add, MSU subtracts the exact products that MPAIR selects; CLR,
ASR, ASL and LDA act on the accumulators it names; LDA with MPAIR 2 or 3 is illegal. The two moves follow, on the registers
as they were at issue. An accumulator that would leave its 72 bits stops at the limit with its AOV bit set. The table's MOP
codes decode to these instructions, reserved codes to none. Choices of the model it rests on: log entry 67 (what the command
of an instruction is). -/
def Obligations.MacOperationsActOnTheSelectedAccumulators : Prop :=
  ∀ (l : LaneId) (s : State) (g : MacArgs) (mp : BitVec 2) (a c k : BitVec 4) (x y : Move) (su : Bool) (n : Nat) (v : Int)
    (w : Word64),
    let L := s.lane l
    let dec := fun (op : Nat) (m : MacArgs) => decDsp l (macWord op m)
    let go := fun (p q : Move) (f : Lane → Lane) =>
      Host.Outcome.next (s.setLane l (issue (decide (p.kind = .ldc)) (fun A => doMove false q (doMove true p (f A))) L))
    let A := dReg L g.mra.toNat
    let B := dReg L g.mrb.toNat
    let C := dReg L g.mrc.toNat
    let D := dReg L g.mrd.toNat
    (dec 0 ⟨0, 0, 0, 0, 0, x, y⟩ = some (.macPairNop l x y) ∧ dec 1 g = some (.mpy l g) ∧ dec 2 g = some (.mac l g) ∧
      dec 3 g = some (.msu l g) ∧ dec 4 g = some (.macsu l g) ∧ dec 5 ⟨mp, 0, 0, 0, 0, x, y⟩ = some (.clr l mp x y) ∧
      dec 6 ⟨mp, k, 0, 0, 0, x, y⟩ = some (.asr l mp k x y) ∧ dec 7 ⟨mp, k, 0, 0, 0, x, y⟩ = some (.asl l mp k x y) ∧
      dec 8 ⟨mp, a, 0, c, 0, x, y⟩ = some (.lda l mp a c x y)) ∧
    (g.mrb ≠ 0 ∨ g.mrc ≠ 0 ∨ g.mrd ≠ 0 → dec 6 g = none ∧ dec 7 g = none) ∧
    (bitsOf64 w 62 2 = 0 → 9 ≤ bitsOf64 w 57 5 → decDsp l w = none) ∧
    (dspRuns L = true → moveOk true x = true → moveOk false y = true → moveOk true g.x = true → moveOk false g.y = true →
    exec (.macPairNop l x y) s = go x y id ∧
    exec (.mpy l g) s = go g.x g.y (fun M => (macTerms false M g).foldl (fun m t => setAcc t.1 t.2 m) M) ∧
    exec (.mac l g) s = go g.x g.y (fun M => (macTerms false M g).foldl (fun m t => setAcc t.1 (accF M t.1 + t.2) m) M) ∧
    exec (.msu l g) s = go g.x g.y (fun M => (macTerms false M g).foldl (fun m t => setAcc t.1 (accF M t.1 - t.2) m) M) ∧
    exec (.macsu l g) s = go g.x g.y (fun M => (macTerms true M g).foldl (fun m t => setAcc t.1 (accF M t.1 + t.2) m) M) ∧
    exec (.clr l mp x y) s = go x y (fun M => (pairAccs mp.toNat).foldl (fun m i => setAcc i 0 m) M) ∧
    exec (.asr l mp k x y) s = go x y (fun M => (pairAccs mp.toNat).foldl (fun m i => setAcc i (accF M i / 2 ^ k.toNat) m) M) ∧
    exec (.asl l mp k x y) s = go x y (fun M => (pairAccs mp.toNat).foldl (fun m i => setAcc i (accF M i * 2 ^ k.toNat) m) M) ∧
    (mp = 0 → exec (.lda l mp a c x y) s = go x y (fun M => setAcc 1 ((dReg M c.toNat).toInt * 2 ^ 31)
      (setAcc 0 ((dReg M a.toNat).toInt * 2 ^ 31) M))) ∧
    (mp = 1 → exec (.lda l mp a c x y) s = go x y (fun M => setAcc 3 ((dReg M c.toNat).toInt * 2 ^ 31)
      (setAcc 2 ((dReg M a.toNat).toInt * 2 ^ 31) M))) ∧
    (mp = 2 ∨ mp = 3 → exec (.lda l mp a c x y) s = .next (s.setLane l (illegal 0x02A L)))) ∧
    (pairAccs 0 = [0, 1] ∧ pairAccs 1 = [2, 3] ∧ pairAccs 2 = [0, 1, 2, 3] ∧ pairAccs 3 = [0, 1, 2, 3]) ∧
    (g.mpair = 0 → macTerms su L g = [(0, prod su A B), (1, prod su C D)]) ∧
    (g.mpair = 1 → macTerms su L g = [(2, prod su A B), (3, prod su C D)]) ∧
    (g.mpair = 2 → macTerms su L g = [(0, prod su A B), (1, prod su C D), (2, prod su A D), (3, prod su C B)]) ∧
    (g.mpair = 3 → macTerms su L g = [(0, prod su A B + prod su C D), (1, prod su C B - prod su A D)]) ∧
    prod false A B = A.toInt * B.toInt ∧ prod true A B = A.toInt * (B.toNat : Int) ∧
    (acc72 v).1.toInt = max (-(2 ^ 71)) (min v (2 ^ 71 - 1)) ∧
    ((acc72 v).2 = true ↔ v < -(2 ^ 71) ∨ 2 ^ 71 - 1 < v) ∧
    (n < (dspBank L).aF.length → accF (setAcc n v L) n = max (-(2 ^ 71)) (min v (2 ^ 71 - 1)))

/-- Moves (R187, R188, R201, R202, R207, R212): each move command issues its one move; a load answers the word at its pointer two issues
later, a pair takes an even word and the next, a store writes its register, STA the extraction of its accumulator, LDC reads
P memory on the X bus; an address outside the memory loads 0, suppresses a store, sets MERR on a load and raises 0x02C. A
store is held for two cycles while the copies are compared, and a load sees it meanwhile (R207). While a slice of the CDSP's
class runs, pointers are only added to (R202). Choices of the model it rests on: log entries 67, 70. -/
def Obligations.MovesLoadStoreAndUpdatePointers : Prop :=
  ∀ (l : LaneId) (s : State) (r : BitVec 4) (p u : BitVec 3) (acc : BitVec 2) (A A1 : Lane) (isX : Bool)
    (bs : List Byte) (a n k : Nat) (f : Nat → Byte),
    let L := s.lane l
    let base := if isX then xBase else yBase
    let one := fun (x : Bool) (k : MoveKind) (q : BitVec 4) =>
      Host.Outcome.next (s.setLane l (issue (decide (k = .ldc)) (doMove x ⟨k, q, p, u⟩) L))
    let W := (nth (dspBank A).pM p.toNat 0).toNat
    dspRuns L = true → u ≠ 7 →
    exec (.ld l .x r p u) s = one true .ld r ∧ exec (.ld l .y r p u) s = one false .ld r ∧
    (r.toNat % 2 = 0 → exec (.ldp l .x r p u) s = one true .ldp r ∧ exec (.ldp l .y r p u) s = one false .ldp r) ∧
    exec (.st l .x r p u) s = one true .st r ∧ exec (.st l .y r p u) s = one false .st r ∧
    (r.toNat % 2 = 0 → exec (.stp l .x r p u) s = one true .stp r ∧ exec (.stp l .y r p u) s = one false .stp r) ∧
    (r.toNat % 2 = 1 → exec (.stp l .x r p u) s = .next (s.setLane l (illegal 0x02A L)) ∧
      exec (.ldp l .y r p u) s = .next (s.setLane l (illegal 0x02A L))) ∧
    exec (.sta l .x acc p u) s = one true .sta (acc.setWidth 4) ∧ exec (.sta l .y acc p u) s = one false .sta (acc.setWidth 4) ∧
    exec (.ldc l r p u) s = one true .ldc r ∧
    exec (.ld l .x r p 7) s = .next (s.setLane l (illegal 0x02A L)) ∧
    (W < 131072 → dspBytes (base + 4 * W) 4 A = (some bs, A1) →
      doMove isX ⟨.ld, r, p, 0⟩ A = flyTo 0 r.toNat ((leWord bs).setWidth 72) 2 A1) ∧
    (131072 ≤ W → doMove isX ⟨.ld, r, p, 0⟩ A = flyTo 0 r.toNat 0 2
      (raise 0x02C ((setBank { dspBank A with merr := true } A).inc F.CDSP_ERR_ADDR_CNT))) ∧
    (W < 131072 → (isX = true → 8 ≤ W) → doMove isX ⟨.st, r, p, 0⟩ A =
      holdOut (.store (base + 4 * W) (wordBytes (dReg A r.toNat))) A) ∧
    (131072 ≤ W ∨ isX = true ∧ W < 8 → doMove isX ⟨.st, r, p, 0⟩ A = raise 0x02C (A.inc F.CDSP_ERR_ADDR_CNT)) ∧
    (dspBytes (pBase + 4 * W) 4 A = (some bs, A1) →
      doMove true ⟨.ldc, r, p, 0⟩ A = flyTo 0 r.toNat ((leWord bs).setWidth 72) 2 A1) ∧
    (A.dsp.out = [] → dspBytes a n A = readBytes a n A) ∧
    ((∀ k, k < n → heldByte A (a + k) = some (f k)) → dspBytes a n A = (some ((List.range n).map f), A)) ∧
    (k < bs.length → heldByte (holdOut (.store a bs) A) (a + k) = some (nth bs k 0)) ∧
    (k < a ∨ a + bs.length ≤ k → heldByte (holdOut (.store a bs) A) k = heldByte A k) ∧
    (A.dsp.out = [(.store a bs, 2)] → outCycle 1 A = { A with dsp := { A.dsp with out := [(.store a bs, 1)] } } ∧
      outCycle 2 A = (writeBytes a bs { A with dsp := { A.dsp with out := [] } }).2) ∧
    (A.dsp.out = [(.store a bs, 1)] → outCycle 1 A = (writeBytes a bs { A with dsp := { A.dsp with out := [] } }).2) ∧
    (aguNow L = true → nextPtr L p.toNat 1 = nth (dspBank L).pM p.toNat 0 + 1) ∧
    (L.b F.BSC_STAT_BUSY = true → L.n F.BSC_STAT_CLASS = 0 → aguNow L = true) ∧
    (nth L.dsp.lM p.toNat 0 = 0 → nextPtr L p.toNat 1 = nth (dspBank L).pM p.toNat 0 + 1) ∧
    (aguNow L = false → (nth L.dsp.lM p.toNat 0).toNat = 10 → nth L.dsp.bM p.toNat 0 = 100 →
      nth (dspBank L).pM p.toNat 0 = 109 → nextPtr L p.toNat 1 = 100)

/-- Control instructions (R195 to R198, R209, R215): transfers have two delay slots, CALL pushes the index behind them and
takes at most eight levels, LOOP opens a level of at most two, REP repeats the next instruction, TEND and RTI end a task and
a handler after their delay slots, DBELL, held like a store (R207), sets its code and raises PLIC source 54, BKPT asks for a halt where debug is
allowed; what is illegal raises 0x02A, and a stack fault 0x02B in its place. Choices of the model it rests on: log entries
67, 68. -/
def Obligations.ControlInstructionsSteerTheProgram : Prop :=
  ∀ (l : LaneId) (s : State) (t : BitVec 17) (k : BitVec 16) (code : Byte) (top : Nat) (rest : List Nat),
    let L := s.lane l
    let f := L.dsp.flow
    let B := dspBank L
    let bad := Host.Outcome.next (s.setLane l (illegal 0x02A L))
    let slots := fun (kind target : Nat) (A : Lane) => setBank { dspBank A with redir := some ⟨2, kind, target⟩ } A
    smSorted L.regs = true → dspRuns L = true →
    exec (.cdspNop l) s = .next (s.setLane l (issue false id L)) ∧
    (B.redir = none → exec (.jmp l t) s = .next (s.setLane l (issue false (slots 0 t.toNat) L))) ∧
    (B.redir ≠ none → exec (.jmp l t) s = bad ∧ exec (.call l t) s = bad ∧ exec (.ret l) s = bad ∧ exec (.loop l k t) s = bad ∧
      exec (.rep l k) s = bad ∧ exec (.tend l) s = bad ∧ exec (.rti l) s = bad) ∧
    (B.redir = none → exec (.call l t) s = .next (s.setLane l (issue false (dspCall t.toNat) L))) ∧
    (B.redir = none → exec (.ret l) s = .next (s.setLane l (issue false dspRet L))) ∧
    (f.stack.length < 8 → dspCall t.toNat L =
      slots 0 t.toNat (setFlow { f with stack := ((B.pc + 3) % 131072) :: f.stack } L)) ∧
    (8 ≤ f.stack.length → dspCall t.toNat L = illegal 0x02B L) ∧
    (f.stack = [] → dspRet L = illegal 0x02B L) ∧
    (f.stack = top :: rest → dspRet L = slots 0 top (setFlow { f with stack := rest } L)) ∧
    (B.redir = none → k ≠ 0 → f.loops.length < 2 → ∃ u, exec (.loop l k t) s = .next (s.setLane l u) ∧
      u.dsp.flow.loops = f.loops ++ [⟨(B.pc + 1) % 131072, t.toNat, k.toNat⟩] ∧ (dspBank u).d = B.d ∧ u.mem = L.mem) ∧
    (k = 0 ∨ 2 ≤ f.loops.length → exec (.loop l k t) s = bad) ∧
    (B.redir = none → k ≠ 0 → k.toNat ≤ 4096 → ∃ u, exec (.rep l k) s = .next (s.setLane l u) ∧
      u.dsp.flow.rep = k.toNat ∧ u.dsp.flow.loops = f.loops ∧ u.mem = L.mem) ∧
    (k = 0 ∨ 4096 < k.toNat → exec (.rep l k) s = bad) ∧
    (B.redir = none → L.n F.CDSP_STAT_STATE = 1 → exec (.tend l) s = .next (s.setLane l (issue false (slots 1 0) L))) ∧
    (L.n F.CDSP_STAT_STATE = 2 → exec (.tend l) s = bad) ∧
    (B.redir = none → L.n F.CDSP_STAT_STATE = 2 → exec (.rti l) s = .next (s.setLane l (issue false (slots 2 0) L))) ∧
    (L.n F.CDSP_STAT_STATE = 1 → exec (.rti l) s = bad) ∧
    exec (.dbell l code) s = .next (s.setLane l (issue false (holdOut (.bell code)) L)) ∧
    outOne L (.bell code) = plicRaise 54 ((L.putN F.CDSP_DBOUT_CODE code.toNat).inc F.CDSP_DBOUT_COUNT) ∧
    (exec (.bkpt l) s = .next (s.setLane l (issue false (fun A =>
      if debugAllowed A then { A with dsp := { A.dsp with haltReq := true } } else A) L))) ∧
    (B.redir = none → L.dsp.haltReq = false → f.rep ≤ 1 → f.loops = [] → B.fly = [] → L.dsp.out = [] →
      (dspBank (issue false id L)).pc = (B.pc + 1) % 131072 ∧ (dspBank (issue false id L)).cyc = B.cyc + 1)

/-- Events of the CDSP (R188, R193, R203 to R209): an expired budget and an illegal instruction end what runs with their END
code, their count and their source; an enabled interrupt is taken lowest number first; a doorbell writes X word 4; a
lockstep difference stops both copies; HALT and RESUME act where debug is allowed, and STEP does nothing to a CDSP that is
not halted. Choices of the model it rests on: log entries 3, 67, 69. -/
def Obligations.CdspEventsStopStartAndInterrupt : Prop :=
  ∀ (l : LaneId) (s : State) (v : Word) (n : Nat),
    let L := s.lane l
    let L0 := { L with dsp := { L.dsp with out := [] } }
    let T := taskEnd 4 L0
    let R := raise 0x02A (L.inc F.CDSP_ERR_ILL_CNT)
    let stop := fun (A : Lane) => plicRaise 55 (raise 0x028 ((A.setB F.CDSP_STAT_LSTOP true).putN F.CDSP_STAT_STATE 3))
    L.live = true →
    (taskOn L = true → budgetOut L = true → L.b F.CDSP_STAT_HALTED = false → exec (.cdspOverrun l) s =
      .next (s.setLane l (plicRaise 55 (raise 0x029 ((taskEnd 2 L).inc F.CDSP_ERR_OVR_CNT))))) ∧
    (taskOn L = false ∨ budgetOut L = false → exec (.cdspOverrun l) s = .next s) ∧
    ((taskStart v.toNat n L).dsp.budget = some n) ∧ (budgetOut L = true ↔ L.dsp.budget = some 0) ∧
    (L.dsp.budget = some n → L.dsp.out = [] → (dspCycle 1 L).dsp.budget = some (n - 1)) ∧
    (dspRuns L = true → taskOn R = true → exec (.illegalInstruction l) s = .next (s.setLane l (plicRaise 55 (taskEnd 3 R)))) ∧
    (dspRuns L = true → taskOn R = false → exec (.illegalInstruction l) s = .next (s.setLane l (plicRaise 55
      ((setFlow default ((landDue true (outCycle 2 R)).putN F.CDSP_STAT_STATE 0)).setB F.CDSP_STAT_BANK false)))) ∧
    (dspRuns L = false → exec (.illegalInstruction l) s = .next s) ∧
    (exec (.cdspDb l v) s = .next (s.setLane l (cdspIrq 5 (writeW (xBase + 16) (toW (v.toNat % 65536)) L).2))) ∧
    (L.b F.CDSP_STAT_LSTOP = false → taskOn L0 = true → exec (.cdspLockstep l) s = .next (s.setLane l (stop T))) ∧
    (L.b F.CDSP_STAT_LSTOP = false → taskOn L0 = false → exec (.cdspLockstep l) s = .next (s.setLane l (stop L0))) ∧
    (L.b F.CDSP_STAT_LSTOP = true → exec (.cdspLockstep l) s = .next s) ∧
    (debugAllowed L = true → L.b F.CDSP_STAT_HALTED = false → L.b F.CDSP_STAT_LSTOP = false → (dspBank L).redir = none →
      exec (.cdspHalt l) s = .next (s.setLane l (haltNow L))) ∧
    (debugAllowed L = false → exec (.cdspHalt l) s = .next s ∧ exec (.cdspResume l) s = .next s ∧ exec (.cdspStep l) s = .next s) ∧
    (debugAllowed L = true → L.b F.CDSP_STAT_HALTED = true → ∃ u, exec (.cdspResume l) s = .next (s.setLane l u) ∧
      u.mem = L.mem ∧ u.dsp = L.dsp ∧ u.regs = ((L.setB F.CDSP_STAT_HALTED false).setB F.CDSP_DBG_CTL_HALTED false).regs) ∧
    (L.b F.CDSP_STAT_HALTED = false → exec (.cdspStep l) s = .next s) ∧
    (debugAllowed L = true → L.b F.CDSP_STAT_HALTED = true → L.n F.CDSP_STAT_STATE = 1 →
      (readD (pBase + 8 * (dspBank L).pc) (L.setB F.CDSP_STAT_HALTED false)).1 = none →
      exec (.cdspStep l) s = .next (s.setLane l ((illegal 0x02A
        (readD (pBase + 8 * (dspBank L).pc) (L.setB F.CDSP_STAT_HALTED false)).2).setB F.CDSP_STAT_HALTED true))) ∧
    (∀ (w : Word64) (M : Lane), debugAllowed L = true → L.b F.CDSP_STAT_HALTED = true → L.n F.CDSP_STAT_STATE = 1 →
      readD (pBase + 8 * (dspBank L).pc) (L.setB F.CDSP_STAT_HALTED false) = (some w, M) → decDsp l w = some (.cdspNop l) →
      dspRuns M = true → exec (.cdspStep l) s = .next (s.setLane l
        (((issue false id M).setB F.CDSP_STAT_HALTED true).setB F.CDSP_DBG_CTL_HALTED true))) ∧
    (irqNext L = none → exec (.cdspInterruptEntry l) s = .next s) ∧
    (irqNext L = some n → L.n F.CDSP_STAT_STATE = 0 → L.b F.CDSP_STAT_HALTED = false → L.b F.CDSP_STAT_LSTOP = false →
      exec (.cdspInterruptEntry l) s = .next (s.setLane l (irqEntry L)) ∧
      (irqEntry L).dsp.fromIdle = true ∧ (irqEntry L).dsp.saved = none ∧ (L.dsp.out = [] → (irqEntry L).mem = L.mem)) ∧
    (smSorted L.regs = true → (showBlock 8 L s.sto).b F.CDSP_DB_PEND = L.bit F.CDSP_STAT_IRQ_PEND 5) ∧
    (irqNext L = some n → n < 8 ∧ L.bit F.CDSP_STAT_IRQ_PEND n = true ∧ L.bit F.CDSP_CFG_IEN n = true ∧
      ∀ m, m < n → (L.bit F.CDSP_STAT_IRQ_PEND m && L.bit F.CDSP_CFG_IEN m) = false)

/-! Loop engine, converters, motor engines, PWM, valves, interlock, chopper and GPIO -/

/-- Converters and the sticky flags of the loop engine (R220, R233, R246, R271): a completed conversion writes VALID, the
code and the number of its sequence, a lost one is counted and raises 0x08E and PLIC source 66 (R53); a completed sequence steps its count and clears
BUSY; a write to LPE_SATn or LPE_TRIPn clears the bits named and no other, where memory has no error. Choices of the model it rests on: log entries 3, 71. -/
def Obligations.ConversionsAndLoopFlags : Prop :=
  ∀ (l : LaneId) (s : State) (p : Fin 2) (n : Fin 33) (c : BitVec 14) (i : Fin 2) (v : Word),
    let L := s.lane l
    let q := if p = 0 then F.ADC_SEQCNT_CNT0 else F.ADC_SEQCNT_CNT1
    let stat := fun (b : Nat) => slotSt (32 * i.val + b) + 24
    let hit : Prop := L.live = true ∧ L.out.motStopped = false ∧ L.bit F.ADC_STAT_BUSY p.val = true
    (hit → (pairOf L p.val).ins.contains n.val = true →
      exec (.adcConversionComplete l p n none) s =
        .next (s.setLane l (plicRaise 66 (raise 0x08E (L.inc F.ADC_ERR_CONV_CNT))))) ∧
    (hit → (pairOf L p.val).ins.contains n.val = true → n ≠ 5 → n ≠ 12 → (n.val < 14 ∨ 21 < n.val) →
      pepper 0xB n.val (fun _ => true) L = (none, L) → smSorted L.regs = true →
      ∃ t, exec (.adcConversionComplete l p n (some c)) s = .next t ∧ onlyLane l s t ∧
        (t.lane l).n (F.ADC_RESn_CODE n.val) = c.toNat ∧ (t.lane l).b (F.ADC_RESn_VALID n.val) = true ∧
        (t.lane l).n (F.ADC_RESn_TAG n.val) = (L.n q + 1) % 65536 ∧ (t.lane l).mem = L.mem ∧
        (t.lane l).lpe = { L.lpe with conv := setNth L.lpe.conv n.val (nth L.lpe.conv n.val 0 + 1) } ∧
        (∀ f : Fld, f.addr ≠ (F.ADC_RESn_CODE n.val).addr → f.lo < 32 → (t.lane l).fld f = L.fld f)) ∧
    (¬ hit → ∀ o, exec (.adcConversionComplete l p n o) s = .next s) ∧
    (hit → (pairOf L p.val).irq = false → exec (.adcSequenceComplete l p) s =
      .next (s.setLane l (setPair p.val default ((L.setBit F.ADC_STAT_BUSY p.val false).incMod q)))) ∧
    (hit → (pairOf L p.val).irq = true → exec (.adcSequenceComplete l p) s = .next (s.setLane l
      (cdspIrq (1 + p.val) (plicRaise 65 (setPair p.val default ((L.setBit F.ADC_STAT_BUSY p.val false).incMod q)))))) ∧
    (¬ hit → exec (.adcSequenceComplete l p) s = .next s) ∧
    (L.live = true → smSorted L.regs = true → memWf L.mem = true → L.upsets = [] → L.b F.PPR_CTL_ARMED = false →
      ∃ t, exec (.lpeSat l i v) s = .next t ∧ onlyLane l s t ∧
      (t.lane l).fld (F.LPE_SATn_SAT i.val) = L.fld (F.LPE_SATn_SAT i.val) &&& ~~~ v ∧
      (∀ b, b < 32 → v.getLsbD b = true → (t.lane l).rdW (stat b) = L.rdW (stat b) &&& 0xFFFFFFF0) ∧
      (∀ a, (∀ b, b < 32 → v.getLsbD b = true → a < stat b ∨ stat b + 4 ≤ a) → (t.lane l).rdB a = L.rdB a) ∧
      (∀ f : Fld, f.key ≠ (F.LPE_SATn_SAT i.val).key → (t.lane l).fld f = L.fld f)) ∧
    (L.live = true → smSorted L.regs = true → memWf L.mem = true → L.upsets = [] → L.b F.PPR_CTL_ARMED = false →
      ∃ t, exec (.lpeTrip l i v) s = .next t ∧ onlyLane l s t ∧
      (t.lane l).fld (F.LPE_TRIPn_TRIP i.val) = L.fld (F.LPE_TRIPn_TRIP i.val) &&& ~~~ v ∧
      (∀ b, b < 32 → v.getLsbD b = true → (t.lane l).rdW (stat b) = L.rdW (stat b) &&& 0xFFFF007F) ∧
      (∀ a, (∀ b, b < 32 → v.getLsbD b = true → a < stat b ∨ stat b + 4 ≤ a) → (t.lane l).rdB a = L.rdB a) ∧
      (∀ f : Fld, f.key ≠ (F.LPE_TRIPn_TRIP i.val).key → (t.lane l).fld f = L.fld f))

/-- Events of a motor engine (R257 to R271). An engine that holds no tables ignores every one. With table record `r` read
(state M): a regime switch enters the regime of the first transition of R257 that holds, a capture that runs out goes on to
CAP_HFI, the settled injection begins the polarity test, recovery restarts capture at most three times, missing steps put a
driven engine into SAFE_OFF, an overcurrent into ASC, or all off where ASC is impossible, a diverged observer and a low link are
reported. An engine that is forced reports what it meets and keeps its state. Choices of the model it rests on: log entries 3,
74, 75. -/
def Obligations.EngineEventsActByRegime : Prop :=
  ∀ (l : LaneId) (s : State) (e : Fin 2) (r : List Word) (M : Lane) (t : Nat × Nat × Bool),
    let L := s.lane l
    let put := fun (A : Lane) => Host.Outcome.next (s.setLane l (meFlush A))
    let m := meOf M e.val
    let forced : Prop := M.b (F.MEe_STAT_FORCED e.val) = true
    let S3 := meFault e.val 3 (setRegime e.val 8 ((M.setB (F.MEe_STAT_CHOP_REQ e.val) false).setB (F.MEe_STAT_RAMP e.val) false))
    let oc (lost : Bool) := Lane.inc (setMe e.val { m with ocRun := 0, ascLost := m.ascLost || lost } M) (F.MEe_ERR_OC_CNT e.val)
    let O0 := meFault e.val 0 (oc false)
    let asc : Lane := (setMe e.val { meOf O0 e.val with ladder := false, ocRun := 0, inj1 := 0, inj2 := 0 } O0).setB
      (F.MEe_STAT_CHOP_REQ e.val) false
    (L.b (F.MEe_STAT_LOADED e.val) = false → ∀ c ∈ [Instr.regimeSwitch l e,
      .captureTimeout l e, .hfiSettleEnd l e, .ascRecovery l e, .stepMissing l e, .overcurrent l e, .obsDiverge l e, .vdcLow l e],
      exec c s = .next s) ∧
    (L.live = true → L.b (F.MEe_STAT_LOADED e.val) = true → meTable e.val L = (some r, M) →
      ((transitions e.val r M).find? (fun x => x.2.2) = some t → exec (.regimeSwitch l e) s = put (enterDriven e.val t.1 M)) ∧
      ((transitions e.val r M).find? (fun x => x.2.2) = none → exec (.regimeSwitch l e) s = put M) ∧
      (meReg e.val M = 1 → m.capN < tNCap r → exec (.captureTimeout l e) s = put (startHfi e.val M)) ∧
      (meReg e.val M ≠ 1 ∨ tNCap r ≤ m.capN → exec (.captureTimeout l e) s = put M) ∧
      (meReg e.val M = 2 → m.hfiPhase = 0 → 256 ≤ m.hfiStep → exec (.hfiSettleEnd l e) s =
        put (setMe e.val { m with hfiPhase := 1, hfiStep := 0 } M)) ∧
      (meReg e.val M ≠ 2 ∨ m.hfiPhase ≠ 0 ∨ m.hfiStep < 256 → exec (.hfiSettleEnd l e) s = put M) ∧
      (forced → exec (.ascRecovery l e) s = put M) ∧
      (¬ forced → meReg e.val M = 7 → m.ladder = true → m.exhausted = false → (meScale e.val 5 M).v < (tq r 37).v →
        (meW e.val M).abs.v < (tq r 38).v →
        (meRun e.val M = false → exec (.ascRecovery l e) s = put (meOff e.val M)) ∧
        (meRun e.val M = true → M.n (F.MEe_STAT_REC_CNT e.val) < 3 → exec (.ascRecovery l e) s =
          put (meEvent e.val 4 (startCap e.val 0 (M.inc (F.MEe_STAT_REC_CNT e.val))))) ∧
        (meRun e.val M = true → 3 ≤ M.n (F.MEe_STAT_REC_CNT e.val) → exec (.ascRecovery l e) s = put M)) ∧
      (2 ≤ meReg e.val M → meReg e.val M ≤ 6 →
        (forced → exec (.stepMissing l e) s = put (meFault e.val 3 M)) ∧
        (¬ forced → ascBlocked e.val M = false ∨ S3.b (F.MEe_STAT_FORCED e.val) = true → exec (.stepMissing l e) s = put S3) ∧
        (¬ forced → ascBlocked e.val M = true → S3.b (F.MEe_STAT_FORCED e.val) = false →
          exec (.stepMissing l e) s = put (meFault e.val 9 S3))) ∧
      (7 ≤ meReg e.val M ∨ meReg e.val M < 2 → exec (.stepMissing l e) s = put M) ∧
      (ocNow r (phases e.val M) = true →
        (meReg e.val M = 7 → exec (.overcurrent l e) s = put (meFault e.val 9 (meFault e.val 0 (setRegime e.val 8 (oc true))))) ∧
        (meReg e.val M = 8 → exec (.overcurrent l e) s = put O0) ∧
        (meReg e.val M ≠ 7 → meReg e.val M ≠ 8 →
          (O0.b (F.MEe_STAT_FORCED e.val) = true → exec (.overcurrent l e) s = put O0) ∧
          (O0.b (F.MEe_STAT_FORCED e.val) = false → ascBlocked e.val O0 = false → exec (.overcurrent l e) s =
            put (meEvent e.val 3 (setRegime e.val 7 asc))) ∧
          (O0.b (F.MEe_STAT_FORCED e.val) = false → ascBlocked e.val O0 = true → exec (.overcurrent l e) s =
            put (meFault e.val 9 (setRegime e.val 8 asc))))) ∧
      (ocNow r (phases e.val M) = false → exec (.overcurrent l e) s = put M) ∧
      (obsDiverged e.val r M = true → exec (.obsDiverge l e) s = put (meFault e.val 4 (setMe e.val { m with obsSaid := true } M))) ∧
      (obsDiverged e.val r M = false → exec (.obsDiverge l e) s = put M) ∧
      ((meScale e.val 5 M).v < (tq r 40).v → exec (.vdcLow l e) s =
        put (meFault e.val 11 (setMe e.val { m with vlowSaid := true } M))) ∧
      ((tq r 40).v ≤ (meScale e.val 5 M).v → exec (.vdcLow l e) s = put M))

/-- Commits (R274, R277, R279 to R281): a core's commit of a generator that the VDU owns is ignored and counted; one with a
period outside R274 sets RANGE_ERR, one that STRICT forbids sets PAIR_ERR, both counted and raised; another takes every
shadow as the committed stage, clears the written bits and is pending; with PAIRING = 1 a compare not written with the
period is rescaled. Choices of the model it rests on: log entry 77. -/
def Obligations.CommitsAreCheckedThenTaken : Prop :=
  ∀ (l : LaneId) (s : State) (n : Fin 3) (c a b : Nat),
    let L := s.lane l
    let M := scaleShadow n.val L
    L.live = true →
    (L.b (F.PWMn_CFG_SRC n.val) = true → exec (.commit l n) s = .next (s.setLane l (L.inc (F.PWMn_ERR_IGN_CNT n.val)))) ∧
    (L.b (F.PWMn_CFG_SRC n.val) = false → rangeOkPwm (shadowOf n.val L) = false → exec (.commit l n) s = .next (s.setLane l
      (raise (0x0A0 + n.val) ((L.setB (F.PWMn_STAT_RANGE_ERR n.val) true).inc (F.PWMn_ERR_REF_CNT n.val))))) ∧
    (L.b (F.PWMn_CFG_SRC n.val) = false → rangeOkPwm (shadowOf n.val L) = true → L.b (F.PWMn_CFG_PAIRING n.val) = false →
      strictOk n.val L = false → exec (.commit l n) s = .next (s.setLane l
        (raise (0x0A0 + n.val) ((L.setB (F.PWMn_STAT_PAIR_ERR n.val) true).inc (F.PWMn_ERR_REF_CNT n.val))))) ∧
    (L.b (F.PWMn_CFG_SRC n.val) = false → rangeOkPwm (shadowOf n.val L) = true →
      L.b (F.PWMn_CFG_PAIRING n.val) = true ∨ strictOk n.val L = true → smSorted L.regs = true → n.val < L.out.pwm.length →
      ∃ t, exec (.commit l n) s = .next t ∧ onlyLane l s t ∧ (genOf (t.lane l) n.val).com = shadowOf n.val M ∧
        (genOf (t.lane l) n.val).act = (genOf L n.val).act ∧ (t.lane l).b (F.PWMn_STAT_PENDING n.val) = true ∧
        (t.lane l).n (F.PWMn_WSC_PER n.val) = 0 ∧ (t.lane l).n (F.PWMn_WSC_CMP n.val) = 0 ∧
        (t.lane l).n (F.PWMn_WSC_CH n.val) = 0 ∧ (t.lane l).mem = L.mem) ∧
    (L.b (F.PWMn_WSC_PER n.val) = true → (strictOk n.val L = true ↔ ∀ x ∈ outWsc n.val L, x = true)) ∧
    (L.b (F.PWMn_WSC_PER n.val) = false → (strictOk n.val L = true ↔ ∀ x ∈ outWsc n.val L, ∀ y ∈ outWsc n.val L, x = y)) ∧
    (L.b (F.PWMn_CFG_PAIRING n.val) = false → M = L) ∧
    (0 < a → c ≤ a → rescale c a b ≤ b) ∧ (0 < a → rescale c a a = min c a)

/-- PWM events (R274, R276, R283, R286, R288, R289): at a reload edge a pending commit becomes active and CUR_EPOCH steps;
PERIOD and CMPk events show and interrupt as configured; the first edge with EN = 1 is a reload edge; a stopped clock holds
every ball at SAFE and the chopper's gate off, its return raises 0x0A6; clearing OC of a channel forms the enables anew. The
balls of a lane that has not been released are low (R474). Choices of the model it rests on: log entries 3, 76, 78, 81. -/
def Obligations.GeneratorsReloadAndStop : Prop :=
  ∀ (l : LaneId) (s : State) (n : Fin 3) (k : Fin 6) (ch : Fin 8) (i : Nat),
    let L := s.lane l
    let g := genOf L n.val
    let runs : Prop := L.live = true ∧ L.out.motStopped = false
    let started (m : Nat) (A : Lane) := setGen m { genOf A m with endOn := 0 } A
    (runs → L.b (F.PWMn_CFG_EN n.val) = true → smSorted L.regs = true → n.val < L.out.pwm.length →
      L.fld (F.PWMn_EVCFG_IRQ n.val) = 0 → L.bit (F.PWMn_EVCFG_TRG n.val) 0 = false →
      ∃ t, exec (.pwmReload l n) s = .next t ∧ onlyLane l s t ∧ (t.lane l).n (F.PWMn_CNT_CNT n.val) = 0 ∧
        (t.lane l).n (F.PWMn_STAT_CUR_EPOCH n.val) = (L.n (F.PWMn_STAT_CUR_EPOCH n.val) + 1) % 2 ^ (F.PWMn_STAT_CUR_EPOCH n.val).w ∧
        (L.b (F.PWMn_STAT_PENDING n.val) = true → (genOf (t.lane l) n.val).act = g.com ∧
          (t.lane l).b (F.PWMn_STAT_PENDING n.val) = false) ∧
        (L.b (F.PWMn_STAT_PENDING n.val) = false → (genOf (t.lane l) n.val).act = g.act) ∧
        (genOf (t.lane l) n.val).nextPer = none ∧ (t.lane l).mem = L.mem) ∧
    (runs → L.b (F.PWMn_CFG_EN n.val) = true → exec (.pwmReload l n) s = .next (s.setLane l (reload n.val L))) ∧
    (runs → L.b (F.PWMn_CFG_EN n.val) = true → exec (.pwmPeriodEvent l n) s =
      .next (s.setLane l (pwmEvent n.val 1 (setCount n.val (g.curPer - 1) L)))) ∧
    (runs → L.b (F.PWMn_CFG_EN n.val) = true → nth g.act.cmp k.val 0 < g.act.per → nth g.act.cmp k.val 0 < g.curPer →
      exec (.pwmCompareEvent l n k) s =
        .next (s.setLane l (pwmEvent n.val (2 + k.val) (setCount n.val (nth g.act.cmp k.val 0) L)))) ∧
    (g.act.per ≤ nth g.act.cmp k.val 0 ∨ g.curPer ≤ nth g.act.cmp k.val 0 → exec (.pwmCompareEvent l n k) s = .next s) ∧
    (¬ runs ∨ L.b (F.PWMn_CFG_EN n.val) = false → exec (.pwmReload l n) s = .next s ∧ exec (.pwmPeriodEvent l n) s = .next s ∧
      exec (.pwmCompareEvent l n k) s = .next s) ∧
    (runs → L.b (F.PWMn_CFG_EN n.val) = false → n.val < 2 → exec (.pwmEnable l n) s =
      .next (s.setLane l (started n.val (reload n.val (L.setB (F.PWMn_CFG_EN n.val) true))))) ∧
    (runs → L.b (F.PWMn_CFG_EN 2) = false → exec (.pwmEnable l 2) s =
      .next (s.setLane l (vduEnable (started 2 (reload 2 (L.setB (F.PWMn_CFG_EN 2) true)))))) ∧
    (L.live = true → L.bit F.AOS_STAT_ON 2 = true → smSorted L.regs = true → ∃ t, exec (.clkstop l) s = .next t ∧ onlyLane l s t ∧
      (t.lane l).b F.PWM_MON_CLKSTOP = true ∧ (t.lane l).b F.CHP_STAT_GATE = false ∧ (t.lane l).out.motStopped = true ∧
      (∀ m j, ballLevel m j (t.lane l) = (t.lane l).bit (F.PWMn_OUT_SAFE m) j) ∧ ballSafe (t.lane l) = true) ∧
    (L.bit F.AOS_STAT_ON 2 = false → exec (.clkstop l) s = .next s) ∧
    (L.live = true → L.out.motStopped = true → exec (.pwmClkStop l) s =
      .next (s.setLane l (raise 0x0A6 { L with out := { L.out with motStopped := false } }))) ∧
    (L.out.motStopped = false → exec (.pwmClkStop l) s = .next s) ∧
    (L.live = true → exec (.vduOcClear l ch) s = .next (s.setLane l (vduEnable (ocClear ch.val L)))) ∧
    (released L = false → ballLevel n.val i L = false ∧ ballSafe L = true) ∧
    (released L = true → safeAct n.val L = true → ballLevel n.val i L = L.bit (F.PWMn_OUT_SAFE n.val) i) ∧
    (released L = true → safeAct n.val L = false → L.b (F.PWMn_CFG_EN n.val) = false →
      ballLevel n.val i L = L.bit (F.PWMn_OUT_POL n.val) i)

/-- Claims on a valve group (R292 to R296): a wanted attempt asserts the claim where no other stands, and waits where one
does; at the end of the guard a lone claim owns the group, a collision withdraws the claim, counts and raises 0x0B0, the
third also 0x0B1; a peer's claim on an owned group raises 0x0B2; an owner whose claim has gone is lost and the successors
take their places. Choices of the model it rests on: log entries 3, 79. -/
def Obligations.GroupsAreClaimedAndLost : Prop :=
  ∀ (l p : LaneId) (s : State) (g : Fin 4) (up : Bool),
    let L := s.lane l
    let G := grpOf L g.val
    let me := laneNo L.id
    let own := L.b (F.DEI_GRPg_STAT_OWN g.val)
    let R := raise 0x0B0 ((L.setBit (F.DEI_GRPg_STAT_CLAIMS g.val) me false).inc (F.DEI_GRPg_ERR_COLL_CNT g.val))
    let B := setGrp g.val { G with tries := G.tries + 1, want := false } (deiEvent g.val 2 R)
    let guardOn : Prop := L.n (F.DEI_GRPg_STAT_STATE g.val) = 3 ∧ ownClaim L g.val = true ∧ own = false
    L.live = true →
    (G.want = true → own = false → ownClaim L g.val = false → mayClaim L = true → grpCfg L g.val = true →
      L.n (F.DEI_GRPg_STAT_OWNER g.val) = 3 →
      (otherClaims L g.val = true → exec (.claimAttempt l g) s =
        .next (s.setLane l ((setGrp g.val { G with want := true } L).putN (F.DEI_GRPg_STAT_STATE g.val) 2))) ∧
      (otherClaims L g.val = false → exec (.claimAttempt l g) s = .next (s.setLane l
        (((setGrp g.val { G with want := false, second := false } L).setBit (F.DEI_GRPg_STAT_CLAIMS g.val) me true).putN
          (F.DEI_GRPg_STAT_STATE g.val) 3)))) ∧
    (G.want = false → exec (.claimAttempt l g) s = .next s) ∧
    (guardOn → otherClaims L g.val = false → exec (.claimGuardEnd l g) s = .next (s.setLane l (gainGroup g.val L))) ∧
    (guardOn → otherClaims L g.val = true → G.tries < 2 → exec (.claimGuardEnd l g) s =
      .next (s.setLane l (B.putN (F.DEI_GRPg_STAT_STATE g.val) 4))) ∧
    (guardOn → otherClaims L g.val = true → 2 ≤ G.tries → exec (.claimGuardEnd l g) s =
      .next (s.setLane l (raise 0x0B1 (B.putN (F.DEI_GRPg_STAT_STATE g.val) (standState B g.val))))) ∧
    (¬ guardOn → exec (.claimGuardEnd l g) s = .next s) ∧
    (L.n (F.DEI_GRPg_STAT_STATE g.val) = 4 → exec (.claimBackoffEnd l g) s =
      .next (s.setLane l ((setGrp g.val { G with want := true } L).putN (F.DEI_GRPg_STAT_STATE g.val) 2))) ∧
    (L.n (F.DEI_GRPg_STAT_STATE g.val) ≠ 4 → exec (.claimBackoffEnd l g) s = .next s) ∧
    (p ≠ L.id → (up = true → L.bit (F.DEI_GRPg_STAT_CLAIMS g.val) (laneNo p) = true) →
      exec (.claimLineChange l g p up) s = .next (s.setLane l (L.setBit (F.DEI_GRPg_STAT_CLAIMS g.val) (laneNo p) up))) ∧
    (p ≠ L.id → L.bit (F.DEI_GRPg_STAT_CLAIMS g.val) (laneNo p) = false → G.second = false →
      (L.setBit (F.DEI_GRPg_STAT_CLAIMS g.val) (laneNo p) true).b (F.DEI_GRPg_STAT_OWN g.val) = false →
      exec (.claimLineChange l g p true) s = .next (s.setLane l (L.setBit (F.DEI_GRPg_STAT_CLAIMS g.val) (laneNo p) true))) ∧
    (p ≠ L.id → L.bit (F.DEI_GRPg_STAT_CLAIMS g.val) (laneNo p) = true → own = false → ownClaim L g.val = true →
      exec (.ownerSeen l g p) s = .next (s.setLane l (setGrp g.val
        { grpOf L g.val with want := false, second := false } (L.putN (F.DEI_GRPg_STAT_OWNER g.val) (laneNo p))))) ∧
    (p ≠ L.id → L.bit (F.DEI_GRPg_STAT_CLAIMS g.val) (laneNo p) = true → own = false → ownClaim L g.val = false →
      exec (.ownerSeen l g p) s = .next (s.setLane l ((setGrp g.val { grpOf L g.val with want := false, second := false }
        (L.putN (F.DEI_GRPg_STAT_OWNER g.val) (laneNo p))).putN (F.DEI_GRPg_STAT_STATE g.val) (standState L g.val)))) ∧
    (L.bit (F.DEI_GRPg_STAT_CLAIMS g.val) (laneNo p) = false → exec (.ownerSeen l g p) s = .next s) ∧
    (L.n (F.DEI_GRPg_STAT_OWNER g.val) ≠ 3 → own = false →
      L.bit (F.DEI_GRPg_STAT_CLAIMS g.val) (L.n (F.DEI_GRPg_STAT_OWNER g.val)) = false → exec (.ownerLost l g) s =
      .next (s.setLane l (rankGroup g.val (membersOf L (orderFrom (orderOf L g.val) (L.n (F.DEI_GRPg_STAT_OWNER g.val)))) true
        (L.putN (F.DEI_GRPg_STAT_OWNER g.val) 3)))) ∧
    (L.n (F.DEI_GRPg_STAT_OWNER g.val) = 3 → exec (.ownerLost l g) s = .next s) ∧
    (G.second = true → exec (.successorWaitEnd l g) s =
      .next (s.setLane l (tryClaim g.val (setGrp g.val { G with second := false } L)))) ∧
    (G.second = false → exec (.successorWaitEnd l g) s = .next s) ∧
    (inSet L.clv.members L.id = true → grpCfg L g.val = true → (curRec L).driveSet.testBit (2 + g.val) = true →
      L.n (F.DEI_GRPg_STAT_OWNER g.val) = 3 → exec (.deiNoOwner l g) s = .next (s.setLane l (raise 0x0B5 L))) ∧
    (L.n (F.DEI_GRPg_STAT_OWNER g.val) ≠ 3 → exec (.deiNoOwner l g) s = .next s)

/-- Chopper faults, GPIO edges and the gate-driver SPI (R300, R302, R303): no current while the gate is on, and current
while it is off, set their sticky bits and raise 0x0B9 and 0x0BB; an enabled edge sets its event and PLIC source; the
transmit FIFO takes eight frames, a ninth raises 0x0BC; a frame moves the oldest word out and LEN + 1 bits in, once its trigger
line has pulsed; a trigger pulse makes the pins that name its line drive the opposite of OUT. Choices of the model it rests on:
log entries 3, 80. -/
def Obligations.ChopperFaultsEdgesAndFrames : Prop :=
  ∀ (l : LaneId) (s : State) (n : Fin 8) (v w : Word) (rest : List Word) (k : Nat),
    let L := s.lane l
    let O := L.out
    let runs : Prop := L.live = true ∧ L.out.motStopped = false
    (runs → L.b F.CHP_STAT_GATE = true → exec (.chpNoCurrent l) s =
      .next (s.setLane l (plicRaise 91 (raise 0x0B9 (L.setB F.CHP_STAT_NOCUR true))))) ∧
    (runs → L.b F.CHP_STAT_GATE = false → exec (.chpStuck l) s =
      .next (s.setLane l (plicRaise 91 (raise 0x0BB (L.setB F.CHP_STAT_STUCK true))))) ∧
    (L.b F.CHP_STAT_GATE = false → exec (.chpNoCurrent l) s = .next s) ∧
    (L.b F.CHP_STAT_GATE = true → exec (.chpStuck l) s = .next s) ∧
    (L.live = true →
      (L.bit F.GPIO_IRQ_RISE n.val = true → exec (.gpioEdge l n true) s = .next (s.setLane l
        (plicRaise (83 + n.val) ((L.setBit F.GPIO_IN_IN n.val true).setBit F.GPIO_EVSTAT_EV n.val true)))) ∧
      (L.bit F.GPIO_IRQ_FALL n.val = false →
        exec (.gpioEdge l n false) s = .next (s.setLane l (L.setBit F.GPIO_IN_IN n.val false))) ∧
      (O.spiTx.length < 8 → exec (.gpioSpiTx l v) s =
        .next (s.setLane l (spiShow { L with out := { O with spiTx := O.spiTx ++ [v] } }))) ∧
      (8 ≤ O.spiTx.length → exec (.gpioSpiTx l v) s = .next (s.setLane l (raise 0x0BC (L.setB F.GPIO_SPI_STAT_UND true)))) ∧
      (exec (.gpioSpiRx l) s = .next (s.setLane l (spiShow { L with out := { O with spiRx := O.spiRx.drop 1 } }))) ∧
      (L.b F.GPIO_SPI_CFG_EN = true → O.spiTx = v :: rest → L.n F.GPIO_SPI_CFG_TRG = 0 ∨ O.spiTrig = true → O.spiRx.length < 8 →
        exec (.spiFrame l w) s = .next (s.setLane l (spiShow { L with out := { O with
          spiTx := rest, spiTrig := false, spiRx := O.spiRx ++ [toW (w.toNat % 2 ^ (max 7 (L.n F.GPIO_SPI_CFG_LEN) + 1))] } }))) ∧
      (L.b F.GPIO_SPI_CFG_EN = true → O.spiTx = v :: rest → L.n F.GPIO_SPI_CFG_TRG = 0 ∨ O.spiTrig = true → 8 ≤ O.spiRx.length →
        exec (.spiFrame l w) s = .next (s.setLane l (raise 0x0BC ((spiShow { L with out := { O with
          spiTx := rest, spiTrig := false } }).setB F.GPIO_SPI_STAT_OVR true)))) ∧
      (L.b F.GPIO_SPI_CFG_EN = false ∨ O.spiTx = [] ∨ (L.n F.GPIO_SPI_CFG_TRG ≠ 0 ∧ O.spiTrig = false) →
        exec (.spiFrame l w) s = .next s)) ∧
    (L.bit F.GPIO_DIR_DIR n.val = true → bitsOf (L.fld F.GPIO_TRG_TRG) (4 * n.val) 4 = k + 1 →
      gpioLevel n.val (trgPulse k L) = !L.bit F.GPIO_OUT_OUT n.val) ∧
    (L.bit F.GPIO_DIR_DIR n.val = false ∨ bitsOf (L.fld F.GPIO_TRG_TRG) (4 * n.val) 4 ≠ k + 1 →
      gpioLevel n.val (trgPulse k L) = gpioLevel n.val L)

/-! The network: ports, frames, time and claims -/

/-- Ports and the guardian (R308, R326 to R330, R343, R345, R347): a link that comes up or goes down shows, counts and raises
0x0C8; a frame start at a dead port does nothing; while the schedule is enforced a frame outside every owned slot, of a form the
record does not give, or of a wrong length is refused, counted and raised, one within its window is measured and admitted unless
its port drifts or is isolated, and a violation of time counts towards isolation; before that only SYNC and COLDSTART frames of
the port's own record are admitted; an overrun is cut off. A device that has lost its cold start in it abandons as a whole (R349).
Choices of the model it rests on: log entries 3, 82, 83, 84. -/
def Obligations.TheStarJudgesEveryFrame : Prop :=
  ∀ (l : LaneId) (s : State) (p : Fin 12) (q : Fin 16) (t : Int) (h : List Byte) (c : Cur) (i : Nat) (r : SlotRec) (ts : Int)
    (W : List Word) (N : Lane),
    let L := s.lane l
    let L0 := setPort q.val (fun x => { x with cur := none }) L
    let D := ((L.setB (F.SSG_PORTp_STAT_LINK p.val) false).setBit F.SSG_STAT_LINK p.val false).inc (F.SSG_PORTp_ERR1_DOWN_CNT p.val)
    let frame := exec (.frameStart l q t h) s
    let put (A : Lane) : Host.Outcome State Fault Refusal := .next (abandonAll l s (s.setLane l A))
    let lo := ts + 500 + winShift L0 q.val r
    let o := offsetOf L0 q.val r (t - (ts - slotTs r))
    let ri := slotRec L0 i
    let oi := offsetOf L0 q.val ri t
    let Mi := measure q.val oi L0
    L.live = true →
    (L.bit F.AOS_STAT_ON 6 = true → portRole L p.val = 1 ∨ portRole L p.val = 2 → L.b (F.SSG_PORTp_STAT_LINK p.val) = false →
      exec (.phyLinkUp l p) s = .next (s.setLane l
        (ssgEvent 8 ((L.setB (F.SSG_PORTp_STAT_LINK p.val) true).setBit F.SSG_STAT_LINK p.val true)))) ∧
    (L.bit F.AOS_STAT_ON 6 = false ∨ L.b (F.SSG_PORTp_STAT_LINK p.val) = true → exec (.phyLinkUp l p) s = .next s) ∧
    (L.b (F.SSG_PORTp_STAT_LINK p.val) = true → (portOf L p.val).cur = none → L.nte.claims = [] →
      exec (.phyLinkDown l p) s = .next (s.setLane l (raise 0x0C8 (ssgEvent 8 D)))) ∧
    (L.b (F.SSG_PORTp_STAT_LINK p.val) = false → exec (.phyLinkDown l p) s = .next s) ∧
    (∀ A, L.nte.abandoned = true ∨ A.nte.abandoned = false → put A = .next (s.setLane l A)) ∧
    (portLive L q.val = false → frame = .next s) ∧
    (portLive L q.val = true → L.b F.SSG_STAT_RUN = true →
      (ownedSlots L0 q.val = [] → frame = put (refuse q.val 3 none L0)) ∧
      (ownedSlots L0 q.val = [(i, r, ts)] → t < ts - 8000 ∨ ts + 250 * r.len ≤ t → t < lo ∨ lo + 3000 < t →
        frame = put (refuse q.val 3 (some i) L0)) ∧
      (ownedSlots L0 q.val = [(i, r, ts)] → ts - 8000 ≤ t → t < lo →
        frame = put (driftIsolate q.val o (portIso L0 q.val) (refuse q.val 1 (some i) (measure q.val o L0)))) ∧
      (ownedSlots L0 q.val = [(i, r, ts)] → lo + 3000 < t → t < ts + 250 * r.len → ts - 8000 ≤ t →
        frame = put (driftIsolate q.val o (portIso L0 q.val) (refuse q.val 2 (some i) (measure q.val o L0)))) ∧
      (ownedSlots L0 q.val = [(i, r, ts)] → slotExists r (frameCyc L0) = true → ts = slotTs r → lo ≤ t → t ≤ lo + 3000 →
        (L.nte.adm.contains i = true → frame = put (refuse q.val 3 (some i) L0)) ∧
        (L.nte.adm.contains i = false → readWords (recAddr i) 4 L0 = (none, N) → frame = put (refuse q.val 4 (some i) N)) ∧
        (L.nte.adm.contains i = false → readWords (recAddr i) 4 L0 = (some W, L0) →
          (isAhnul h = false → frame = put (refuse q.val 6 (some i) L0)) ∧
          (isAhnul h = true → headerOk L0 i ri (some (frameCyc L0)) h = false → frame = put (refuse q.val 4 (some i) L0)) ∧
          (isAhnul h = true → headerOk L0 i ri (some (frameCyc L0)) h = true → lengthOk ri h = false →
            frame = put (refuse q.val 5 (some i) L0)) ∧
          (isAhnul h = true → headerOk L0 i ri (some (frameCyc L0)) h = true → lengthOk ri h = true →
            (driftBad Mi q.val oi = true →
              frame = put (driftIsolate q.val oi (portIso L0 q.val) (portInc q.val F.NTE_SVIEWp_DRIFT_CNT Mi))) ∧
            (driftBad Mi q.val oi = false → portIso Mi q.val = true → frame = put Mi) ∧
            (driftBad Mi q.val oi = false → portIso Mi q.val = false →
              frame = put (admitFrame q.val i h ((L.nte.cyc : Int) * (cycNs L0 : Int) + t) Mi)))))) ∧
    (portLive L q.val = true → L.b F.SSG_STAT_RUN = false →
      (nRec L ≤ fSlot h → frame = put L0) ∧
      (fSlot h = i → i < nRec L → readWords (recAddr i) 4 L0 = (some W, L0) →
        (ri.kind ≠ 2 ∨ ri.port ≠ q.val ∨ isAhnul h = false ∨ headerOk L0 i ri none h = false ∨ lengthOk ri h = false →
          frame = put L0) ∧
        (ri.kind = 2 → ri.port = q.val → isAhnul h = true → headerOk L0 i ri none h = true → lengthOk ri h = true →
          (fTyp h ≠ 3 → frame = put (admitFrame q.val i h (coldNt t L0) L0)) ∧
          (fTyp h = 3 → frame = put (coldCollide q.val i t h L0))))) ∧
    ((portOf L q.val).cur = some c → exec (.frameTruncation l q) s = .next (s.setLane l (raise 0x0C2 (ssgEvent 2
      (portLast q.val (some c.slot) 7 (portInc q.val F.SSG_PORTp_ERR0_TRUNC_CNT L0)))))) ∧
    ((portOf L q.val).cur = none → exec (.frameTruncation l q) s = .next s)

/-- Frames that end well (R317, R318, R321 to R324, R328, R340, R341, R348 to R351, R354, R356): a frame with a bad FCS is counted
and delivers nothing; a DATA frame delivers its signals one by one, each checked for length, CRC and FRESH; a NULL frame
reports every signal of its slot and its REASON is kept; a SYNC frame heard by a listening lane integrates it, gives a lane that
follows its trunk the trunk's offset and the answer to its claim; a COLDSTART frame leaves a SYNCED lane as it is and ends the cold
start of a worse one; a CLAIM frame is answered in CLAIM_LAST and its grants and releases wait for a boundary; an own slot sends
what NET_TX has prepared in time, or NULL with its reason, and a CLAIM record the claim of GO, once; the own SYNC slot sends SYNC
or COLDSTART. Choices of the model it rests on: log entries 3, 84, 85, 86, 87. -/
def Obligations.FramesReachTheirReceivers : Prop :=
  ∀ (l : LaneId) (s : State) (q : Fin 16) (f : FrameEnd) (c : Cur) (slot : BitVec 16) (e : DirEnt) (pl : List Byte) (i n k : Nat)
    (w : Word) (W : List Word) (sr : SlotRec) (p1 : Prep),
    let L := s.lane l
    let M := setPort q.val (fun x => { x with cur := none }) L
    let put (A : Lane) : Host.Outcome State Fault Refusal := .next (abandonAll l s (s.setLane l A))
    let good : Prop := (portOf L q.val).cur = some c ∧ f.fcsOk = true ∧ f.linkOk = true ∧ f.octets = 26 + max c.len 38
    let sigs := slotSigs M c.slot false
    let all := sigs.foldl (fun (a : Lane × Bool) x =>
      ((element ((f.payload.drop 8).take c.len) c.len x.1 a.1).1, a.2 || (element ((f.payload.drop 8).take c.len) c.len x.1 a.1).2))
      (M, false)
    let el := (pl.drop e.offset).take (e.len + 5)
    let body := (el.drop 1).take e.len
    let delta := ((nth el 0 0).toNat + 256 - bitsOf w 0 8) % 256
    let node := c.node
    let data := (f.payload.drop 8).take c.len
    let res := claimResult q.val node c data M
    let trunk := withNte (fun x => { x with trunkMiss := 0 }) (M.put F.NTE_TRUNKOFS_VALUE (BitVec.ofInt 32
      (offsetOf M q.val (slotRec M c.slot) (c.nt - (M.nte.cyc : Int) * (cycNs M : Int)))))
    let heard := keepBest (syRank f) node (some q.val) none M
    let R := slotRec L slot.toNat
    let null (reason : Nat) (A : Lane) := sendOwn slot.toNat R 1 0 reason (raise 0x0CD (nteEvent 2 (A.inc F.NTE_RXERR1_TXNULL_CNT)))
    let taken := withNte (fun x => { x with prep := smErase x.prep slot.toNat }) L
    let inTime : Prop := p1.cyc ≠ L.nte.cyc ∨ p1.pos ≤ 250 * R.start - 4000
    let bound := L.nte.cyc / 64 + if frameCyc L < 63 then 1 else 2
    L.live = true →
    ((portOf L q.val).cur = some c → f.fcsOk = false ∨ f.linkOk = false ∨ f.octets ≠ 26 + max c.len 38 →
      (∀ x ∈ [(Instr.dataFrame l q f, 0), (.nullFrame l q f, 1), (.claimFrame l q f, 4)], c.typ = x.2 →
        exec x.1 s = .next (s.setLane l (raise 0x0C7 (ssgEvent 7 (portInc q.val F.SSG_PORTp_ERR1_FRAME_CNT M))))) ∧
      (∀ x ∈ [(Instr.syncFrame l q f, 2), (.coldstartFrame l q f, 3)], c.typ = x.2 →
        exec x.1 s = put (raise 0x0C7 (ssgEvent 7 (portInc q.val F.SSG_PORTp_ERR1_FRAME_CNT M))))) ∧
    (∀ A, L.nte.abandoned = true ∨ A.nte.abandoned = false → put A = .next (s.setLane l A)) ∧
    (good → c.typ = 0 → (slotRec M c.slot).fwd.testBit 12 = true →
      ((slotRec M c.slot).rxirq = true → all.2 = true → exec (.dataFrame l q f) s = .next (s.setLane l (nteEvent 1 all.1))) ∧
      ((slotRec M c.slot).rxirq = false ∨ all.2 = false → exec (.dataFrame l q f) s = .next (s.setLane l all.1))) ∧
    (good → c.typ = 0 → (slotRec M c.slot).fwd.testBit 12 = false → exec (.dataFrame l q f) s = .next (s.setLane l M)) ∧
    (readWords (dirAddr i) 4 L = (some W, L) → dirRaw L i = e → readW (bufAddr e) L = (some w, L) →
      (n < e.offset + e.len + 5 → element pl n i L = (raise 0x0CE (rxErr i e 1 (L.inc F.NTE_RXERR0_SHORT_CNT)), false)) ∧
      (e.offset + e.len + 5 ≤ n →
        (beNat (el.drop (e.len + 1)) ≠ (crc32c (natBytesBe 4 i ++ nth el 0 0 :: body)).toNat →
          element pl n i L = (raise 0x0C9 (rxErr i e 2 (L.inc F.NTE_RXERR0_CRC_CNT)), false)) ∧
        (beNat (el.drop (e.len + 1)) = (crc32c (natBytesBe 4 i ++ nth el 0 0 :: body)).toNat →
          (bitAt w 31 = false → element pl n i L = (deliver e (nth el 0 0) body L, true)) ∧
          (bitAt w 31 = true → delta = 0 →
            element pl n i L = (rxErr i e 3 (L.inc F.NTE_RXERR1_REPEAT_CNT), false)) ∧
          (bitAt w 31 = true → delta ≠ 0 → delta ≤ e.maxgap →
            element pl n i L = (deliver e (nth el 0 0) body L, true)) ∧
          (bitAt w 31 = true → delta ≠ 0 → e.maxgap < delta → element pl n i L = (raise 0x0CA (rxErr i e 4 (Lane.inc
            (writeW (bufAddr e) ((w &&& 0xFFFFFF00) ||| (nth el 0 0).setWidth 32) L).2 F.NTE_RXERR0_GAP_CNT)), false))))) ∧
    (good → c.typ = 1 → (slotRec M c.slot).fwd.testBit 12 = true → exec (.nullFrame l q f) s = .next (s.setLane l
      (raise 0x0CC (nteEvent 2 (((slotSigs M c.slot false).foldl (fun a x => rxErr x.1 x.2 6 a)
        (withNte (fun x => { x with nulls := smSet x.nulls c.slot c.reason }) M)).inc F.NTE_RXERR1_NULL_CNT))))) ∧
    (good → c.typ = 1 → (slotRec M c.slot).fwd.testBit 12 = false → exec (.nullFrame l q f) s = .next (s.setLane l M)) ∧
    (good → c.typ = 2 → synced M = false →
      (csState M = 1 → exec (.syncFrame l q f) s = put (integrateFrom q.val (syTime f) c.time M)) ∧
      (csState M = 2 ∨ csState M = 3 → exec (.syncFrame l q f) s = put (integrateFrom q.val (syTime f) c.time (csAbandon M))) ∧
      (csState M = 4 → M.nte.folLane = none → M.nte.folPort = some q.val →
        exec (.syncFrame l q f) s = put (confirmFrame q.val (syTime f) c M)) ∧
      (csState M = 0 ∨ csState M = 4 ∧ M.nte.folLane ≠ none → exec (.syncFrame l q f) s = put M)) ∧
    (good → c.typ = 2 → synced M = true →
      (M.n F.NTE_TIME_STAT_SRC ≠ 3 ∨ M.n F.NTE_TIME_STAT_SRC_PORT ≠ q.val → exec (.syncFrame l q f) s = put M) ∧
      (M.n F.NTE_TIME_STAT_SRC = 3 → M.n F.NTE_TIME_STAT_SRC_PORT = q.val → trunk.b F.NTE_CLAIM_TX_GO = false →
        exec (.syncFrame l q f) s = put trunk) ∧
      (M.n F.NTE_TIME_STAT_SRC = 3 → M.n F.NTE_TIME_STAT_SRC_PORT = q.val → trunk.b F.NTE_CLAIM_TX_GO = true →
        (nth (syAns f) 0 0).toNat = ownNode trunk → nth (syAns f) 1 0 ≠ 0 → exec (.syncFrame l q f) s =
          put ((trunk.putN F.NTE_CLAIM_TX_RESULT (nth (syAns f) 1 0).toNat).setB F.NTE_CLAIM_TX_GO false))) ∧
    (good → c.typ = 3 → synced M = true ∨ csState M = 0 → exec (.coldstartFrame l q f) s = put M) ∧
    (good → c.typ = 3 → synced M = false → smSorted L.regs = true → syRank f ≠ coldRank L →
      (csState M = 1 → exec (.coldstartFrame l q f) s = put heard) ∧
      (csState M = 2 ∨ csState M = 3 → betterThanOwn (syRank f) node heard = true →
        exec (.coldstartFrame l q f) s = put (integrateFrom q.val (syTime f) c.time (csAbandon heard))) ∧
      (csState M = 2 ∨ csState M = 3 → betterThanOwn (syRank f) node heard = false →
        exec (.coldstartFrame l q f) s = put heard)) ∧
    (good → c.typ = 4 → 2 < res → exec (.claimFrame l q f) s = .next (s.setLane l
      (raise 0x0DA (Lane.inc (((((M.putN F.NTE_CLAIM_LAST_NODE_ID node).putN F.NTE_CLAIM_LAST_PORT q.val).putN
        F.NTE_CLAIM_LAST_RESULT res).putN F.NTE_CLAIM_LAST_CLASS (bAt data 0)).putN F.NTE_CLAIM_LAST_COUNT (bAt data 1))
        F.NTE_CS_ERR_CLREF_CNT)))) ∧
    (good → c.typ = 4 → res = 1 ∨ res = 2 → smSorted L.regs = true → ∃ t, exec (.claimFrame l q f) s = .next t ∧ onlyLane l s t ∧
      (t.lane l).n F.NTE_CLAIM_LAST_RESULT = res ∧ (t.lane l).n F.NTE_CLAIM_LAST_PORT = q.val ∧
      (t.lane l).nte.claims = L.nte.claims ∧
      (res = 1 → (t.lane l).nte.due = L.nte.due ++ (List.range (bAt data 1)).map (fun j =>
        ⟨true, ⟨node, q.val, beNat ((data.drop (4 + 2 * j)).take 2)⟩, bound⟩)) ∧
      (res = 2 → (t.lane l).nte.due = L.nte.due ++ ((allClaims L).filter (fun x =>
        decide (x.node = node ∧ x.port = q.val))).map (fun x => ⟨false, x, bound⟩))) ∧
    (L.b F.NTE_STAT_RUN = false → exec (.ownFrameSend l slot) s = .next s) ∧
    (L.b F.NTE_STAT_RUN = true → slot.toNat < nRec L → R.port = 15 → slotExists R (frameCyc L) = true →
      (R.kind ≤ 1 → smFind L.nte.prep slot.toNat = none → nullCase slot.toNat L = k →
        (k = 0 → exec (.ownFrameSend l slot) s = .next (s.setLane l (null 6 (L.inc F.NTE_RXERR1_LATE_TX_CNT)))) ∧
        (k ≠ 0 → k ≠ 6 → exec (.ownFrameSend l slot) s = .next (s.setLane l (null k L)))) ∧
      (R.kind ≤ 1 → smFind L.nte.prep slot.toNat = some p1 → nullCase slot.toNat L = 0 →
        (inTime → p1.reason = 0 → exec (.ownFrameSend l slot) s = .next (s.setLane l
          (sendOwn slot.toNat R 0 p1.len 0 (p1.sigs.foldl (fun a x => sentStatus x.1 x.2.1 a) taken)))) ∧
        (inTime → p1.reason ≠ 0 → p1.reason ≠ 6 → exec (.ownFrameSend l slot) s = .next (s.setLane l (null p1.reason taken))) ∧
        (¬ inTime → exec (.ownFrameSend l slot) s = .next (s.setLane l (null 6 (L.inc F.NTE_RXERR1_LATE_TX_CNT))))) ∧
      (R.kind = 3 → L.b F.NTE_CLAIM_TX_GO = true → L.nte.claimSent = false → exec (.ownFrameSend l slot) s = .next (s.setLane l
        (sendOwn slot.toNat R 4 (4 + 2 * L.n F.NTE_CLAIM_TX_COUNT) 0 (withNte (fun x => { x with claimSent := true }) L)))) ∧
      (R.kind = 3 → L.b F.NTE_CLAIM_TX_GO = false ∨ L.nte.claimSent = true → exec (.ownFrameSend l slot) s = .next s)) ∧
    (ownSync L = none → exec (.syncFrameSend l) s = .next s) ∧
    (ownSync L = some (i, sr) → slotExists sr (frameCyc L) = true →
      (synced L = true → exec (.syncFrameSend l) s = put (sendOwn i sr 2 48 0 L)) ∧
      (synced L = false → ledTime L = true → 56 ≤ frameCyc L → exec (.syncFrameSend l) s = put (sendOwn i sr 3 16 0 L)) ∧
      (synced L = false → ledTime L = false ∨ frameCyc L < 56 → exec (.syncFrameSend l) s = .next s)) ∧
    (ownSync L = some (i, sr) → slotExists sr (frameCyc L) = false → exec (.syncFrameSend l) s = .next s)

/-- Network time (R334, R338, R348 to R353): where network time has come to another cycle, that cycle starts and steps what ages; the cold start goes on from
listening to leading or following as the ranks say, and at cycle 0 the leader is SYNCED; a lane that has lost its time in a
triplex listens again and raises 0x0D7, in a duplex only raises 0x0D8; a late start and a lost trunk raise 0x0D6 and 0x0D9.
Claims of SPARE slots (R355, R356): grants and releases take effect at a hyperperiod boundary and not before; GO starts an
own claim, and 64 cycles without an answer end it with RESULT 0xF. Choices of the model it rests on: log entries 3, 84, 85,
86. -/
def Obligations.NetworkTimeStartsAndIsKept : Prop :=
  ∀ (l : LaneId) (s : State) (x y : LaneId) (v : Word) (d : ClaimDue) (n : Nat),
    let L := s.lane l
    let N := withNte (fun n => { n with lostRun := 0 }) L
    let lost : Prop := 4 ≤ L.nte.lostRun ∧ synced L = true ∧ inSet L.clv.members L.id = true
    let now := L.nte.due.filter (fun d => decide (d.hp ≤ L.nte.cyc / 64))
    let rest := L.nte.due.filter (fun d => !decide (d.hp ≤ L.nte.cyc / 64))
    let C := (L.putN F.NTE_CLAIM_TX_CLASS (bitsOf v 16 8)).putN F.NTE_CLAIM_TX_COUNT (bitsOf v 8 8)
    let better := betterThanOwn (L.n F.NTE_TIME_STAT_HEARD_RANK) L.nte.bestNode L
    L.live = true →
    let k := cycleNow L
    (cycleDue L = false → exec (.networkCycleStart l n) s = .next s) ∧ (n ≠ k → exec (.networkCycleStart l n) s = .next s) ∧
    (cycleDue L = true → exec (.networkCycleStart l k) s = .next (s.setLane l (cycleBegins k L)) ∧
      ∃ C, cycleBegins k L = nteEvent 0 (integrateEnd (decide (k % 64 = 0)) C) ∧
        C.nte.cyc = k ∧ C.nte.claimAge = L.nte.claimAge + 1) ∧
    (cycleDue L = true ↔ L.nte.held = true ∧ csState L ≠ 0 ∧ (ntNow L / (max 1 (cycNs L) : Nat)).toNat ≠ L.nte.cyc) ∧
    (lost → otherMembers N = [x, y] → exec (.timeLost l) s = .next (s.setLane l
      (raise 0x0D7 (csListen ((N.setB F.NTE_TIME_STAT_SYNCED false).inc F.NTE_CS_ERR_TLOST_CNT))))) ∧
    (lost → otherMembers N = [x] → exec (.timeLost l) s = .next (s.setLane l (raise 0x0D8 N))) ∧
    (L.nte.lostRun < 4 → exec (.timeLost l) s = .next s) ∧
    (csState L ≠ 1 → exec (.coldstartListenEnd l) s = .next s) ∧
    (csState L = 1 → better = true → exec (.coldstartListenEnd l) s = .next (s.setLane l
      (follow L.nte.bestPort (if L.nte.bestPort.isSome then none else L.nte.bestLane) L))) ∧
    (csState L = 1 → better = false → lowerReady L = true → exec (.coldstartListenEnd l) s = .next (s.setLane l (setCs 2 L))) ∧
    (csState L = 1 → better = false → lowerReady L = false → exec (.coldstartListenEnd l) s =
      .next (s.setLane l (setCs 3 (withNte (fun n => { n with lead := true }) L)))) ∧
    (csState L = 2 → L.nte.conf = 0 → exec (.waitLeadTimeout l) s =
      .next (s.setLane l (setCs 3 (withNte (fun n => { n with lead := true, alone := true }) L)))) ∧
    (csState L ≠ 2 ∨ L.nte.conf ≠ 0 → exec (.waitLeadTimeout l) s = .next s) ∧
    (csState L = 3 → L.nte.lead = true → ∃ t, exec (.coldstartBegin l) s = .next t ∧ onlyLane l s t ∧
      (t.lane l).nte.cyc = 56 ∧ (t.lane l).nte.held = true ∧ ntNow (t.lane l) = 56 * (cycNs L : Int)) ∧
    (L.nte.lead = false → exec (.coldstartBegin l) s = .next s) ∧
    (frameCyc L ≠ 0 → exec (.coldstartSync l) s = .next s) ∧
    (frameCyc L = 0 → csState L ≠ 3 → waitsZero L = true → exec (.coldstartSync l) s = .next (s.setLane l (integrateEnd true L))) ∧
    (frameCyc L = 0 → csState L = 3 → L.nte.lead = true → L.nte.held = true → L.b F.CLK_STAT_DEGRADED = false → smSorted L.regs = true →
      ∃ t, exec (.coldstartSync l) s = .next t ∧ onlyLane l s t ∧ synced (t.lane l) = true ∧ csState (t.lane l) = 5 ∧
        (t.lane l).b F.SSG_STAT_RUN = true ∧ (t.lane l).b F.NTE_STAT_RUN = true ∧ (t.lane l).b F.NTE_TIME_STAT_LEAD = true ∧
        (t.lane l).n F.NTE_TIME_STAT_SRC = 1 ∧ (t.lane l).nte.cyc % 64 = 0) ∧
    (csState L ≠ 3 → L.nte.confCyc < 56 → exec (.coldstartSync l) s = .next s) ∧
    (csState L = 4 → L.nte.abandoned = true → exec (.winnerSilent l) s = .next (s.setLane l (csListen L))) ∧
    (L.nte.abandoned = false → exec (.winnerSilent l) s = .next s) ∧
    (synced L = false → csState L ≠ 0 ∨ substate L = 4 → L.nte.late = false → exec (.startTimeout l) s =
      .next (s.setLane l (raise 0x0D6 (withNte (fun n => { n with late := true }) L)))) ∧
    (synced L = true ∨ L.nte.late = true ∨ (csState L = 0 ∧ substate L ≠ 4) → exec (.startTimeout l) s = .next s) ∧
    (L.n F.NTE_TIME_STAT_SRC = 3 → 4 ≤ L.nte.trunkMiss → exec (.trunkLost l) s = .next (s.setLane l (raise 0x0D9 (setSrc 1 0 L)))) ∧
    (L.nte.trunkMiss < 4 → exec (.trunkLost l) s = .next s) ∧
    (L.nte.cyc % 64 = 0 → exec (.claimEffect l) s =
      .next (s.setLane l (now.foldl (fun a d => claimWrite d a) (withNte (fun n => { n with due := rest }) L)))) ∧
    (L.nte.cyc % 64 ≠ 0 → exec (.claimEffect l) s = .next s) ∧
    ((claimWrite d L).nte.claims =
      (L.nte.claims.filter (fun k => decide (k.slot ≠ d.claim.slot))) ++ (if d.grant then [d.claim] else [])) ∧
    (bitAt v 31 = true → exec (.claimGo l v) s = .next (s.setLane l (withNte (fun n => { n with claimAge := 0, claimSent := false })
      ((C.setB F.NTE_CLAIM_TX_GO true).putN F.NTE_CLAIM_TX_RESULT 0)))) ∧
    (bitAt v 31 = false → exec (.claimGo l v) s = .next (s.setLane l C)) ∧
    (L.b F.NTE_CLAIM_TX_GO = true → 64 ≤ L.nte.claimAge → exec (.claimNoAnswer l) s =
      .next (s.setLane l ((L.setB F.NTE_CLAIM_TX_GO false).putN F.NTE_CLAIM_TX_RESULT 0xF))) ∧
    (L.nte.claimAge < 64 → exec (.claimNoAnswer l) s = .next s)

/-! CAN gateway, storage die and recorder -/

/-- The CAN gateway (R357, R359 to R362): a frame, or a message of several packets whose session is open, for a mapping is delivered,
or counted as dropped where it is short; one that no mapping takes ends the waiting CAN_RECV of the best ring; a session is opened
where one of them takes it, and refused where four are open or nothing takes it; a channel that goes bus-off ends its CAN_SEND with
DETAIL 2 and recovers with its counters at 0; an acknowledged frame ends CAN_SEND and starts the next; a session that times out or is
ended by the peer ends its CAN_SEND with DETAIL 3; an address that nobody challenges is in use. Choices of the model it rests on:
log entries 3, 88, 89. -/
def Obligations.CanMessagesAndChannels : Prop :=
  ∀ (l : LaneId) (s : State) (c : Fin 2) (m : CanMsg) (i a : Nat) (k : CanMap) (r : Run) (x : CanItem) (bs : List Byte)
    (N : Lane) (j : Fin 2048) (age size : Nat) (u : Fin 4) (o : CanRx),
    let L := s.lane l
    let C := canOf L c.val
    let arrives := exec (.canFrameReceived l c m) s
    let err := fun (f : Nat → Fld) (src : Nat) (A : Lane) => raise src (cgwEvent (2 * c.val + 1) (A.inc (f c.val)))
    let abort := err F.CGW_CHc_ERR_TPABORT_CNT 0x0DE
    let hears : Prop := canEn L c.val = true ∧ busOff L c.val = false ∧ modeAllowed L c.val m.mode = true
    let long : Prop := m.mode = .iso ∧ 8 < m.data.length
    let session : Prop := C.rx.any (fun y => ofSession m y && decide (y.size = m.data.length)) = true
    let H := if m.mode = .iso ∧ 8 < m.data.length then setCan c.val (fun y => { y with rx := y.rx.filter (fun z => !ofSession m z) }) L
      else addressHeard c.val m L
    let offered : Prop := hears ∧ m.part = .whole ∧ (long → session)
    let opens : Prop := hears ∧ m.part = .opens size ∧ forUs c.val m L = true
    let room : Prop := (C.rx.filter (fun y => !ofSession m y)).length < 4
    let refused (A : Lane) := if m.da.toNat = 0xFF then A else abort A
    let opened (A : Lane) := setCan c.val (fun y => { y with
      rx := y.rx.filter (fun z => !ofSession m z) ++ [⟨m.sa.toNat, m.da.toNat, m.id.toNat, size⟩] }) A
    let off := err F.CGW_CHc_ERR_BOFF_CNT 0x0DB ((L.setB (F.CGW_CHc_STAT_BUSOFF c.val) true).putN (F.CGW_CHc_STAT_TEC c.val) 0xFF)
    let q := iovaReadN 8 r.d.ctx r.d.src r.d.length (L, s.sto)
    let id0 := bitsOf r.d.w4 0 29
    let mode := bitsOf r.d.w5 29 3
    let big := decide (mode = 4 ∧ 8 < r.d.length)
    let next := canStart c.val (setCan c.val (fun y => { y with cur := none }) L)
    let sends : Prop := runningOp L 8 0x01 = some r ∧ r.aux ≠ 1 ∧ b2n (bitAt r.d.w4 31) = c.val ∧ canEn L c.val = true ∧
      (big = true → canSessions L c.val < 4)
    let out := (C.cur.toList ++ C.q).filter (fun y => y.big)
    let without (A : Lane) := setCan c.val (fun y => { y with
      q := y.q.filter (fun z => decide (z.map ≠ x.map))
      cur := match y.cur with
        | some z => if z.map = x.map then none else some z
        | none => none }) A
    let due : Prop := smFind L.cgw.age j.val = some age ∧ canMap j.val L = (some k, L) ∧ k.valid = true ∧ k.out = false ∧
      j.val < nMap L ∧ k.tmo ≠ 0 ∧ k.tmo ≤ age
    let E := { L with cgw := { L.cgw with age := smErase L.cgw.age j.val } }
    L.live = true →
    (offered → m.data.length ≤ 1785 → takenBy c.val m (List.range (nMap H)) H = (some (i, k), N) →
      arrives = .next (s.setLane l (mapDeliver c.val i k m N))) ∧
    (m.data.length < k.len → mapDeliver c.val i k m N = err F.CGW_CHc_ERR_RXDROP_CNT 0x0DD N) ∧
    (offered → (m.data.length ≤ 1785 → takenBy c.val m (List.range (nMap H)) H = (none, N)) → (1785 < m.data.length → N = H) →
      (recvFirst N (N.ring.recv.filter (recvMatches c.val m)) = some r →
        arrives = .next (s.withLD l (recvEnd m r (cgwEvent (2 * c.val) N, s.sto)))) ∧
      (recvFirst N (N.ring.recv.filter (recvMatches c.val m)) = none → arrives = .next (s.setLane l N))) ∧
    (hears → m.part = .whole → long → ¬ session → arrives = .next s) ∧
    (¬ hears → arrives = .next s) ∧
    (hears → m.part ≠ .whole → forUs c.val m L = false → arrives = .next s) ∧
    (opens → ¬ room → arrives = .next (s.setLane l (refused L))) ∧
    (opens → room → size ≤ 1785 → takenBy c.val m (List.range (nMap L)) L = (some (i, k), N) →
      arrives = .next (s.setLane l (opened N))) ∧
    (opens → room → (size ≤ 1785 → takenBy c.val m (List.range (nMap L)) L = (none, N)) → (1785 < size → N = L) →
      (recvFirst N (N.ring.recv.filter (recvMatches c.val m)) = none → arrives = .next (s.setLane l (refused N))) ∧
      (recvFirst N (N.ring.recv.filter (recvMatches c.val m)) = some r → size ≤ r.d.length →
        arrives = .next (s.setLane l (opened N))) ∧
      (recvFirst N (N.ring.recv.filter (recvMatches c.val m)) = some r → r.d.length < size →
        arrives = .next (s.withLD l (endStatus 8 r errEngine stFault 1 (recvDrop r (refused N), s.sto))))) ∧
    (hears → m.part = .aborts → forUs c.val m L = true → arrives = .next (s.withLD l (tpPeerEnd c.val m (L, s.sto)))) ∧
    (canEn L c.val = true → busOff L c.val = false → canSending off c.val = none →
      exec (.canBusOff l c) s = .next (s.setLane l off)) ∧
    (canEn L c.val = true → busOff L c.val = false → canSending off c.val = some r → exec (.canBusOff l c) s = .next (s.withLD l
      (finish 8 r errEngine stFault 2 (setCan c.val (fun y => { y with
        q := y.q.filter (fun z => decide (z.map ≠ 2048))
        cur := match y.cur with
          | some z => if z.map = 2048 then none else some z
          | none => none }) off, s.sto)))) ∧
    (canEn L c.val = false ∨ busOff L c.val = true → exec (.canBusOff l c) s = .next s) ∧
    (busOff L c.val = true → exec (.busOffRecovery l c) s = .next (s.setLane l (canStart c.val
      ((((L.setB (F.CGW_CHc_STAT_BUSOFF c.val) false).setB (F.CGW_CHc_STAT_PASSIVE c.val) false).putN
        (F.CGW_CHc_STAT_TEC c.val) 0).putN (F.CGW_CHc_STAT_REC c.val) 0)))) ∧
    (busOff L c.val = false → exec (.busOffRecovery l c) s = .next s) ∧
    (C.cur = some x → x.map ≠ 2048 ∨ canSending next c.val = none →
      exec (.canFrameAcknowledged l c) s = .next (s.setLane l next)) ∧
    (C.cur = some x → x.map = 2048 → canSending next c.val = some r → exec (.canFrameAcknowledged l c) s =
      .next (s.withLD l (finish 8 { r with progress := r.d.length } 0 stDone 0 (next, s.sto)))) ∧
    (C.cur = none → exec (.canFrameAcknowledged l c) s = .next s) ∧
    (sends → busOff L c.val = false → mode ≠ 4 ∨ L.b (F.CGW_CHc_STAT_ADDR_OK c.val) = true → q.1 = .ok bs →
      exec (.canSend l) s = .next (s.withLD l (canQueue c.val
        ⟨2048, canKey mode (if mode = 4 then isoId id0 (bitsOf r.d.w5 8 8) (canAddr q.2.1 c.val) else id0), big, bitsOf r.d.w5 8 8, bs⟩
          (setEng 8 { getEng q.2.1 8 with run := some { r with aux := 1 } } q.2.1), q.2.2))) ∧
    (sends → busOff L c.val = true → exec (.canSend l) s = .next (s.withLD l (finish 8 r errEngine stFault 2 (L, s.sto)))) ∧
    (sends → busOff L c.val = false → mode = 4 → L.b (F.CGW_CHc_STAT_ADDR_OK c.val) = false →
      exec (.canSend l) s = .next (s.withLD l (finish 8 r errEngine stFault 4 (L, s.sto)))) ∧
    (runningOp L 8 0x01 = none → exec (.canSend l) s = .next s) ∧
    (runningOp L 8 0x02 = some r → r.abort = false → ∃ W : Lane, exec (.canRecv l) s = .next (s.withLD l (engineNext 8 (W, s.sto))) ∧
      W.ring.recv = L.ring.recv ++ [r] ∧ (W.ring.eng = (setEng 8 { getEng L 8 with run := none } L).ring.eng) ∧ W.mem = L.mem) ∧
    (runningOp L 8 0x02 = none → exec (.canRecv l) s = .next s) ∧
    (canEn L c.val = false ∨ canIso L c.val = false → ∀ b, exec (.tpTimeout l c b u) s = .next s) ∧
    (canEn L c.val = true → canIso L c.val = true → C.rx[u.val]? = none → exec (.tpTimeout l c true u) s = .next s) ∧
    (canEn L c.val = true → canIso L c.val = true → C.rx[u.val]? = some o →
      (o.da ≠ 0xFF → exec (.tpTimeout l c true u) s =
        .next (s.setLane l (setCan c.val (fun y => { y with rx := y.rx.eraseIdx u.val }) (abort L)))) ∧
      (o.da = 0xFF → exec (.tpTimeout l c true u) s =
        .next (s.setLane l (setCan c.val (fun y => { y with rx := y.rx.eraseIdx u.val }) L)))) ∧
    (canEn L c.val = true → canIso L c.val = true → out[u.val]? = none → exec (.tpTimeout l c false u) s = .next s) ∧
    (canEn L c.val = true → canIso L c.val = true → out[u.val]? = some x →
      (x.map ≠ 2048 → exec (.tpTimeout l c false u) s = .next (s.setLane l (canStart c.val (without (abort L))))) ∧
      (x.map = 2048 → canSending (abort L) c.val = some r → exec (.tpTimeout l c false u) s =
        .next (s.withLD l (finish 8 r errEngine stFault 3 (without (abort L), s.sto))))) ∧
    (canEn L c.val = true → canIso L c.val = true → C.claiming = none → L.b (F.CGW_CHc_STAT_ADDR_OK c.val) = false →
      C.lost = false → exec (.addressClaim l c) s = .next (s.setLane l (setCan c.val (fun y =>
        { y with claiming := some (L.n (F.CGW_CHc_CFG_PREF c.val)), tryNext := 0 }) L))) ∧
    (C.lost = true ∨ canEn L c.val = false ∨ canIso L c.val = false → exec (.addressClaim l c) s = .next s) ∧
    (C.claiming = some a → exec (.addressClaimComplete l c) s = .next (s.setLane l (setCan c.val (fun y => { y with claiming := none })
      ((L.setB (F.CGW_CHc_STAT_ADDR_OK c.val) true).putN (F.CGW_CHc_STAT_ADDR c.val) a)))) ∧
    (C.claiming = none → exec (.addressClaimComplete l c) s = .next s) ∧
    (due → k.tgt = 0 ∨ (k.tgt = 2 ∧ k.staten = false) → exec (.canRxTimeout l j) s =
      .next (s.setLane l (raise 0x0DD (cgwEvent (2 * k.ch + 1) E)))) ∧
    (due → k.tgt = 1 → exec (.canRxTimeout l j) s =
      .next (s.setLane l (raise 0x0DD (cgwEvent (2 * k.ch + 1) (putBit (canBufAddr k.index) 31 false E))))) ∧
    (due → k.tgt = 2 → k.staten = true → exec (.canRxTimeout l j) s = .next (s.setLane l
      (raise 0x0DD (cgwEvent (2 * k.ch + 1) (putBit (sampleOff E + 4 * k.sword) k.sbit false E))))) ∧
    (smFind L.cgw.age j.val = none → exec (.canRxTimeout l j) s = .next s)

/-- The storage die's own events (R367, R368, R370 to R373): supply, mounting and links follow one another; a lost supply
takes all three links down; a codeword with more than 72 corrections loses its sector and raises 0x0E1 in every linked lane,
one with more than 40 is rewritten and raises 0x0E2; the patrol steps its position and its passes and is reported when more
than 4 hours behind. Choices of the model it rests on: log entries 3, 11, 90, 91. -/
def Obligations.TheStorageDieServesItsLanes : Prop :=
  ∀ (l : LaneId) (s : State) (b : Fin 8192) (g n : Nat),
    let L := s.lane l
    let d := s.sto
    let ln := { d with links := d.links ||| laneBit L.id }
    let down := raise 0x0E0 (steEvent 1 (Lane.inc (showWait ((steShow L d).setB F.STE_STAT_LINK false)) F.STE_ERR_LINK_CNT))
    let seen := fun (x : StorageDie) (f : Lane → Lane) => onLinked d f { s with sto := x }
    let pos := { d with patrolPos := b.val, reads := smSet d.reads b.val (smGet d.reads b.val 0 + 1) }
    (d.powered = false → ∃ t, exec .storageDiePowerOn s = .next t ∧ t.sto.powered = true ∧ t.sto.mounted = false ∧ t.sto.links = 0 ∧
      t.sto.stoA.staging = [] ∧ t.sto.stoB.staging = [] ∧ t.sto.stoC.staging = [] ∧ t.sto.shared = d.shared ∧ t.lane l = L) ∧
    (d.powered = true → exec .storageDiePowerOn s = .next s) ∧
    (d.powered = true → exec .steMount s = .next { s with sto := { d with mounted := true } }) ∧
    (d.powered = false → d.mounted = false → exec .steMount s = .next s) ∧
    (∃ t, exec .storageDiePowerLoss s = .next t ∧ t.sto.powered = false ∧ t.sto.mounted = false ∧ t.sto.links = 0 ∧
      ((∀ x, (getEng (s.lane x) 1).run = none ∧ (getEng (s.lane x) 4).run = none) →
        t.sto.shared = d.shared ∧ t.sto.retired = d.retired ∧ ∀ x, (stoOf t.sto x).data = (stoOf d x).data)) ∧
    (L.live = true → d.mounted = true → linkUp L d = false → exec (.storageLinkUp l) s =
      .next (s.withLD l (pump (steSync (showWait (steEvent 0 (L.setB F.STE_STAT_LINK true)), ln))))) ∧
    (d.mounted = false ∨ linkUp L d = true → exec (.storageLinkUp l) s = .next s) ∧
    (linkUp L d = true → exec (.storageLinkDown l) s = .next (s.withLD l (endLink 4 (endLink 1
      ({ down with evr := { down.evr with waitSeal := none } }, { d with links := d.links &&& ~~~ laneBit L.id }))))) ∧
    (linkUp L d = false → exec (.storageLinkDown l) s = .next s) ∧
    (d.mounted = true → 72 < n → exec (.relocation b g n false) s = .next (seen (logEntry 3 b.val n (markBad g d))
      (fun A => raise 0x0E1 (steEvent 4 (A.inc F.STE_ERR_UE_CNT))))) ∧
    (d.mounted = true → 40 < n → n ≤ 72 → exec (.relocation b g n false) s = .next (seen (logEntry 2 b.val n d)
      (fun A => raise 0x0E2 (steEvent 5 (A.inc F.STE_ERR_RELOC_CNT))))) ∧
    (n ≤ 40 → exec (.relocation b g n true) s = .next s) ∧
    (d.mounted = true → d.retired.contains b.val = false → exec (.readDisturbRelocate b) s = .next
      (seen (logEntry 2 b.val 0 { d with reads := smErase d.reads b.val }) (fun A => steEvent 5 (A.inc F.STE_ERR_RELOC_CNT)))) ∧
    (d.mounted = true → d.patrolLate = false → d.patrolPos ≤ b.val → n ≤ 40 → exec (.patrolRead b g n) s =
      .next { s with sto := pos }) ∧
    (d.mounted = true → d.patrolLate = false → 14400000000 < patrolBehind d → exec .patrolLate s =
      .next (seen { d with patrolLate := true } (raise 0x0E6))) ∧
    (patrolBehind d ≤ 14400000000 → exec .patrolLate s = .next s) ∧
    (d.mounted = false → exec (.relocation b g n true) s = .next s ∧ exec (.readDisturbRelocate b) s = .next s ∧
      exec (.patrolRead b g n) s = .next s ∧ exec .patrolLate s = .next s) ∧
    (∀ (p : Nat) (bs : List Byte), bs.length = 4096 → smSorted (partBytes d l p) = true → g < 2 ^ 20 →
      readSecs (writeSecs p g bs l d) l p g 1 = bs ∧ (∀ i, i < 4096 → ∀ q, (q ≠ g → q < 2 ^ 20 →
        smGet (partBytes (writeSecs p g bs l d) l p) (byteKey p (4096 * q + i)) 0 =
          smGet (partBytes d l p) (byteKey p (4096 * q + i)) 0)))

/-- STORAGE descriptors (R367, R380 to R383, R140): READ moves the sectors to DST, WRITE programs them, TRIM makes them zero
and VERIFY checks them; a descriptor of one unit ends DONE with its PROGRESS, an unreadable sector ends READ and VERIFY with
ERR_ENGINE and DETAIL 1, a lost link ends each with ERR_LINK, a die that does not respond with DETAIL 3 and source 0x0E7, a block whose program fails is
retired and the WRITE goes on (R368); without a running descriptor of its kind a row changes nothing. Choices of the model it rests on: log entries 3, 22, 93. -/
def Obligations.StorageDescriptorsMoveSectors : Prop :=
  ∀ (l : LaneId) (s : State) (r : Run) (bs : List Byte) (i : Nat) (b : Fin 8192),
    let L := s.lane l
    let d := s.sto
    let p := dPart r
    let n := dCount r
    let isOver (ld : LD) : Prop := ∀ x, (getEng ld.1 1).run = some x → ¬ (x.ring = r.ring ∧ x.seq = r.seq)
    let ready : Prop := L.live = true ∧ r.progress = 0 ∧ 0 < n ∧ n ≤ 4 ∧ linkUp L d = true ∧ d.dieFault = false
    let clean : Prop := firstBad d L.id p (dSec r + 0) n = none
    let w := iovaWrite 1 r.d.ctx (r.d.dst + 0) (readSecs d L.id p (dSec r + 0) n) (L, d)
    let q := iovaReadN 1 r.d.ctx (r.d.src + 0) (4096 * n) (L, d)
    let x := wearStep (q.2.1, writeSecs p (dSec r + 0) bs q.2.1.id q.2.2)
    let done := fun (k : Nat) (ld : LD) => finish 1 { r with progress := k } 0 stDone 0 ld
    let bad := finish 1 r errEngine stFault 1 (L, d)
    let lost := finish 1 r errLink stFault 0 (L, d)
    let silent := finish 1 r errEngine stFault 3 (raise 0x0E7 L, d)
    (runningOp L 1 0x01 = some r → ready → clean → w.1 = .ok () → isOver (done (0 + 4096 * n) w.2) →
      exec (.read l) s = .next (s.withLD l (done (0 + 4096 * n) w.2))) ∧
    (runningOp L 1 0x02 = some r → ready → q.1 = .ok bs → isOver (done (0 + 4096 * n) x) →
      exec (.write l none) s = .next (s.withLD l (done (0 + 4096 * n) x))) ∧
    (runningOp L 1 0x03 = some r → ready → isOver (done (0 + n) (L, trimSecs p (dSec r + 0) n L.id d)) →
      exec (.trim l) s = .next (s.withLD l (done (0 + n) (L, trimSecs p (dSec r + 0) n L.id d)))) ∧
    (runningOp L 1 0x04 = some r → ready → clean → isOver (done (0 + n) (L, d)) →
      exec (.verify l) s = .next (s.withLD l (done (0 + n) (L, d)))) ∧
    (runningOp L 1 0x04 = some r → ready → firstBad d L.id p (dSec r + 0) n = some i → isOver bad →
      exec (.verify l) s = .next (s.withLD l bad)) ∧
    (runningOp L 1 0x01 = some r → ready → firstBad d L.id p (dSec r + 0) n = some i → isOver bad →
      exec (.read l) s = .next (s.withLD l bad)) ∧
    (writes L d = true → exec (.write l (some (.programFails b))) s = exec (.write l none) (retireAll b.val s)) ∧
    (writes L d = true → exec (.write l (some .noResponse)) s = exec (.write l none) { s with sto := { d with dieFault := true } }) ∧
    (writes L d = false → ∀ t, exec (.write l (some t)) s = exec (.write l none) s) ∧
    (L.live = true → linkUp L d = true → d.dieFault = true → isOver silent →
      (runningOp L 1 0x01 = some r → exec (.read l) s = .next (s.withLD l silent)) ∧
      (runningOp L 1 0x02 = some r → exec (.write l none) s = .next (s.withLD l silent)) ∧
      (runningOp L 1 0x03 = some r → exec (.trim l) s = .next (s.withLD l silent)) ∧
      (runningOp L 1 0x04 = some r → exec (.verify l) s = .next (s.withLD l silent))) ∧
    (L.live = true → linkUp L d = false → isOver lost →
      (runningOp L 1 0x01 = some r → exec (.read l) s = .next (s.withLD l lost)) ∧
      (runningOp L 1 0x02 = some r → exec (.write l none) s = .next (s.withLD l lost)) ∧
      (runningOp L 1 0x03 = some r → exec (.trim l) s = .next (s.withLD l lost)) ∧
      (runningOp L 1 0x04 = some r → exec (.verify l) s = .next (s.withLD l lost))) ∧
    (runningOp L 1 0x01 = none → exec (.read l) s = .next s) ∧ (runningOp L 1 0x02 = none → exec (.write l none) s = .next s) ∧
    (runningOp L 1 0x03 = none → exec (.trim l) s = .next s) ∧ (runningOp L 1 0x04 = none → exec (.verify l) s = .next s) ∧
    (smSorted (partBytes d l p) = true → ∀ k, k < 4096 * n →
      smGet (partBytes (trimSecs p (dSec r) n l d) l p) (byteKey p (4096 * dSec r + k)) 0 = 0)

/-- The recorder (R384, R387 to R394): EVR_WRITE appends a SOFTWARE record, EVR_FREEZE opens or extends a window,
EVR_WINLIST writes the 64 window records, EVR_RELEASE frees a closed window in Service hold and is REJECTED otherwise,
EVR_SEAL forces a close, EVR_READ ends with DETAIL 0x11 where the segment is not present; a closed segment is programmed, a
due seal signed, each by an engine that runs nothing else and then goes on with its own work (R134), and the tail starts
recording. Choices of the model it rests on: log entries 5, 65, 92, 93, 94. -/
def Obligations.TheRecorderKeepsRecordsSealsAndWindows : Prop :=
  ∀ (l : LaneId) (s : State) (r : Run) (bs : List Byte) (P : Lane) (k : Nat) (sd : SealDue) (place : Nat),
    let L := s.lane l
    let d := s.sto
    let ld : LD := (L, d)
    let run := fun (op : Nat) => runningOp L 4 op = some r
    let q := iovaReadN 4 r.d.ctx r.d.src r.d.length ld
    let w := iovaWrite 4 r.d.ctx r.d.dst (winList L) ld
    let free := fun (A : Lane) => withEvr (fun e => { e with wins := e.wins.filter (fun x => decide (x.win ≠ r.d.w4.toNat)) }) A
    let body := sealBody sd L
    let S1 := { L with lcs := { L.lcs with draws := L.lcs.draws + 1 } }
    let S2 := recordAt 9 (bytesWords (body ++ Config.sm2Sign (laneNo L.id) L.lcs.draws body) 32) S1.ckpt S1.time 0 S1
    let S3 := (writeBytes (segBase S2 S2.evr.buf + 8) (natBytesLe 8 S2.time) S2).2
    let sealed := plicRaise 77 (withEvr (fun e => { e with sealDue := none }) (S3.incMod F.EVR_SEALNO_SEALNO))
    let T1 := withEvr (fun e => { e with
      isOpen := false, fill := 0, closed := [], prev := List.replicate 32 0, brk := false, sealDue := none
      groupFirst := (stoOf d L.id).groupFirst, wins := [], nextTrig := none, force := none, endSeg := false, hist := [] }) L
    let T2 := ((T1.setB F.EVR_STAT_RUN true).putN F.EVR_SEGNO_SEGNO 0).putN F.EVR_SEALNO_SEALNO (stoOf d L.id).nextSeal
    let begun := showWait (T2.putN F.EVR_STAT_BUFS 0)
    let miss := fun (det : Word) => finish 4 r errEngine stFault det ld
    let isOver (x : LD) : Prop := ∀ y, (getEng x.1 4).run = some y → ¬ (y.ring = r.ring ∧ y.seq = r.seq)
    L.live = true →
    (run 0x01 → evrRuns L = true → q.1 = .ok bs →
      placeRecord 5 (bytesWords bs (r.d.length / 4)) q.2.1.ckpt q.2.1.time (drain q.2.1) = (true, P) →
      exec (.evrWrite l) s = .next (s.withLD l (pump (finish 4 { r with progress := r.d.length } 0 stDone 0 (P, q.2.2))))) ∧
    (run 0x01 → evrRuns L = false → exec (.evrWrite l) s = .next s) ∧
    (run 0x02 → evrRuns L = true → freezeTrigger 3 L = (P, some k) →
      exec (.evrFreeze l) s = .next (s.withLD l (pump (finish 4 r 0 stDone (toW k) (P, d))))) ∧
    (run 0x02 → evrRuns L = true → freezeTrigger 3 L = (P, none) →
      exec (.evrFreeze l) s = .next (s.withLD l (pump (finish 4 r errEngine stFault 0x12 (P, d))))) ∧
    (run 0x03 → linkUp L d = true → d.dieFault = false → r.progress = 0 → smFind (stoOf d L.id).place r.d.w4.toNat = none →
      (stoOf d L.id).segs = [] → isOver (miss 0x11) → exec (.evrRead l) s = .next (s.withLD l (miss 0x11))) ∧
    (run 0x03 → linkUp L d = true → d.dieFault = false → r.progress = 0 → r.d.length = 65536 →
      smFind (stoOf d L.id).place r.d.w4.toNat = some place → firstBad d L.id 2 (16 * place) 16 = none →
      (iovaWrite 4 r.d.ctx (r.d.dst + 0) (readSecs d L.id 2 (16 * place) 16) ld).1 = .ok () →
      isOver (finish 4 { r with progress := 65536 } 0 stDone 0
        (iovaWrite 4 r.d.ctx (r.d.dst + 0) (readSecs d L.id 2 (16 * place) 16) ld).2) →
      exec (.evrRead l) s = .next (s.withLD l (finish 4 { r with progress := 65536 } 0 stDone 0
        (iovaWrite 4 r.d.ctx (r.d.dst + 0) (readSecs d L.id 2 (16 * place) 16) ld).2))) ∧
    (run 0x04 → evrRuns L = true → L.evr.waitSeal = none → L.evr.force = none → exec (.evrSeal l) s =
      .next (s.withLD l (pump (withEvr (fun e => { e with force := some 2 }) (drain L), d)))) ∧
    (run 0x05 → w.1 = .ok () → exec (.evrWinlist l) s =
      .next (s.withLD l (finish 4 { r with progress := 2048 } 0 stDone 0 w.2))) ∧
    (winList L).length = 2048 ∧
    (run 0x06 → inServiceHold L = false → exec (.evrRelease l) s = .next (s.withLD l (finish 4 r 1 stRejected 0 ld))) ∧
    (run 0x06 → inServiceHold L = true → L.evr.wins.any (fun x => decide (x.win = r.d.w4.toNat ∧ x.state = 1)) = true →
      exec (.evrRelease l) s = .next (s.withLD l (finish 4 r 2 stRejected 0 ld))) ∧
    (run 0x06 → inServiceHold L = true → L.evr.wins.any (fun x => decide (x.win = r.d.w4.toNat ∧ x.state = 1)) = false →
      exec (.evrRelease l) s = .next (s.withLD l (pump (finish 4 r 0 stDone 0 (free L, d))))) ∧
    ((getEng L 2).run.isSome = true → exec (.sealSign l true) s = .next s) ∧
    ((getEng L 1).run.isSome = true → exec (.segmentProgram l) s = .next s) ∧
    ((getEng L 2).run = none → L.evr.sealDue = none → exec (.sealSign l true) s = .next (s.withLD l (engineNext 2 ld))) ∧
    ((getEng L 2).run = none → L.evr.sealDue = some sd → evrBufOk L = true → L.evr.isOpen = true → L.otp.idKey = true → sealed.evr.endSeg = false →
      exec (.sealSign l true) s = .next (s.withLD l (engineNext 2 (pump (sealed, d))))) ∧
    ((getEng L 1).run = none → L.evr.closed = [] → exec (.segmentProgram l) s = .next (s.withLD l (engineNext 1 ld))) ∧
    (∀ b n rest, (getEng L 1).run = none → L.evr.closed = (b, n) :: rest → linkUp L d = true → 8 ≤ d.spare → d.dieFault = true →
      exec (.segmentProgram l) s = .next (s.withLD l (engineNext 1 (raise 0x0E7 L, d)))) ∧
    (∀ b n rest gone R, (getEng L 1).run = none → L.evr.closed = (b, n) :: rest → linkUp L d = true → 8 ≤ d.spare → d.dieFault = false →
      ringPlace (stoOf d L.id) L.evr.wins = some (place, gone) → readBytes (segBase L b) 65536 L = (some bs, R) →
      R.evr.waitSeal = none → ∃ x, exec (.segmentProgram l) s = .next (s.withLD l (engineNext 1 (pump x))) ∧ x.1.evr.closed = rest ∧
        x.2 = (wearStep (R, storeSeg n place gone bs L.id d)).2) ∧
    (L.b F.EVR_CTL_EN = false ∨ L.b F.EVR_STAT_RUN = true ∨ linkUp L d = false → exec (.evrTail l) s = .next s) ∧
    (L.b F.EVR_CTL_EN = true → L.b F.EVR_STAT_RUN = false → linkUp L d = true → (stoOf d L.id).segs = [] →
      (stoOf d L.id).wins = [] → (appendRecord 8 [begun.evr.power] begun.ckpt begun.time begun).1 = some P →
      exec (.evrTail l) s = .next (s.withLD l (pump (lateTriggers P, d))))

/-! Dormant, self-test, lifecycle and crypto -/

/-- Dormant (R408 to R413): step A ends what still runs and passes AP1, or abandons there; step B waits for the recorder;
step D puts domains 1 to 6 into retention; step E puts domain 0 there and keeps the members; an enabled wake source is
remembered, and wakes a lane in Dormant; rejoin starts the timeline unlocked from cycle 0; links that go idle within 10 us
of an abandonment at AP2 make the lane follow. Choices of the model it rests on: log entries 3, 95. -/
def Obligations.DormantIsEnteredAndLeft : Prop :=
  ∀ (l : LaneId) (s : State) (k : Fin 8) (t0 : Nat),
    let L := s.lane l
    let noted := withPwr (fun p => { p with wakePend := p.wakePend ||| BitVec.ofNat 8 (2 ^ k.val) }) L
    let clear : Lane := { (withTls (fun t => { t with reqWord := none, reqStage := 0, reqAge := 0, reqEnd := none }) L) with
      evr := { L.evr with waitSeal := none } }
    let A := onL (dormPoint 1 2) (endRecv ([0, 1, 2, 3, 4, 5, 6, 7, 8].foldl (fun a r => endRun r a) (clear, s.sto)))
    (L.live = true → L.pwr.dormStep = 1 → A.1.pwr.dormStep = 2 →
      exec (.dormantStepA l) s = .next (s.withLD l (evrDormant A))) ∧
    (L.live = true → L.pwr.dormStep = 1 → A.1.pwr.dormStep ≠ 2 →
      exec (.dormantStepA l) s = .next (s.withLD l (enginesNext A))) ∧
    (L.pwr.dormStep ≠ 1 → exec (.dormantStepA l) s = .next s) ∧
    (L.live = true → L.pwr.dormStep = 2 → evrDormantDone (L, s.sto) = true → exec (.dormantStepB l) s =
      .next (s.setLane l (withPwr (fun p => { p with dormStep := 3 }) L))) ∧
    (evrDormantDone (L, s.sto) = false ∨ L.pwr.dormStep ≠ 2 → exec (.dormantStepB l) s = .next s) ∧
    (L.live = true → L.pwr.dormStep = 4 → L.pwr.wakePend = 0 → smSorted L.regs = true → L.ring.noFetch = true →
      ∃ t, exec (.dormantStepD l) s = .next t ∧ onlyLane l s t ∧ (t.lane l).pwr.dormStep = 5 ∧
        (t.lane l).n F.AOS_STAT_ON = L.n F.AOS_STAT_ON % 2 ∧
        (t.lane l).pwr.retained = L.pwr.retained ||| (BitVec.ofNat 7 (L.n F.AOS_STAT_ON) &&& 0x7E) ∧
        (t.lane l).n F.AOS_DORM_PASSED = 4 ∧ (t.lane l).b F.CHP_STAT_GATE = false ∧ (t.lane l).mem = L.mem) ∧
    (L.pwr.dormStep ≠ 4 → L.ring.noFetch = false → exec (.dormantStepD l) s = .next s) ∧
    (L.live = true → L.pwr.dormStep = 5 → L.pwr.wakePend = 0 → smSorted L.regs = true → ∃ t, exec (.dormantStepE l) s = .next t ∧
      onlyLane l s t ∧ (t.lane l).pwr.phase = .dormant ∧ (t.lane l).pwr.dormStep = 0 ∧
      (t.lane l).pwr.retained = L.pwr.retained ||| 1 ∧ (t.lane l).bit F.AOS_STAT_ON 0 = false ∧
      (inSet L.clv.members L.id = true → (t.lane l).clv.rejoin = some L.clv.members) ∧ (t.lane l).mem = L.mem) ∧
    (L.pwr.dormStep ≠ 5 → exec (.dormantStepE l) s = .next s) ∧
    (wakeEnabled k.val L = true → L.pwr.phase = .run → exec (.wakeEvent l k) s = .next (s.setLane l noted)) ∧
    (wakeEnabled k.val L = true → L.pwr.phase = .dormant → smSorted L.regs = true → ∃ t, exec (.wakeEvent l k) s = .next t ∧
      onlyLane l s t ∧ (t.lane l).pwr.phase = .waking ∧ (t.lane l).pwr.waking = L.pwr.waking ||| 1 ∧
      (t.lane l).pwr.wakePend = L.pwr.wakePend ||| BitVec.ofNat 8 (2 ^ k.val) ∧
      (t.lane l).fld F.AOS_WAKE_TIME_TIME = L.fld F.AOS_TMR_TMR) ∧
    (wakeEnabled k.val L = false → exec (.wakeEvent l k) s = .next s) ∧
    (L.pwr.phase = .waking → L.bit F.AOS_STAT_ON 0 = true → L.pwr.pll = some true → smSorted L.regs = true →
      L.b F.CLK_STAT_DEGRADED = false → ∃ t, exec (.rejoin l) s = .next t ∧ onlyLane l s t ∧ (t.lane l).pwr.phase = .run ∧
        (t.lane l).b F.TLS_STAT_RUN = true ∧ (t.lane l).b F.TLS_STAT_LOCKED = false ∧ (t.lane l).n F.TLS_STAT_CYCLE = 0 ∧
        (t.lane l).pwr.waking = L.pwr.waking ||| (L.pwr.retained &&& 0x0E) ∧ csState (t.lane l) = 1 ∧
        (t.lane l).clv.formOver = false ∧ (inSet L.clv.members L.id = true → (t.lane l).clv.members = 0 ∧
          (t.lane l).clv.rejoin = some L.clv.members) ∧ (t.lane l).mem = L.mem) ∧
    (L.pwr.phase = .run ∨ L.pwr.pll ≠ some true → exec (.rejoin l) s = .next s) ∧
    (L.live = true → L.pwr.ap2Abandon = some t0 → L.time ≤ t0 + 10000 →
      exec (.linkIdle l) s = .next (s.withLD l (onL toRejoin (stopAll (L, s.sto))))) ∧
    (L.pwr.ap2Abandon = none → exec (.linkIdle l) s = .next s)

/-- Self-test and Pepper (R419, R420, R423 to R431): a start-up list that passes goes on to substate 0x2, one that fails
stays and records its element; an element of a slice that passes steps NEXT, one that fails restarts the slice and raises
0x0F0, and of test 0x02 0x028 too; an aborted element counts, the eighth abort starves the slice with 0x0F1, a late pass raises 0x0F2; Pepper arms where
the lifecycle allows it. Choices of the model it rests on: log entries 3, 21, 34, 96. -/
def Obligations.SelfTestsRunAndReport : Prop :=
  ∀ (l : LaneId) (s : State) (k : Fin 32) (n : Fin 256) (r : Nat) (t : Nat) (x : Run) (i : TestInfo) (e : BitVec 16) (b : Byte)
    (j : Fin 8) (v : Word) (w y : BistWin) (p : Bool),
    let L := s.lane l
    let d := s.sto
    let ld : LD := (L, d)
    let E := elemComplete k.val true ld
    let P := putWin k.val { y with aborted := true } E.1
    let su : Prop := L.live = true ∧ curMode L = mStartup ∧ substate L = 1 ∧ L.b F.BSC_STAT_SU_FAIL = false
    let slice : Prop := L.live = true ∧ elemRuns L k.val = true ∧ subject L k.val = some (.slice r t)
    let used := useTime k.val (.slice r t) (marchRead t (sliceNext L r) L).2
    let again := (withBsc (fun q => { q with age := smErase q.age r, late := q.late.filter (fun z => decide (z ≠ r)) }) used).putN
      (F.BSC_SLICEr_NEXT r) 0
    let demand : Prop := L.live = true ∧ elemRuns L k.val = true ∧ subject L k.val = some (.demand x t)
    let usedD := useTime k.val (.demand x t) (marchRead t x.progress L).2
    let code := bitsOf x.d.w4 8 8
    let pp := { ((L.setB F.PPR_CTL_ARMED true).inc F.PPR_STAT_ARM_CNT) with
      ppr := { L.ppr with lfsr := if L.n F.PPR_SEED_SEED = 0 then 0xACE1 else BitVec.ofNat 16 (L.n F.PPR_SEED_SEED) } }
    (su → exec (.startupBist l none) s =
      .next (s.setLane l (holdWithoutFirmware (setSubstate 2 (L.setB F.BSC_STAT_SU_DONE true))))) ∧
    (bistFail 2 L = raise 0x028 (raise 0x0F0 L) ∧ ∀ z, z ≠ 2 → bistFail z L = raise 0x0F0 L) ∧
    (su → testInfo b.toNat = some i → e.toNat < i.elems → exec (.startupBist l (some (b, e))) s = .next (s.setLane l (bistFail b.toNat
      ((((L.putN F.BSC_LAST_TEST b.toNat).putN F.BSC_LAST_CLASS i.cls).putN F.BSC_LAST_ELEMENT e.toNat).setB
        F.BSC_STAT_SU_FAIL true)))) ∧
    (substate L ≠ 1 → ∀ o, exec (.startupBist l o) s = .next s) ∧
    (slice → (marchRead t (sliceNext L r) L).1 = true → sliceNext L r + 1 < (testOf t).elems →
      exec (.bistElementComplete l k true) s =
        .next (s.setLane l (bscShow k.val (used.putN (F.BSC_SLICEr_NEXT r) (sliceNext L r + 1))))) ∧
    (slice → (marchRead t (sliceNext L r) L).1 = true → (testOf t).elems ≤ sliceNext L r + 1 →
      exec (.bistElementComplete l k true) s = .next (s.setLane l (bscShow k.val
        (passDone k.val r (endBurst k.val r (used.putN (F.BSC_SLICEr_NEXT r) (sliceNext L r + 1))))))) ∧
    (demand → (marchRead t x.progress L).1 = true → x.progress + 1 < (testOf t).elems → exec (.bistElementComplete l k true) s =
      .next (s.setLane l (bscShow k.val
        (setEng 5 { getEng usedD 5 with run := some { x with progress := x.progress + 1 } } usedD)))) ∧
    (demand → (marchRead t x.progress L).1 = true → (testOf t).elems ≤ x.progress + 1 → exec (.bistElementComplete l k true) s =
      .next (s.withLD l (onL (bscShow k.val) (finish 5 { x with progress := x.progress + 1 } 0 stDone 0 (usedD, d))))) ∧
    (slice → p = false ∨ (marchRead t (sliceNext L r) L).1 = false → winOf (endBurst k.val r again) k.val = some w →
      exec (.bistElementComplete l k p) s = .next (s.setLane l (bscShow k.val
        (elemFailed t (sliceNext L r) (putWin k.val { w with left := 0 } (endBurst k.val r again)))))) ∧
    (demand → p = false ∨ (marchRead t x.progress L).1 = false → exec (.bistElementComplete l k p) s =
      .next (s.withLD l (onL (bscShow k.val) (finish 5 x errEngine stFault (at' 8 x.progress ||| 0x20)
        (elemFailed t x.progress usedD, d))))) ∧
    (elemRuns L k.val = false → exec (.bistElementComplete l k p) s = .next s) ∧
    (L.live = true → elemRuns L k.val = true → subject L k.val = some (.slice r t) → testAborts t = true →
      winOf L k.val = some w → w.burst = 0 → winOf E.1 k.val = some y → exec (.bistAbort l k) s = .next (s.withLD l
        (bscShow k.val (bscEvent 2 (Lane.inc (P.putN (F.BSC_SLICEr_ABORTS r) (min 8 (P.n (F.BSC_SLICEr_ABORTS r) + 1)))
          F.BSC_ERR_ABORT_CNT)), E.2))) ∧
    (demand → testAborts t = true → winOf L k.val = some w → w.burst = 0 → winOf E.1 k.val = some y →
      exec (.bistAbort l k) s = .next (s.withLD l (bscShow k.val (bscEvent 2 (Lane.inc P F.BSC_ERR_ABORT_CNT)), E.2))) ∧
    (winOf L k.val = none → exec (.bistAbort l k) s = .next s) ∧
    (L.live = true → n.val < nSlice L → L.n (F.BSC_SLICEr_ABORTS n.val) = 8 → L.b (F.BSC_SLICEr_STARVED n.val) = false →
      exec (.bistStarved l n) s = .next (s.setLane l (bscEvent 3 (plicRaise 80 (raise 0x0F1
        ((L.setB (F.BSC_SLICEr_STARVED n.val) true).inc F.BSC_ERR_STARVE_CNT)))))) ∧
    (L.n (F.BSC_SLICEr_ABORTS n.val) ≠ 8 → exec (.bistStarved l n) s = .next s) ∧
    (L.live = true → smFind L.bsc.age n.val = some r → slicePass L n.val ≠ 0 → slicePass L n.val ≤ r →
      L.bsc.late.contains n.val = false → exec (.bistPassLate l n) s = .next (s.setLane l (raise 0x0F2
        (withBsc (fun q => { q with late := n.val :: q.late }) (L.inc F.BSC_ERR_LATE_CNT))))) ∧
    (smFind L.bsc.age n.val = none → exec (.bistPassLate l n) s = .next s) ∧
    (L.live = true →
      (runningOp L 5 0x01 = some x → exec (.bistRun l none) s =
        .next (s.withLD l (finish 5 { x with progress := (testOf code).elems } 0 stDone 0 ld))) ∧
      (runningOp L 5 0x01 = some x → x.progress ≤ e.toNat → e.toNat < (testOf code).elems → exec (.bistRun l (some e)) s =
        .next (s.withLD l (finish 5 { x with progress := e.toNat } errEngine stFault (at' 8 e.toNat ||| 0x20)
          (elemFailed code e.toNat L, d)))) ∧
      (runningOp L 5 0x02 = some x → L.otp.lc ≠ 1 → L.otp.lc ≠ 3 →
        exec (.bistMfg l none) s = .next (s.withLD l (finish 5 x 1 stRejected 0 ld))) ∧
      (runningOp L 5 0x02 = some x → L.otp.lc = 1 ∨ L.otp.lc = 3 → curMode L = mStartup → substate L = 6 ∨ substate L = 7 →
        testInfo code = some i → testMem code = none → exec (.bistMfg l none) s =
          .next (s.withLD l (finish 5 { x with progress := i.elems } 0 stDone 0 ld))) ∧
      (runningOp L 5 0x03 = some x →
        (iovaWrite 5 x.d.ctx x.d.dst (wordsBytes ((List.range 256).map (sliceWord L))) ld).1 = .ok () →
        exec (.bistStatus l) s = .next (s.withLD l (finish 5 { x with progress := 1024 } 0 stDone 0
          (iovaWrite 5 x.d.ctx x.d.dst (wordsBytes ((List.range 256).map (sliceWord L))) ld).2))) ∧
      (pprAllowed L = true → L.b F.PPR_CTL_ARMED = false → exec (.pprArm l) s =
        .next (s.setLane l (plicRaise 81 (raise 0x0F3 pp)))) ∧
      (pprAllowed L = true → L.b F.PPR_CTL_ARMED = true → exec (.pprArm l) s = .next (s.setLane l (plicRaise 81 (raise 0x0F3 L)))) ∧
      (pprAllowed L = false → exec (.pprArm l) s = .next (s.setLane l (raise 0x0F4 L))) ∧
      (smSorted L.regs = true → ∃ u, exec (.pprDisarm l) s = .next u ∧ onlyLane l s u ∧ (u.lane l).b F.PPR_CTL_ARMED = false ∧
        ∀ q, q < 8 → (u.lane l).b (F.PPR_INJi_CFG_EN q) = false) ∧
      (L.b F.PPR_CTL_ARMED = false → exec (.pprInjCfg l j v) s = .next s) ∧
      (L.b F.PPR_CTL_ARMED = true → smSorted L.regs = true → ∃ u, exec (.pprInjCfg l j v) s = .next u ∧ onlyLane l s u ∧
        (u.lane l).n (F.PPR_INJi_CFG_KIND j.val) = bitsOf v 24 4 ∧ (u.lane l).n (F.PPR_INJi_CFG_TARGET j.val) = bitsOf v 16 8 ∧
        (u.lane l).b (F.PPR_INJi_CFG_EN j.val) = (bitAt v 31 && injOk (bitsOf v 24 4) (bitsOf v 16 8))))

/-- Firmware, the boot header and keys (R442 to R445, R453): firmware is verified once in a start-up, the pending slot
first; FW_VERIFY reports its cause, FW_ACTIVATE makes a slot pending, BOOTCFG writes the crystal and the pairing; KEY_SET
fills an EMPTY slot in MANUFACTURING, KEY_REVOKE takes a VALID one that is not the last of its kind; what a rule forbids
ends REJECTED with its reason. Choices of the model it rests on: log entries 50, 97, 98. -/
def Obligations.FirmwareAndKeysAreGuarded : Prop :=
  ∀ (l : LaneId) (s : State) (r : Run) (bs : List Byte),
    let L := s.lane l
    let ld : LD := (L, s.sto)
    let op := fun (k : Nat) => runningOp L 9 k = some r
    let put := fun (x : LD) => Host.Outcome.next (s.withLD l x)
    let rej := fun (reason : Nat) => put (finish 9 r reason stRejected 0 ld)
    let q := iovaReadN 9 r.d.ctx r.d.src 16 ld
    let k := keyNo r
    let kq := iovaReadN 9 r.d.ctx r.d.src 80 ld
    let pend := decide ((bootHdr L).fwFlag ≠ 0)
    let F0 := ({ L with lcs := { L.lcs with fwDone := true } }.setB F.LCS_FW_STAT_PENDING pend).putN F.LCS_FW_STAT_PSLOT
      ((bootHdr L).fwPend.toNat % 2)
    let first := (if pend then (bootHdr L).fwPend else (bootHdr L).fwAct).toNat
    let v := fwVerify (first % 2) F0
    let v2 := fwVerify (targetSlot r) L
    let mayRevoke : Prop := L.otp.lc = 1 ∨ (L.lcs.svc = true ∧ inServiceHold L = true)
    L.live = true →
    (curMode L = mStartup → substate L = 1 → L.lcs.fwDone = false → v.1.cause = 0 → substate (fwRun (first % 2) v.1 v.2) = 1 →
      exec (.firmwareVerification l) s = .next (s.setLane l (fwRun (first % 2) v.1 v.2))) ∧
    (L.lcs.fwDone = true → exec (.firmwareVerification l) s = .next s) ∧
    (op 0x32 → v2.1.cause = 0 → exec (.fwVerify l) s =
      put (finish 9 { r with progress := v2.1.step } 0 stDone 0 (fwStageSet true (targetSlot r) v2.2, s.sto))) ∧
    (op 0x32 → v2.1.cause ≠ 0 → exec (.fwVerify l) s = put (finish 9 { r with progress := v2.1.step } 0 stDone
      (toW v2.1.cause) (v2.2.putN F.LCS_FW_STAT_REFUSE v2.1.cause, s.sto))) ∧
    (op 0x33 → exec (.fwActivate l) s = put (finish 9 r 0 stDone 0
      (((bootWrite (fun b => { b with fwPend := BitVec.ofNat 8 (targetSlot r), fwFlag := 1 }) L).setB F.LCS_FW_STAT_PENDING
        true).putN F.LCS_FW_STAT_PSLOT (targetSlot r), s.sto))) ∧
    (op 0x34 → q.1 = .ok bs → lockRefuses F.LCS_CTL_LOCK q.2.1 = true →
      exec (.bootcfg l) s = put (finish 9 r 6 stRejected 0 q.2)) ∧
    (op 0x34 → q.1 = .ok bs → lockRefuses F.LCS_CTL_LOCK q.2.1 = false → wAt bs 8 = 0 → wAt bs 12 = 0 → exec (.bootcfg l) s =
      put (finish 9 { r with progress := 16 } 0 stDone 0 (bootWrite (fun b => { b with
        xtalKhz := wAt bs 0, pair := if bitAt (wAt bs 4) 0 then 1 else 0 }) q.2.1, q.2.2))) ∧
    (op 0x39 → kq.1 = .ok bs → kq.2.1.otp.lc ≠ 1 → exec (.keySet l) s = put (finish 9 r 1 stRejected 0 kq.2)) ∧
    (op 0x39 → kq.1 = .ok bs → kq.2.1.otp.lc = 1 → kq.2.1.b F.CRU_CTL_LOCK = false → (keyAt kq.2.1 k).state ≠ 0 →
      exec (.keySet l) s = put (finish 9 r 9 stRejected 0 kq.2)) ∧
    (op 0x39 → kq.1 = .ok bs → kq.2.1.otp.lc = 1 → kq.2.1.b F.CRU_CTL_LOCK = false → (keyAt kq.2.1 k).state = 0 →
      exec (.keySet l) s = put (pump (finish 9 { r with progress := 80 } 0 stDone 0
        (lcRecord 5 k kq.2.1.otp.lc 0 (setKey k ⟨1, bs.take 64, bs.drop 64⟩ kq.2.1), kq.2.2)))) ∧
    (op 0x3A → ¬ mayRevoke → exec (.keyRevoke l) s = rej 1) ∧
    (op 0x3A → mayRevoke → lockRefuses F.CRU_CTL_LOCK L = true → exec (.keyRevoke l) s = rej 6) ∧
    (op 0x3A → mayRevoke → lockRefuses F.CRU_CTL_LOCK L = false → (keyAt L k).state ≠ 1 → exec (.keyRevoke l) s = rej 9) ∧
    (op 0x3A → mayRevoke → lockRefuses F.CRU_CTL_LOCK L = false → (keyAt L k).state = 1 →
      kindValid L (keyKind k).1 (keyKind k).2 k = false → exec (.keyRevoke l) s = rej 7) ∧
    (op 0x3A → mayRevoke → lockRefuses F.CRU_CTL_LOCK L = false → (keyAt L k).state = 1 →
      kindValid L (keyKind k).1 (keyKind k).2 k = true → exec (.keyRevoke l) s = put (pump (finish 9 r 0 stDone 0
        (lcRecord 6 k L.otp.lc 0 (setKey k { keyAt L k with state := 2 } L), s.sto))))

/-- Lifecycle, SERVICE and debug (R436 to R438, R448 to R451, R455): a nonce is drawn, kept for 600 s and used once; a token
is checked in order, a refused SERVICE token counts and raises 0x0FA; SERVICE lasts as its token says; a transition is
written to OTP and takes effect at the next lane reset; debug outside the states that permit it is refused, counted and
raises 0x0FF. Choices of the model it rests on: log entries 6, 31, 98, 99. -/
def Obligations.LifecycleChangesNeedTheirTokens : Prop :=
  ∀ (l : LaneId) (s : State) (r : Run) (t n : List Byte) (typ t0 : Nat) (b : Fin 3),
    let L := s.lane l
    let ld : LD := (L, s.sto)
    let op := fun (k : Nat) => runningOp L 9 k = some r
    let put := fun (x : LD) => Host.Outcome.next (s.withLD l x)
    let g := trngDraw (trngShow true L)
    let G := { g.2 with lcs := { g.2.lcs with nonce := some (g.1, g.2.time) } }
    let gw := iovaWrite 9 r.d.ctx r.d.dst g.1 (G, s.sto)
    let q := iovaReadN 9 r.d.ctx r.d.src 128 ld
    let c := tokenCheck 1 t q.2.1
    let a := iovaReadN 9 r.d.ctx r.d.src r.d.length ld
    let A := a.2.1
    let dst := bitsOf r.d.w4 8 4
    let used := { L with lcs := { L.lcs with nonce := none } }
    (L.pwr.phase = .scrapped → L.otp.lc = 4 → inServiceHold L = false →
      ∀ d ∈ [DebugKind.debugModule, .jtagTest, .haltRequest b, .resumeRequest b],
        exec (.debugAccess l d) s = .next (s.setLane l (raise 0x0FF (L.inc F.LCS_ERR_DBGDENY_CNT)))) ∧
    (L.live = true →
    (op 0x35 → gw.1 = .ok () → exec (.svcNonce l true) s = put (finish 9 { r with progress := 32 } 0 stDone 0 gw.2)) ∧
    (op 0x35 → exec (.svcNonce l false) s = put (finish 9 r errEngine stFault 0x30 (raise 0x0FE
      ((L.setB F.CRU_STAT_TRNG_OK false).inc F.LCS_ERR_TRNG_CNT), s.sto))) ∧
    (L.lcs.nonce = some (n, t0) → t0 + 600000000000 ≤ L.time → exec (.nonceExpiry l) s = .next (s.setLane l used)) ∧
    (L.lcs.nonce = some (n, t0) → L.time < t0 + 600000000000 → exec (.nonceExpiry l) s = .next s) ∧
    (op 0x36 → q.1 = .ok t → q.2.1.otp.lc ≠ 2 → exec (.svcEnter l) s =
      put (pump (finish 9 r 1 stRejected 0 (tokenRefused true 1 t q.2.1, q.2.2)))) ∧
    (op 0x36 → q.1 = .ok t → q.2.1.otp.lc = 2 → c.1 ≠ 0 → exec (.svcEnter l) s =
      put (pump (finish 9 r c.1 stRejected 0 (tokenRefused true c.1 t c.2, q.2.2)))) ∧
    (op 0x36 → q.1 = .ok t → q.2.1.otp.lc = 2 → c.1 = 0 → exec (.svcEnter l) s =
      put (pump (finish 9 { r with progress := 128 } 0 stDone 0 (svcStart (hAt t 6) t c.2, q.2.2)))) ∧
    (tokenForm typ t = false → tokenCheck typ t L = (8, L)) ∧
    (tokenForm typ t = true → tokenBinds t L = false → tokenCheck typ t L = (4, L)) ∧
    (tokenForm typ t = true → tokenBinds t L = true → nonceOk t L = false → tokenCheck typ t L = (2, used)) ∧
    (tokenForm typ t = true → tokenBinds t L = true → (tokenCheck typ t L).2 = used) ∧
    ((tokenCheck typ t L).1 = 0 → tokenForm typ t = true ∧ tokenBinds t L = true ∧ nonceOk t L = true) ∧
    (op 0x37 → exec (.svcEnd l) s = put (pump (onL (svcEnded 2) (finish 9 r 0 stDone 0 ld)))) ∧
    (L.lcs.svc = true → L.lcs.svcEnd ≤ L.time → exec (.serviceExpiry l) s = put (pump (svcEnded 1 L, s.sto))) ∧
    (L.time < L.lcs.svcEnd → exec (.serviceExpiry l) s = put (pump ld)) ∧
    (op 0x38 → a.1 = .ok t → transition A.otp.pendLc dst = none → exec (.lcAdvance l) s =
      put (pump (finish 9 r 1 stRejected 0 (if r.d.length = 0 then A else tokenRefused false 1 t A, a.2.2)))) ∧
    (op 0x38 → a.1 = .ok t → (transition A.otp.pendLc dst).isSome = true → lockRefuses F.LCS_CTL_LOCK A = true →
      exec (.lcAdvance l) s = put (finish 9 r 6 stRejected 0 a.2)) ∧
    (op 0x38 → a.1 = .ok t → transition A.otp.pendLc dst = some 0 → dst ≠ 2 → lockRefuses F.LCS_CTL_LOCK A = false →
      exec (.lcAdvance l) s = put (pump (finish 9 { r with progress := r.d.length } 0 stDone 0
        (lcWrite dst (List.replicate 32 0) A, a.2.2)))) ∧
    (op 0x38 → a.1 = .ok t → transition A.otp.pendLc dst = some 0 → dst = 2 → lockRefuses F.LCS_CTL_LOCK A = false →
      exec (.lcAdvance l) s = (if (provisionable A).1 = true
        then put (pump (finish 9 { r with progress := r.d.length } 0 stDone 0
          (lcWrite dst (List.replicate 32 0) (provisionable A).2, a.2.2)))
        else put (finish 9 r 5 stRejected 0 ((provisionable A).2, a.2.2)))) ∧
    (op 0x38 → a.1 = .ok t → transition A.otp.pendLc dst = some typ → typ ≠ 0 → lockRefuses F.LCS_CTL_LOCK A = false →
      exec (.lcAdvance l) s = (if (tokenCheck typ t A).1 = 0
        then put (pump (finish 9 { r with progress := r.d.length } 0 stDone 0
          (lcWrite dst (Config.sm3 t) (tokenCheck typ t A).2, a.2.2)))
        else put (pump (finish 9 r (tokenCheck typ t A).1 stRejected 0
          (tokenRefused false (tokenCheck typ t A).1 t (tokenCheck typ t A).2, a.2.2))))) ∧
    (transition 1 2 = some 0 ∧ transition 1 3 = some 2 ∧ transition 2 3 = some 2 ∧ transition 2 4 = some 3 ∧
      transition 3 4 = some 0 ∧ transition 4 1 = none ∧ transition 3 1 = none) ∧
    ((lcWrite dst t L).otp.pendLc = dst ∧ (lcWrite dst t L).otp.lc = L.otp.lc) ∧
    (debugAllowed L = false → ∀ d ∈ [DebugKind.debugModule, .jtagTest, .haltRequest b, .resumeRequest b],
      exec (.debugAccess l d) s = .next (s.setLane l (raise 0x0FF (L.inc F.LCS_ERR_DBGDENY_CNT)))) ∧
    (debugAllowed L = true → b = 2 → exec (.debugAccess l (.haltRequest b)) s = .next (s.setLane l (dbgHalt L))) ∧
    (debugAllowed L = true → b = 0 → L.b F.TLS_MS_CFG_PAIR = true → ∃ u, exec (.debugAccess l (.haltRequest b)) s = .next u ∧
      onlyLane l s u ∧ (u.lane l).core0.halted = true ∧ (u.lane l).core1.halted = L.core1.halted ∧ (u.lane l).mem = L.mem) ∧
    (exec (.debugAccess l .jtagBasic) s = .next s))

/-- The crypto unit (R452, R454): SM3 hashes its message, SM2_VERIFY answers 0 or 1 as DETAIL, SM2_SIGN signs "EKSW" and the
message and is REJECTED in RETURNED, ATTEST writes its signed report, RANDOM draws from the TRNG; a failed health test ends
with DETAIL 0x30. PLIC source 78 is raised at the end of each SM2_SIGN and ATTEST. Choices of the model it rests on: log
entries 5, 6, 100. -/
def Obligations.CryptoOperationsGiveTheirResults : Prop :=
  ∀ (l : LaneId) (s : State) (r : Run) (bs : List Byte),
    let L := s.lane l
    let ld : LD := (L, s.sto)
    let op := fun (k : Nat) => runningOp L 2 k = some r
    let put := fun (x : LD) => Host.Outcome.next (s.withLD l x)
    let isOver (x : LD) : Prop := ∀ y, (getEng x.1 2).run = some y → ¬ (y.ring = r.ring ∧ y.seq = r.seq)
    let first : Prop := r.progress = 0 ∧ r.msg = [] ∧ r.d.length ≤ 4096
    let q := iovaReadN 2 r.d.ctx (r.d.src + 0) r.d.length ld
    let r1 := { r with progress := 0 + r.d.length, msg := [] ++ bs }
    let hash := cryptoPut r1 r1.progress ((Config.sm3 ([] ++ bs) ++ List.replicate 32 0).take 32) q.2
    let sg := idSign (ascii "EKSW" ++ ([] ++ bs)) (trngShow true q.2.1)
    let sign := cryptoPut r1 r1.progress sg.1 (sg.2, q.2.2)
    let vq := iovaReadN 2 r.d.ctx r.d.src 160 ld
    let ok := Config.sm2VerifyDigest (bs.take 64) ((bs.drop 64).take 32) ((bs.drop 96).take 32) ((bs.drop 128).take 32)
    let cq := iovaReadN 2 r.d.ctx r.d.src 32 ld
    let body := attestBody bs cq.2.1
    let ag := idSign body (trngShow true cq.2.1)
    let aw := iovaWrite 2 r.d.ctx r.d.dst (body ++ ag.1) (ag.2, cq.2.2)
    let rd := trngDraws ((r.d.length + 31) / 32) (trngShow true L)
    let ends := fun (e st : Nat) (det : Word) (x : LD) => finish 2 r e st det x
    L.live = true →
    (op 0x01 → first → q.1 = .ok bs → isOver hash → exec (.sm3 l) s = put hash) ∧
    (op 0x02 → vq.1 = .ok bs → exec (.sm2Verify l) s =
      put (finish 2 { r with progress := 160 } 0 stDone (if ok then 0 else 1) vq.2)) ∧
    (op 0x03 → L.otp.lc = 3 → exec (.sm2Sign l true) s = put (ends 1 stRejected 0 ld)) ∧
    (op 0x03 → L.otp.lc ≠ 3 → first → q.1 = .ok bs → isOver sign → exec (.sm2Sign l true) s = put sign) ∧
    (op 0x04 → L.otp.lc = 3 → exec (.attest l true) s = put (ends 1 stRejected 0 ld)) ∧
    (op 0x04 → L.otp.lc ≠ 3 → cq.1 = .ok bs → exec (.attest l false) s = put (ends errEngine stFault 0x30
      (raise 0x0FE ((cq.2.1.setB F.CRU_STAT_TRNG_OK false).inc F.LCS_ERR_TRNG_CNT), cq.2.2))) ∧
    (op 0x04 → L.otp.lc ≠ 3 → cq.1 = .ok bs → aw.1 = .ok () → bitAt r.d.w4 0 = false → exec (.attest l true) s =
      put (finish 2 { r with progress := 256 } 0 stDone 0 aw.2)) ∧
    (∀ e st det y, r.d.opcode = 0x03 ∨ r.d.opcode = 0x04 →
      endStatus 2 r e st det (L, y) =
        (let w := statusWrite 2 r e st det (plicRaise 78 (ringLast r.ring r.seq 2 e st L), y)
        onL (fun a =>
          let a1 := (a.incMod (F.RINGn_CI_CI r.ring)).setB (F.RINGn_STAT_BUSY r.ring) false
          let a2 := if r.d.chain = true ∧ st ≠ stDone then
            { a1 with ring := { a1.ring with broken := a1.ring.broken ||| BitVec.ofNat 32 (2 ^ r.ring) } } else a1
          let a3 := if w.1 = true then (if r.d.irq = true then plicRaise (9 + r.ring) a2 else a2)
            else ringHalt r.ring 2 (a2.setB (F.RINGn_STAT_STWB_ERR r.ring) true)
          if r.abort = true then (ringHalt r.ring 1 a3).setB (F.RINGn_CTL_ABORT r.ring) false else a3) w.2)) ∧
    (op 0x05 → exec (.random l true) s = put (cryptoPut r r.d.length (rd.1.take r.d.length) (rd.2, s.sto))) ∧
    (op 0x05 → exec (.random l false) s = put (finish 2 r errEngine stFault 0x30
      (raise 0x0FE ((L.setB F.CRU_STAT_TRNG_OK false).inc F.LCS_ERR_TRNG_CNT), s.sto))) ∧
    (bs.length = 32 → (attestBody bs L).length = 192) ∧
    (∀ k, (trngDraws k L).1.length = 32 * k ∧ (trngDraws k L).2.lcs.draws = L.lcs.draws + k) ∧
    (runningOp L 2 0x01 = none → exec (.sm3 l) s = .next s) ∧ (runningOp L 2 0x05 = none → exec (.random l true) s = .next s)
/-! Registers, memory and shared operations -/

/-- Clear registers (R17, R459): bit 0 written as 1 sets every field that the clear names to 0 and changes no other field,
memory or ring; bit 0 written as 0 changes nothing. LSM_RAWn clears the bits written as 1. -/
def Obligations.ClearsSetTheirFieldsToZero : Prop :=
  ∀ (l : LaneId) (s : State) (v : Word) (e : Fin 2) (n : Fin 3) (k : Fin 8) (x : Instr × List Fld),
    let L := s.lane l
    x ∈ [(Instr.clkXingClr l v, xingFlds), (.lmmuFltClr l v, lmmuFltFlds), (.clvErrClr l v, clvErrFlds),
      (.llkLinkClr l e v, llkLinkFlds e.val), (.cdspErrClr l v, cdspErrFlds), (.lpeErrClr l v, lpeErrFlds),
      (.meErrClr l e v, meErrFlds e.val), (.adcErrClr l v, [F.ADC_ERR_CONV_CNT]), (.pwmErrClr l n v, pwmErrFlds n.val),
      (.vduErrClr l v, [F.VDU_ERR_OC_CNT]), (.deiErrClr l v, (List.range 4).flatMap deiErrFlds),
      (.chpErrClr l v, [F.CHP_STAT_ON_CNT]), (.ssgErrClr l v, ssgErrFlds), (.nteErrClr l v, nteErrFlds),
      (.nteTerrClr l v, nteTerrFlds), (.cgwErrClr l e v, canErrFlds e.val), (.steErrClr l v, steErrFlds),
      (.evrErrClr l v, evrErrFlds), (.aosErrClr l v, aosErrFlds), (.bscErrClr l v, bscErrFlds), (.lcsErrClr l v, lcsErrFlds)] →
    L.live = true → smSorted L.regs = true →
    (bitAt v 0 = false → exec x.1 s = .next s) ∧
    (bitAt v 0 = true → ∃ t, exec x.1 s = .next t ∧ onlyLane l s t ∧ (∀ f ∈ x.2, (t.lane l).fld f = 0) ∧
      (∀ f : Fld, (∀ g ∈ x.2, g.key ≠ f.key) → (t.lane l).fld f = L.fld f) ∧ sameBeside L (t.lane l)) ∧
    (∃ t, exec (.lsmRawClear l k v) s = .next t ∧ onlyLane l s t ∧
      (t.lane l).fld (F.LSM_RAWn_RAW k.val) = L.fld (F.LSM_RAWn_RAW k.val) &&& ~~~ v ∧ sameBeside L (t.lane l)) ∧
    (∃ t, exec (.lsmEccClr l v) s = .next t ∧ onlyLane l s t ∧ sameBeside L (t.lane l) ∧
      ∀ m, m < 10 → bitAt v m = true → ∀ f ∈ eccFlds m, (t.lane l).fld f = 0)

/-- Memory and register fields read back what was written and nothing else changes; each write keeps the canonical form,
which reset memory has. -/
def Obligations.MemoryAndFieldsReadBackAsWritten : Prop :=
  (∀ l, memWf (State.reset.lane l).mem = true) ∧ (∀ l, smSorted (State.reset.lane l).regs = true) ∧
  ∀ (L : Lane) (a b : Nat) (v : Byte) (bs : List Byte) (w : Word) (f g : Fld),
    memWf L.mem = true → smSorted L.regs = true →
    (L.wrB a v).rdB b = (if b = a then v else L.rdB b) ∧ memWf (L.wrB a v).mem = true ∧
    memWf (L.wrBytes a bs).mem = true ∧ (L.wrBytes a bs).rdBytes a bs.length = bs ∧
    (b < a ∨ a + bs.length ≤ b → (L.wrBytes a bs).rdB b = L.rdB b) ∧ (L.wrW a w).rdW a = w ∧
    (L.wrBytes a bs).regs = L.regs ∧
    (f.w ≤ 32 → ((L.put f w).fld f).toNat = w.toNat % 2 ^ f.w) ∧ (g.key ≠ f.key → (L.put f w).fld g = L.fld g) ∧
    smSorted (L.put f w).regs = true ∧ (L.put f w).mem = L.mem

/-- Raising a fault source (R169, R171): before the table is locked only LSM_RAWn is set; after it, the reaction is taken on
the raising that finds the count at THRESH or above, and of a source with a forced class on every raising (R171); the count
steps and stops at 15; raising touches neither the lane's memory outside the loop engine, its rings, its network nor its
clock. Choices of the model it rests on: log entry 64. -/
def Obligations.RaisedSourcesReactPastTheirThreshold : Prop :=
  ∀ (L : Lane) (src : Nat),
    smSorted L.regs = true → src < 256 →
    (L.b F.LSM_CTL_LOCK = false → (raiseCore src L).2 = 7 ∧ (raiseCore src L).1.bit (F.LSM_RAWn_RAW (src / 32)) (src % 32) = true ∧
      (raiseCore src L).1.lsm.cnt = L.lsm.cnt) ∧
    (L.b F.LSM_CTL_LOCK = true → forcedClass src = none → lsmThresh L src ≤ raiseCount L src →
      (raiseCore src L).2 = lsmClass L src) ∧
    (L.b F.LSM_CTL_LOCK = true → forcedClass src = none → raiseCount L src < lsmThresh L src →
      (raiseCore src L).2 = 7 ∧ (raiseCore src L).1.b F.LSM_STAT_EXCL = L.b F.LSM_STAT_EXCL ∧
      (raiseCore src L).1.b F.LSM_STAT_IMM = L.b F.LSM_STAT_IMM) ∧
    (L.b F.LSM_CTL_LOCK = true → smSorted L.lsm.cnt = true →
      raiseCount (raiseCore src L).1 src = min 15 (raiseCount L src + 1)) ∧
    (L.b F.LSM_CTL_LOCK = true → src = 0x003 ∨ src = 0x060 ∨ src = 0x062 →
      (raiseCore src L).2 = (if lsmThresh L src ≤ raiseCount L src then max 2 (lsmClass L src) else 2)) ∧
    (L.b F.LSM_CTL_LOCK = true → src = 0x065 →
      (raiseCore src L).2 = (if lsmThresh L src ≤ raiseCount L src then max 3 (lsmClass L src) else 3)) ∧
    ((raise src L).ring = L.ring ∧ (raise src L).nte = L.nte ∧ (raise src L).time = L.time ∧ (raise src L).pwr = L.pwr ∧
      (raise src L).otp = L.otp ∧ (raise src L).id = L.id ∧ (raise src L).cgw = L.cgw) ∧
    (memWf L.mem = true → ∀ a, (a < lpeBase ∨ lpeBase + 0x10000 ≤ a) → (raise src L).rdB a = L.rdB a)

/-- CRC-32C (R316): the division by the polynomial 0x1EDC6F41, highest bit first, of the bytes with their bits reversed,
from the initial value of all ones, with the result's bits reversed and inverted; its check value; and the order of its
bytes in a received element of a frame: the most significant first. -/
def Obligations.CrcIsTheReflectedDivision : Prop :=
  (∀ (bs : List Byte), crc32c bs = (bs.foldl (fun c b => crcMsbFirst c b.reverse) 0xFFFFFFFF).reverse ^^^ 0xFFFFFFFF) ∧
  crc32c [0x31, 0x32, 0x33, 0x34, 0x35, 0x36, 0x37, 0x38, 0x39] = 0xE3069283 ∧
  ∀ (L : Lane) (i : Nat) (e : DirEnt) (W : List Word) (w : Word) (fresh : Byte) (body c : List Byte),
    let pl := fresh :: body ++ c
    readWords (dirAddr i) 4 L = (some W, L) → dirRaw L i = e → readW (bufAddr e) L = (some w, L) → bitAt w 31 = false →
    e.offset = 0 → body.length = e.len → c.length = 4 →
    ((element pl pl.length i L).2 = true ↔ c = wordBytesBe (crc32c (natBytesBe 4 i ++ fresh :: body)))
end

