-- ==== Sys2Proof/Tests/Slice0.lean ====
section
/-! SUPPORT. Small tests of the model, and witnesses: states and operands that meet the premises of the statements. Expected
values come from the rules that each test names, not from the model. -/

namespace Sys2Proof.Tests
open Sys2Proof Sys2Proof.Machine

set_option Elab.async false

/-- Lane A just released, and a state around a lane A. -/
def L0 : Lane := { lanePowered .a otpInit with pwr := { pwrWait with phase := .run } }
def inPhase (p : Phase) : Lane := { L0 with pwr := { L0.pwr with phase := p } }
def st (L : Lane) : State := { State.reset with laneA := L }

/-- The lane after a command at lane A, and a look at a result. -/
def after (c : Instr) (L : Lane) : Lane :=
  match exec c (st L) with
  | .next t => t.laneA
  | _ => default

/-! WellFormed refuses what has not the shape of something from outside. -/

def okX : Xfer := ⟨0, 0, [0], 0, 0⟩
theorem test_wf_other_lane : (Instr.claimIsoLost .a .a 0).wf = false ∧ (Instr.crossLaneHaltRequest .b .b).wf = false ∧
    (Instr.claimLineChange .c 1 .c true).wf = false ∧ (Instr.ownerSeen .a 1 .a).wf = false ∧
    (Instr.claimIsoLost .a .b 0).wf = true := by decide
theorem test_wf_transfers : (Instr.formTransfer .a 0 { okX with payload := [] }).wf = false ∧
    (Instr.sampleTransfer .a 0 { okX with payload := List.replicate 65 0 }).wf = false ∧
    (Instr.voteTransfer .a 0 { okX with payload := [] }).wf = false ∧
    (Instr.mirrorTransfer .a 0 { okX with payload := [] }).wf = false ∧
    (Instr.catchupTransfer .a 0 { okX with payload := [] }).wf = false ∧
    (Instr.mailboxTransfer .a 0 { okX with payload := [] }).wf = false ∧
    (Instr.timeTransfer .a 0 { okX with payload := [] } 0).wf = false ∧
    (Instr.formTransfer .a 0 { okX with payload := List.replicate 64 0 }).wf = true := by decide
def fe (n : Nat) (p : List Byte) : FrameEnd := { payload := p, fcsOk := true, octets := n, linkOk := true }
theorem test_wf_frames : (Instr.frameStart .a 0 0 []).wf = false ∧
    (Instr.dataFrame .a 0 (fe 63 [])).wf = false ∧ (Instr.nullFrame .a 0 (fe 63 [])).wf = false ∧
    (Instr.syncFrame .a 0 (fe 63 [])).wf = false ∧ (Instr.coldstartFrame .a 0 (fe 63 [])).wf = false ∧
    (Instr.claimFrame .a 0 (fe 64 (List.replicate 47 0))).wf = false ∧
    (Instr.dataFrame .a 0 (fe 64 (List.replicate 46 0))).wf = true := by decide
theorem test_wf_others : (Instr.linkTraining .a 0 (some ⟨.b, true, true, []⟩)).wf = false ∧
    (Instr.canFrameReceived .a 0 ⟨.whole, .can11, 0, 0, 0, List.replicate 9 0⟩).wf = false ∧ (Instr.lockSet .a 1 0).wf = false ∧
    (Instr.registerWrite .a 2 0).wf = false ∧ (Instr.registerWrite .a 4 0).wf = true := by decide

/-! Witnesses of the premises, statement by statement. -/

/-! Steps, reset and supplies -/
theorem witness_idle : (st L0).pending = [] ∧ L0.pwr.phase = .run ∧ L0.nte.gain = 0 ∧ L0.nte.gained = 0 ∧
    netRuns (L0.setBit F.AOS_STAT_ON 3 true) = true ∧ (L0.setBit F.AOS_STAT_ON 2 true).bit F.AOS_STAT_ON 2 = true ∧
    motRuns (L0.setBit F.AOS_STAT_ON 2 true) = true ∧ motRuns (inPhase .waitPg) = false ∧
    netRuns (inPhase .waitPg) = false ∧ (inPhase .waitPg).pwr.phase ≠ .off ∧ smSorted L0.regs = true := by decide +kernel
/-- A lane one tick of the 32,768 Hz clock before its TIMER wake source fires. -/
def fires (p : Phase) : Lane :=
  let A := ((inPhase p).put F.AOS_TMR_CMP_CMP 1).setB F.AOS_WAKE_EN_TIMER true
  { A with pwr := { A.pwr with tmrFrac := 15113 } }
theorem witness_timer : (∀ p ∈ [Phase.run, .dormant, .waitPg], let A := fires p
    A.pwr.phase ≠ .off ∧ 15625 ≤ A.pwr.tmrFrac + 512 ∧ A.fld F.AOS_TMR_TMR + 1 = A.fld F.AOS_TMR_CMP_CMP ∧
    A.b F.AOS_WAKE_EN_TIMER = true ∧ A.pwr.phase = p) ∧ ¬ 15625 ≤ L0.pwr.tmrFrac + 512 ∧ (inPhase .off).pwr.phase = .off := by
  decide +kernel
/-- A lane that takes part in a cold start, behind one that finds it lost. -/
def cold (L : Lane) : Lane := L.putN F.NTE_TIME_STAT_CS_STATE 2
theorem witness_device : (Instr.syncFrameSend .a).bindsDevice = true ∧ (Instr.rstNLow .a).bindsDevice = false ∧
    (Instr.syncFrameSend .a).laneOf = some .a ∧ (∃ t, exec (.syncFrameSend .a) (st L0) = .next t) ∧
    (Instr.timeTransfer .a 0 okX 0).laneOf = some .a ∧ (∃ t, exec (.timeTransfer .a 0 okX 0) (st L0) = .next t) :=
  ⟨rfl, rfl, rfl, ⟨_, rfl⟩, rfl, ⟨_, rfl⟩⟩
theorem witness_lanes : (Instr.rstNLow .a).laneOf = some .a ∧ (st L0).lane .a = ({ st L0 with laneB := L0 } : State).lane .a ∧ (st L0).sto = ({ st L0 with laneB := L0 } : State).sto := by
  decide +kernel
theorem witness_next : (∃ t, exec (.rstNLow .a) (st L0) = .next t) ∧ (∃ t, step { st L0 with pending := [.steMount] } = .next t) :=
  ⟨⟨_, rfl⟩, ⟨_, rfl⟩⟩
theorem witness_die : dieInv State.reset.sto := by unfold dieInv; decide +kernel
theorem witness_power_on : memKept 0x10000000 = false ∧ memWf L0.mem = true ∧ memKept 0x08000000 = true ∧ memKept 0xFFFF = true ∧
    keptKey F.TLS_STAT_RUN.key = false ∧ keptKey F.AOS_RSTCAUSE_CAUSE.key = true ∧ smSorted L0.regs = true := by decide +kernel
theorem witness_reset_causes : ¬ (L0.pwr.phase = .off ∨ L0.pwr.phase = .heldPg ∨ L0.pwr.phase = .heldDomain) ∧
    (inPhase .heldPg).pwr.phase = .heldPg ∧ L0.live = true ∧ (0x0000A55B : Word) ≠ 0x0000A55A ∧
    (inPhase .dormant).pwr.phase = .dormant ∧ (inPhase .bringUp).pwr.phase = .bringUp ∧
    (inPhase .waitPg).pwr.phase = .waitPg ∧ L0.pwr.pgOnce = false ∧ (inPhase .off).pwr.phase = .off ∧
    (inPhase .heldDomain).pwr.phase = .heldDomain ∧
    ({ L0 with pwr := { L0.pwr with pgOnce := true } } : Lane).pwr.pgOnce = true := by decide +kernel

/-- Bring-up with a crystal of 40 MHz. -/
def bring (d t : Nat) (x p : Option Bool) (pt : Nat) : Lane :=
  let L : Lane := { L0 with pwr := { pwrWait with phase := .bringUp, domNext := d, domTry := t, xtal := x, pll := p, pllTry := pt } }
  (L.putN F.CLK_STAT_XTAL_KHZ 40000).setBit F.AOS_STAT_ON 0 true
theorem witness_bring_up :
    (let L := bring 6 0 none none 0
     L.pwr.phase = .bringUp ∧ L.pwr.domNext = (6 : Fin 7).val ∧ L.pwr.domTry = 0 ∧ L.pwr.domTry < 2 ∧ L.pwr.xtal = none ∧
     95 * L.n F.CLK_STAT_XTAL_KHZ ≤ 100 * (38000 : BitVec 16).toNat ∧ 100 * (42000 : BitVec 16).toNat ≤ 105 * L.n F.CLK_STAT_XTAL_KHZ ∧
     100 * (37999 : BitVec 16).toNat < 95 * L.n F.CLK_STAT_XTAL_KHZ ∧ 105 * L.n F.CLK_STAT_XTAL_KHZ < 100 * (42001 : BitVec 16).toNat ∧
     L.bit F.AOS_STAT_ON 0 = true ∧ L.pwr.romOk = false) ∧
    (let L := bring 0 2 (some true) none 0
     L.pwr.domNext = (0 : Fin 7).val ∧ 2 ≤ L.pwr.domTry ∧ L.pwr.xtal = some true ∧ L.pwr.pll = none ∧ L.pwr.pllTry = 0) ∧
    2 ≤ (bring 0 2 (some true) none 2).pwr.pllTry := by decide +kernel
/-- A lane whose bring-up lacks nothing. -/
def brought (x : Bool) (lc : Nat) : Lane :=
  let L := bring 7 0 (some x) (if x then some true else none) 0
  { L with pwr := { L.pwr with romOk := true }, otp := { L.otp with lc := lc } }
theorem witness_release :
    (∀ x ∈ [true, false], ∀ lc ∈ [2, 4], let L := brought x lc
      L.pwr.phase = .bringUp ∧ L.pwr.domNext = 7 ∧ (L.pwr.xtal = some false ∨ (L.pwr.xtal = some true ∧ L.pwr.pll ≠ none)) ∧
      L.pwr.romOk = true ∧ L.otp.lc = lc ∧ smSorted L.regs = true) ∧
    ¬ ((bring 6 0 none none 0).pwr.domNext = 7) := by decide +kernel
theorem witness_supplies :
    L0.live = true ∧ L0.b F.CLK_STAT_DEGRADED = false ∧ (L0.setB F.CLK_STAT_DEGRADED true).b F.CLK_STAT_DEGRADED = true ∧
    (let L : Lane := { L0 with pwr := { L0.pwr with retained := 2, waking := 2 } }
     L.pwr.phase = .run ∧ L.pwr.retained.getLsbD (1 : Fin 7).val = true ∧ L.pwr.waking.getLsbD (1 : Fin 7).val = true ∧
     L.bit F.AOS_STAT_FAIL (1 : Fin 7).val = false ∧ heldFor L 0 1 = none ∧ heldFor L 1 1 = none) ∧
    (let L : Lane := { inPhase .waking with pwr := { (inPhase .waking).pwr with retained := 1, waking := 1 } }
     L.pwr.phase = .waking ∧ L.pwr.retained.getLsbD (0 : Fin 7).val = true ∧ L.pwr.waking.getLsbD (0 : Fin 7).val = true ∧
     L.bit F.AOS_STAT_FAIL (0 : Fin 7).val = false) ∧ L0.pwr.retained.getLsbD (6 : Fin 7).val = false := by decide +kernel
theorem witness_supplies_more :
    (let L := L0.putN F.TLS_MS_STAT_MODE mStartup
     ∀ k ∈ [1, 6], curMode (L.putN F.TLS_MS_STAT_SUBSTATE k) = mStartup ∧ substate (L.putN F.TLS_MS_STAT_SUBSTATE k) = k) ∧
    curMode (L0.putN F.TLS_MS_STAT_MODE mRoad) ≠ mStartup ∧ outOfReset L0 = true ∧ outOfReset (inPhase .heldPg) = false ∧
    (inPhase .heldPg).pwr.phase ≠ .off ∧ (inPhase .off).pwr.phase = .off ∧ (inPhase .off).live = false ∧
    (let L : Lane := { L0 with core0 := { L0.core0 with held := some ⟨.load, .w32, 0x20000000, 0⟩ } }
     heldFor L 0 1 = some ⟨.load, .w32, 0x20000000, 0⟩) ∧
    bitAt (0x7F : Word) 7 = false ∧ bitAt (0x80 : Word) 7 = true ∧ L0.pwr.dormStep = 0 ∧
    ({ L0 with pwr := { L0.pwr with dormStep := 1 } } : Lane).pwr.dormStep ≠ 0 ∧ ((inPhase .waking).setBit F.AOS_STAT_ON 0 true).live = true := by decide +kernel

/-! The timeline and the mode sequencer -/

/-- A lane that runs a one-entry list at point 0: ACTION, TARGET and ARG of its entry. -/
def tlLane (act tgt arg : Nat) : Lane :=
  let rec0 : List Byte := List.replicate 12 0 ++ [1] ++ List.replicate 19 0
  let A : Lane := { L0 with tls := { L0.tls with secs := [⟨1, 0, 1, rec0⟩] } }
  let B := (((A.setB F.TLS_STAT_RUN true).setB F.TLS_MS_CFG_IMG_VALID true).putN F.TLS_MS_CFG_NPOINTS 1).putN F.TLS_MS_STAT_POINT 0
  let w := arg * 2 ^ 34 + tgt * 2 ^ 26 + act * 2 ^ 18 + 7
  B.wrBytes (entAddr 0 0) (natBytesLe 8 w)
def isNext (L : Lane) : Bool := (nextEntryOf L).1 = some (0, entOf (L.rdD (entAddr 0 0))) && tlsRuns L
def hitsP (L : Lane) : Lane := atEntry 0 (entOf (L.rdD (entAddr 0 0))) L
theorem witness_entries : (∀ a ∈ [0, 1, 2, 0x08, 0x10, 0x18, 0x20, 0x28, 0x30, 0x38, 0x39, 0x3A, 0x40, 0x41, 0x48, 0x50],
      isNext (tlLane a 1 3) = true ∧ (entOf ((tlLane a 1 3).rdD (entAddr 0 0))).action = a ∧
      (entOf ((tlLane a 1 3).rdD (entAddr 0 0))).target = 1 ∧ (entOf ((tlLane a 1 3).rdD (entAddr 0 0))).arg = 3) := by
  decide +kernel
theorem witness_entry_edges : (entOf ((tlLane 0x41 16 0).rdD (entAddr 0 0))).target = 16 ∧
    (entOf ((tlLane 0x41 15 0).rdD (entAddr 0 0))).target = 15 ∧ (entOf ((tlLane 0x48 31 0).rdD (entAddr 0 0))).target = 31 ∧
    (entOf ((tlLane 0x08 2 0).rdD (entAddr 0 0))).target = 2 ∧ isNext (tlLane 0x41 16 0) = true ∧
    (hitsP (tlLane 0x30 0 0)).n F.CDSP_STAT_STATE = 0 ∧
    (hitsP ((tlLane 0x30 0 0).putN F.CDSP_STAT_STATE 1)).n F.CDSP_STAT_STATE = 1 := by decide +kernel
theorem witness_entry_busy : (hitsP (tlLane 0x10 1 0)).bit F.ADC_STAT_BUSY 1 = false ∧
    (hitsP ((tlLane 0x10 1 0).setBit F.ADC_STAT_BUSY 1 true)).bit F.ADC_STAT_BUSY 1 = true ∧
    (tlLane 0x50 0 7).live = true ∧ (hitsP (tlLane 0x50 0 7)).b F.EVR_FRZCFG_MARK = true ∧
    (hitsP ((tlLane 0x50 0 7).setB F.EVR_FRZCFG_MARK false)).b F.EVR_FRZCFG_MARK = false ∧
    (entOf ((tlLane 0x50 0 7).rdD (entAddr 0 0))).arg.testBit 15 = false := by decide +kernel
theorem witness_entry_tasks :
    (let W := (tlLane 0x30 0 3).putN F.CDSP_STAT_STATE 2
     let V : Lane := { W with dsp := { W.dsp with fromIdle := true } }
     isNext W = true ∧ (hitsP W).n F.CDSP_STAT_STATE = 2 ∧ (hitsP W).dsp.fromIdle = false ∧ (hitsP V).dsp.fromIdle = true ∧
     (hitsP V).dsp.heldTask = none ∧
     (hitsP { V with dsp := { V.dsp with heldTask := some (0, 0) } }).dsp.heldTask ≠ none ∧
     (hitsP ((tlLane 0x30 0 3).putN F.CDSP_STAT_STATE 3)).n F.CDSP_STAT_STATE = 3) := by decide +kernel
theorem witness_cycles :
    (let T := tlLane 0 0 0
     let K := T.setB F.TLS_STAT_LOCKED true
     tlsRuns T = true ∧ T.b F.TLS_STAT_LOCKED = false ∧ K.b F.TLS_STAT_LOCKED = true ∧ K.b F.TLS_STAT_HOLDOVER = false ∧
     (K.setB F.TLS_STAT_HOLDOVER true).b F.TLS_STAT_HOLDOVER = true ∧ tlsRuns K = true ∧
     synced (T.setB F.NTE_TIME_STAT_SYNCED true) = true ∧ synced (K.setB F.NTE_TIME_STAT_SYNCED true) = true ∧
     (1000 : Int) ≤ 1000 ∧ (2000 : Int) < 2001 ∧ (-2000 : Int) ≤ -2000 ∧ (-2000 : Int) ≤ 0) := by decide +kernel
theorem witness_checkpoint :
    (let T := tlLane 0x40 0 0
     let P := hitsP T
     T.live = true ∧ isNext T = true ∧ haltAsked P = false ∧ T.ring.noFetch = false ∧ P.pwr.dormStep = 0 ∧
     (ckptLane (entOf (T.rdD (entAddr 0 0))) P).pwr.dormStep = 0) := by decide +kernel
/-- A lane in Hold whose point 0 is a DORMANT point, at the checkpoint at which a voted edge to it is taken. -/
def toDormant : Lane :=
  let T := ((((tlLane 0x40 0 0).putN (F.TLS_MS_BANKn_STATE 0) 2).putN (F.TLS_MS_BANKn_POINT 0) 0).putN F.TLS_MS_STAT_SUBSTATE 7).putN
    F.TLS_MS_STAT_MODE 0
  { T with tls := { T.tls with edgeDue := some (0, false) } }
theorem witness_step_a :
    (let P := hitsP toDormant
     isNext toDormant = true ∧ haltAsked P = false ∧ P.pwr.dormStep = 0 ∧
     (ckptLane (entOf (toDormant.rdD (entAddr 0 0))) P).pwr.dormStep = 1) := by decide +kernel
/-- A context 0 that maps IOVA 0 upwards to system SRAM, in a lane. -/
def mapped (L : Lane) : Lane :=
  (((L.wrW sramBase 0x10000017).setB (F.LMMU_CTXc_ROOT_EN 0) true).putN (F.LMMU_CTXc_ROOT_ROOT 0) 0x10000).putN
    (F.LMMU_CTXc_LIMIT_LIMIT 0) 0x3FF
/-- A descriptor of ring 0, and a lane whose engine of a role runs it. -/
def runOf (op len : Nat) (w4 : Word) : Run :=
  { ring := 0, seq := 0, d := ⟨BitVec.ofNat 32 op, BitVec.ofNat 32 len, 0x1000, 0x2000, w4, 0, 0x3000, 0⟩, progress := 0, mute := false,
    abort := false, aux := 0, msg := [] }
def running (role : Nat) (r : Run) (L : Lane) : Lane :=
  setEng role { getEng L role with run := some r } ((mapped L).putN (F.RINGn_CFG_ROLE 0) role)
def mrRun : Run := runOf 1 4 0
def mrLane (w : Word) : Lane := (running 6 mrRun L0).wrW (sramBase + 0x1000) w
def reqOk (w : Word) : Bool :=
  let L := mrLane w
  let q := iovaReadN 6 mrRun.d.ctx mrRun.d.src 4 (L, stoInit)
  decide (runningOp L 6 0x01 = some mrRun ∧ L.tls.reqWord = none ∧ mrRun.d.length = 4 ∧ q.1.toOption = some (wordBytes w) ∧
    leWord (wordBytes w) = w ∧ bitsOf w 8 8 = 0 ∧ q.2.1.b F.CLV_STAT_EXCL = false ∧ L.live = true)
theorem witness_requests : reqOk 1 = true ∧ reqOk 0 = true ∧ bitsOf (1 : Word) 0 8 ≠ 0 ∧ bitsOf (0 : Word) 0 8 = 0 := by
  decide +kernel
/-- A lane that loads a list of one entry from image slot 0 into bank 1; the slot's word may be upset. -/
def loadLane (bad : Bool) : Lane :=
  let A : Lane := { tlLane 0 0 0 with upsets := if bad then [(masalaSlot 0, .double)] else [] }
  withTls (fun t => { t with loading := some (1, 0) }) A
theorem witness_loads : (∀ b ∈ [true, false], let L := loadLane b
    L.live = true ∧ L.tls.loading = some (1, 0) ∧
    (readBytes (masalaSlot (L.n F.TLS_IMG_STAT_ASLOT) + (pointRec L 0).tlOff) (8 * (pointRec L 0).tlEntries) L).1.isNone = b) := by
  decide +kernel
theorem witness_halt : (let L : Lane := { (tlLane 0x40 0 0).putN F.LSM_DBG_CTL_HALT_IN_MASK 7 with lsm := { L0.lsm with haltSeen := 2 } }
    isNext L = true ∧ haltAsked (hitsP L) = true) := by decide +kernel

/-! Images -/
def subLane (n : Nat) : Lane := L0.putN F.TLS_MS_STAT_SUBSTATE n
def fwLane (n : Nat) : Lane := { subLane n with lcs := { L0.lcs with fwSlot := some 0 } }
theorem witness_image_refused : (let L := fwLane 2
    L.live = true ∧ substate L = 2 ∧ L.lcs.fwSlot.isSome = true ∧ L.tls.verified = none ∧ (bootHdr L).imFlag = 0 ∧
    (imgVerify ((bootHdr L).imAct.toNat % 2) L).1.cause ≠ 0) := by decide +kernel
/-- A verified slot 0 whose header gives a length of 8 bytes; its first word may be upset. -/
def copyLane (bad : Bool) : Lane :=
  let A := (subLane 2).wrW (masalaSlot 0 + 8) 8
  { A with tls := { A.tls with verified := some 0 }, upsets := if bad then [(masalaSlot 0, .double)] else [] }
theorem witness_copy : (∀ b ∈ [true, false], let L := copyLane b
    L.live = true ∧ substate L = 2 ∧ L.tls.verified = some 0 ∧
    (readBytes (masalaSlot 0) (L.rdW (masalaSlot 0 + 8)).toNat L).1.isNone = b) := by decide +kernel
theorem witness_staging : (∀ x ∈ [(7, 0x20), (7, 0x21), (7, 0x22), (7, 0x23), (9, 0x30), (9, 0x31)],
    let r := runOf x.2 4095 0
    let L := running x.1 r L0
    L.live = true ∧ r.progress = 0 ∧ runningOp L x.1 x.2 = some r ∧ 0 < r.d.length ∧ r.d.length < 4096 ∧
    L.b F.TLS_MS_CFG_IMG_VALID = false ∧ (imgVerify (targetSlot r) L).1.cause ≠ 0) := by decide +kernel
theorem witness_staging_read : (∀ x ∈ [(7, 0x21), (9, 0x31)],
    let r := runOf x.2 4 0
    let L := running x.1 r L0
    0 < r.d.length ∧ r.d.length < 4096 ∧ runningOp L x.1 x.2 = some r ∧
    (iovaReadN x.1 r.d.ctx (r.d.src + 0) r.d.length (if x.1 = 7 then stageSet false 0 L else fwStageSet false 0 L, stoInit)).1.toOption
      = some [0, 0, 0, 0]) := by decide +kernel

/-! Rings and the LMMU -/
def ringOn (pi ci : Nat) (L : Lane) : Lane :=
  ((((mapped L).setB (F.RINGn_CFG_ENABLE 3) true).putN (F.RINGn_PI_PI 3) pi).putN (F.RINGn_CI_CI 3) ci).putN
    (F.RINGn_CFG_LOG2SIZE 3) 4
def dbNew (L : Lane) (v : Word) : Nat := (v.toNat % 65536 + 65536 - L.n (F.RINGn_CI_CI 3)) % 65536
theorem witness_doorbells :
    (let L := ringOn 1 65535 L0
     L.live = true ∧ L.b (F.RINGn_CFG_ENABLE 3) = true ∧ ringFill L 3 = 2 ∧ 2 ^ L.n (F.RINGn_CFG_LOG2SIZE 3) = 16 ∧
     dbNew L 15 = 16 ∧ dbNew L 16 = 17 ∧ dbNew L 1 = 2 ∧ dbNew L 0 = 1) ∧ L0.b (F.RINGn_CFG_ENABLE 3) = false := by decide +kernel
def cfgd (L : Lane) : Lane := (L.putN (F.RINGn_CFG_LOG2SIZE 3) 4).putN (F.RINGn_BASE_BASE 3) 0x80020
theorem witness_ring_control : L0.b F.RING_CTL_LOCK = false ∧ bitAt (0x80000004 : Word) 31 = true ∧ bitAt (0x80000004 : Word) 30 = false ∧
    enableOk (cfgd L0) 3 = true ∧ enableOk L0 3 = false ∧
    (getEng L0 0).run = none ∧ heldSlot (getEng L0 0) 3 = none ∧ (getEng L0 0).queued = [] ∧ L0.ring.recv = [] ∧
    (let r := { runOf 1 8 0 with ring := 3 }
     let L := running 0 r L0
     (getEng L (ringRole L 3)).run = some r ∧ r.ring = (3 : Fin 32).val) ∧
    (let r := { runOf 1 8 0 with ring := 3 }
     let Q := setEng 0 { getEng L0 0 with queued := [r] } L0
     let H := setEng 0 { getEng L0 0 with slot3 := some r } L0
     (getEng Q 0).run = none ∧ heldSlot (getEng Q 0) 3 = none ∧
     (getEng Q 0).queued.find? (fun q => decide (q.ring = (3 : Fin 32).val)) = some r ∧
     (getEng H 0).run = none ∧ heldSlot (getEng H 0) 3 = some (3, r)) ∧
    (let L := (cfgd L0).setB (F.RINGn_CFG_ENABLE 3) true
     L.b (F.RINGn_CFG_ENABLE 3) = true ∧ L.b (F.RINGn_STAT_BUSY 3) = false ∧ smSorted L.regs = true ∧
     bitsOf (0x30004 : Word) 20 4 = ringRole L 3 ∧ bitsOf (0x30004 : Word) 16 2 = ringPrio L 3 ∧
     bitsOf (0x30004 : Word) 0 4 = L.n (F.RINGn_CFG_LOG2SIZE 3)) := by decide +kernel
theorem witness_invalidation : L0.b F.LMMU_INV_BUSY = false ∧ (L0.setB F.LMMU_INV_BUSY true).b F.LMMU_INV_BUSY = true ∧
    ({ L0 with ring := { L0.ring with inv := some (0, 0, 0) } } : Lane).ring.inv = some (0, 0, 0) := by decide +kernel

/-- Ring 3 of the COPY engine with one descriptor: opcode, context mask, STATUS, upset entry. -/
def fetchLane (op mask : Nat) (bad : Bool) : Lane :=
  let A := ((cfgd (ringOn 1 0 L0)).putN (F.RINGn_CTXLO_MASK 3) mask)
  let B := A.wrWords (sramBase + 0x4000) [BitVec.ofNat 32 op, 8, 0x1000, 0x2000, 0, 0, 0x3000, 0]
  { B with upsets := if bad then [(sramBase + 0x4000, .double)] else [] }
def fetchD (op : Nat) : Desc := ⟨BitVec.ofNat 32 op, 8, 0x1000, 0x2000, 0, 0, 0x3000, 0⟩
def fetchAt (L : Lane) : Nat := L.n (F.RINGn_BASE_BASE 3) * 512 + 32 * (L.n (F.RINGn_CI_CI 3) % 2 ^ L.n (F.RINGn_CFG_LOG2SIZE 3))
theorem witness_fetch_stops : (let L := fetchLane 1 1 true
     L.live = true ∧ mayFetch 3 L = true ∧ ringRole L 3 ≠ 1 ∧ (readWords (fetchAt L) 8 L).1 = none) ∧
    (let L := fetchLane 1 2 false
     mayFetch 3 L = true ∧ (readWords (fetchAt L) 8 L).1.isSome = true ∧ ctxOk (readWords (fetchAt L) 8 L).2 3 0 = false) ∧
    mayFetch 3 L0 = false := by decide +kernel
def fetchRuns (role op : Nat) : Bool :=
  let L := (fetchLane op 1 false).putN (F.RINGn_CFG_ROLE 3) role
  let q := readWords (fetchAt L) 8 L
  let d := fetchD op
  let t := translate role d.ctx d.status true q.2
  decide (mayFetch 3 L = true ∧ captureWaits role (L, stoInit) = false ∧ ringRole L 3 = role ∧ q.1 = some [d.w0, d.w1, d.w2, d.w3, d.w4, d.w5, d.w6, d.w7] ∧
    ctxOk q.2 3 d.ctx = true ∧ d.status % 16 = 0 ∧ rangeOk q.2 d.ctx d.status 16 = true ∧
    t.1.toOption = some (sramBase + 0x3000) ∧ t.2.ring.broken.getLsbD 3 = false)
theorem witness_fetch : fetchRuns 0 0x7F = true ∧ fetchRuns 0 1 = true ∧ fetchRuns 6 0x7F = true ∧
    opInfo 6 (fetchD 0x7F).opcode (fetchD 0x7F).length = none ∧ opInfo 0 (fetchD 0x7F).opcode (fetchD 0x7F).length = none ∧
    (let d := fetchD 1
     let t := translate 0 d.ctx d.status true (readWords (fetchAt (fetchLane 1 1 false)) 8 (fetchLane 1 1 false)).2
     opInfo 0 d.opcode d.length = some ⟨false, true, 8, 8⟩ ∧ reservedOk d = true ∧ d.length ≠ 0 ∧
     rangeOk t.2 d.ctx d.src 8 = true ∧ rangeOk t.2 d.ctx d.dst 8 = true ∧ lenOk 0 d.opcode d.length = true ∧
     parmsOf 0 ⟨3, 0, d, 0, false, false, 0, []⟩ (t.2, stoInit) = none) := by decide +kernel

theorem isOver_of_none {ld : LD} {e : Nat} {r : Run} (h : (getEng ld.1 e).run = none) :
    ∀ x, (getEng ld.1 e).run = some x → ¬ (x.ring = r.ring ∧ x.seq = r.seq) := by
  intro x hx; rw [h] at hx; cases hx
theorem witness_copy_fill :
    (let r := runOf 1 4 0
     let L := running 0 r L0
     let q := iovaReadN 0 r.d.ctx (r.d.src + 0) r.d.length (L, stoInit)
     let w := iovaWrite 0 r.d.ctx (r.d.dst + 0) [0, 0, 0, 0] q.2
     L.live = true ∧ runningOp L 0 0x01 = some r ∧ r.progress = 0 ∧ r.d.length ≤ 4096 ∧ q.1.toOption = some [0, 0, 0, 0] ∧
     aliased q.2.1 r.d = false ∧ w.1.toOption = some () ∧
     (getEng (finish 0 { r with progress := r.d.length } 0 stDone 0 w.2).1 0).run = none) ∧
    (let r := runOf 2 4 0xAABBCCDD
     let L := running 0 r L0
     let wf := iovaWrite 0 r.d.ctx (r.d.dst + 0) [0xDD, 0xCC, 0xBB, 0xAA] (L, stoInit)
     runningOp L 0 0x02 = some r ∧ wf.1.toOption = some () ∧
     (getEng (finish 0 { r with progress := r.d.length } 0 stDone 0 wf.2).1 0).run = none) ∧
    (let r := { runOf 1 4 0 with d := { (runOf 1 4 0).d with w2 := 0x400000 } }
     let L := running 0 r L0
     let q := iovaReadN 0 r.d.ctx (r.d.src + 0) r.d.length (L, stoInit)
     runningOp L 0 0x01 = some r ∧ (match q.1 with | .error e => decide (e = ⟨errTranslate, 0x400000, false, true⟩) | .ok _ => false) = true ∧
     (getEng (finishErr 0 r ⟨errTranslate, 0x400000, false, true⟩ q.2).1 0).run = none) := by decide +kernel
theorem witness_boundary :
    (let r := runOf 1 4097 0
     let L := running 0 r L0
     let q := iovaReadN 0 r.d.ctx (r.d.src + r.progress) 4096 (L, stoInit)
     runningOp L 0 0x01 = some r ∧ ringRole L r.ring = 0 ∧ 4096 < r.d.length - r.progress ∧ q.1.toOption.isSome = true) := by
  decide +kernel
theorem witness_final_status :
    (let r := runOf 1 4 0
     let L := running 0 r L0
     r.abort = false ∧ (statusWrite 0 r 0 stDone 0 (onL (ringLast r.ring r.seq 0 0 stDone) (L, stoInit))).1 = true ∧
     r.d.chain = false ∧ r.d.irq = false ∧ (runOf 0x101 4 0).d.irq = true ∧ (runOf 0x401 4 0).d.chain = true ∧ stFault ≠ stDone ∧
     (statusWrite 0 r 0 stDone 0 (L0, stoInit)).1 = false ∧ (runOf 4 4 0).d.opcode = 4 ∧
     (statusWrite 0 { r with abort := true } 0 stAborted 0 (onL (ringLast r.ring r.seq 0 0 stAborted) (L, stoInit))).1 = true) := by
  decide +kernel

/-! Crossings and accesses -/
def crossed (p : Posted) (ret : List (Nat × Word)) (wait : Bool) : Lane :=
  { L0 with posted := [p], aosRet := ret, core0 := { L0.core0 with resp := if wait then .waiting else .idle } }
theorem witness_crossings :
    outOfReset L0 = true ∧ xingId (1 : Byte).toNat = true ∧ xingId (0x14 : Byte).toNat = true ∧
    (∀ b ∈ [false, true], let L := crossed ⟨if b then some 0 else none, 0x40000008, 3⟩ [(0, 5)] true
     let L1 := (pepper 1 0x10 (fun _ => true) L).2
     let m := pepper 7 0x10 (fun _ => true) L1
     m.1 = none ∧ m.2.posted = [⟨if b then some 0 else none, 0x40000008, 3⟩] ∧ m.2.aosRet = [(0, 5)] ∧
     (coreOf m.2 0).resp = .waiting) ∧ (0x10 : Byte) ≠ 0x11 ∧ (1 : Byte) ≠ 0x10 ∧ (1 : Byte) ≠ 0x11 := by decide +kernel
theorem witness_isolators : L0.live = true ∧ LaneId.b ≠ L0.id ∧ (L0.setB F.TLS_MS_CFG_PAIR true).b F.TLS_MS_CFG_PAIR = true ∧
    L0.b F.TLS_MS_CFG_PAIR = false := by decide +kernel
def coreLane : Lane := fwLane 3
theorem witness_core_access :
    (let L := coreLane
     let n := (0x20000040 : Word).toNat
     coreMay L 0 = true ∧ L.b F.PPR_CTL_ARMED = false ∧ accessBad L .load .w32 n = false ∧ accessBad L .store .w32 n = false ∧
     inBlocks n = false ∧ inTimer n = false ∧ inPlic n = false ∧ accessDomain n = some 1 ∧ L.bit F.AOS_STAT_FAIL 1 = false ∧
     L.pwr.retained.getLsbD 1 = false ∧ cacheOf .load n = none ∧ cacheable n = false ∧ inRange n (lpeBase + 0xD00) 0x300 = false ∧
     inRange (lpeBase + 0xCFC) (lpeBase + 0xD00) 0x300 = false ∧
     (physRead n 4 (L, stoInit)).1.toOption = some [0, 0, 0, 0] ∧ (physRead n 4 (L, stoInit)).2.1.b F.PPR_CTL_ARMED = false ∧
     (physWrite n (storeBytes .w32 7) (L, stoInit)).1.toOption = some () ∧
     accessBad L .load .w32 0x10000041 = true ∧ accessBad L .store .w32 0x0 = true ∧
     accessBad L .load .w32 (0x70000000 + (0xFFFFFC : BitVec 24).toNat) = false ∧ linkUp L stoInit = false) := by decide +kernel
/-- A lane whose core 0 holds one word of system SRAM in its data cache. -/
def cached : Lane := { coreLane with cache := [⟨9, 0, 0x10000040, none⟩] }
theorem witness_cached_access :
    (let n := (0x10000040 : Word).toNat
     coreMay cached 0 = true ∧ accessBad cached .load .w32 n = false ∧ accessDomain n = some 0 ∧ accXings n = none ∧
     cacheOf .load n = some 9 ∧ cacheOf .fetch n = some 8 ∧ cacheable n = true ∧
     (cacheFind 9 0 (n - n % eccBytes 9) cached).isSome = true ∧ cacheRead 9 0 (n - n % eccBytes 9) cached = (true, cached) ∧
     accessBad cached .store .w8 n = false ∧ (physWrite n (storeBytes .w8 7) (cached, stoInit)).1.toOption = some ()) := by decide +kernel
theorem witness_domain_access :
    (coreLane.setBit F.AOS_STAT_FAIL 1 true).bit F.AOS_STAT_FAIL 1 = true ∧
    ({ coreLane with pwr := { coreLane.pwr with retained := 2 } } : Lane).pwr.retained.getLsbD 1 = true ∧
    coreMay { coreLane with pwr := { coreLane.pwr with retained := 2 } } 0 = true := by decide +kernel
def linked : Lane × StorageDie := (L0.setB F.STE_STAT_LINK true, { stoInit with powered := true, mounted := true, links := 7 })
theorem witness_staging_window :
    (let L := coreLane.setB F.STE_STAT_LINK true
     linkUp L linked.2 = true ∧ coreMay L 0 = true ∧ L.b F.PPR_CTL_ARMED = false ∧ accessDomain 0x70000000 = some 4 ∧
     L.bit F.AOS_STAT_FAIL 4 = false ∧ L.pwr.retained.getLsbD 4 = false ∧ accessBad L .load .w32 0x70000000 = false ∧
     accessBad L .store .w32 0x70FFFFFC = false ∧ accessBad L .load .w32 0x70000002 = true ∧
     stagRead 0 4 (stoOf linked.2 L.id) = some [0, 0, 0, 0]) := by decide +kernel
/-- A lane in which core 0 may load a word of X memory, and the crossings of that access. -/
def ldX : BusAcc := ⟨0, .load, .w32, 0x20000040, 0⟩
def stX : BusAcc := ⟨0, .store, .w32, 0x20000040, 7⟩
theorem witness_carried :
    outOfReset coreLane = true ∧ accXings 0x20000040 = some (1, 2) ∧ accCarried coreLane 1 (some ldX) = some (ldX, true) ∧
    accCarried coreLane 2 (some ldX) = some (ldX, false) ∧ accCarried coreLane 1 (some stX) = some (stX, true) ∧
    accCarried coreLane 1 none = none ∧ ldX.op ≠ .store ∧ stX.op = .store ∧ xingId 1 = true ∧ xingId 2 = true ∧
    xingWakes 1 coreLane = false ∧ xingWakes 2 coreLane = false ∧
    xingWakes 1 { coreLane with pwr := { coreLane.pwr with waking := 2 } } = true := by decide +kernel
theorem witness_registers : L0.live = true ∧ inRange 0x40015000 0x40015000 0x1000 = true ∧ (0x40015000 : Word).toNat % 4 = 0 ∧
    inRange 0x40015FFC 0x40015000 0x1000 = true ∧
    (1 : Word).toNat % 4 ≠ 0 ∧ (L0.setB F.LSM_CTL_LOCK true).b F.LSM_CTL_LOCK = true ∧ F.CRU_CTL_LOCK ∈ lockBits ∧
    F.CRU_CTL_LOCK ≠ F.EVR_CTL_LOCK ∧ F.GPIO_OUT_OUT.acc = .rw ∧ F.AOS_TMR_TMR.acc = .ro ∧ F.AOS_SWRST_KEY.acc = .wo ∧
    F.GPIO_EVSTAT_EV.acc = .w1c ∧ F.CRU_CTL_LOCK.acc = .w1s ∧ F.EVR_FRZCFG_MARK.acc = .rwl := by decide +kernel

/-! Clove and the lane links -/
/-- A good transfer of a TYPE on link 0 of lane A, from lane B; SEQ and the last and CTL bits as given. -/
def xfer (typ seq low : Nat) (aux0 : Word) (ws : List Word) : Xfer :=
  let h : Word := BitVec.ofNat 32 (seq * 2 ^ 16 + typ * 2 ^ 13 + (ws.length - 1) * 2 ^ 7 + low + 1)
  ⟨h, aux0, ws, crcWords (h :: aux0 :: ws), 0⟩
def up (L : Lane) : Lane := (L.setB (F.LLK_LINKl_STAT_UP 0) true).setB (F.LLK_LINKl_STAT_UP 1) true
def member (L : Lane) : Lane := withClv (fun c => { c with members := 3 }) (up L)
theorem witness_checks :
    (let x := xfer 1 0 0 0 [7]
     L0.b F.PPR_CTL_ARMED = false ∧ xfTyp x = 1 ∧ crcWords (x.hdr0 :: x.aux0 :: x.payload) = x.crc ∧
     x.payload.length = bitsOf x.hdr0 7 6 + 1 ∧ bitsOf x.hdr0 0 2 = laneNo (linkPeer L0.id 0) ∧ voter L0 = false ∧
     L0.clv.tookNum = false ∧ voter (member L0) = true ∧ xfSeq x = (member L0).ckpt.toNat % 65536 ∧
     xfSeq (xfer 1 1 0 0 [7]) ≠ (member L0).ckpt.toNat % 65536 ∧ xfTyp (xfer 2 0 0 0 [7]) ≠ 1) := by decide +kernel
theorem witness_receivers :
    (∀ t ∈ [0, 1, 2, 3, 4, 5, 6], (checkXfer t 0 (xfer t 0 0 0 [7]) (up L0)).1 = true) ∧ linkIsUp (up L0) 0 = true ∧
    linkIsUp L0 0 = false ∧ (checkXfer 0 0 okX (up L0)).1 = false ∧ L0.live = true ∧
    (checkXfer 4 0 (xfer 4 0 0 0 [7]) ((up L0).putN F.CLV_STAT_REINT_STATE 2)).2.n F.CLV_STAT_REINT_STATE = 2 ∧
    (writeWords (mbxBase + 0x8000) [7] (checkXfer 5 0 (xfer 5 0 0 0 [7]) (up L0)).2).2.b F.LLK_MBX_RX_VALID = false := by
  decide +kernel
theorem witness_mailbox :
    (∀ v ∈ [true, false], ∀ m ∈ [none, some (0, 1)],
      let L := withClv (fun k => { k with mbx0 := m }) ((up L0).setB F.LLK_MBX_RX_VALID v)
      ∀ low ∈ [0, 0x40], let x := xfer 5 0 low 1 [7]
        (checkXfer 5 0 x L).1 = true ∧
        (let M := (writeWords (mbxBase + 0x8000 + 4 * (x.aux0.toNat % 4096)) x.payload (checkXfer 5 0 x L).2).2
         M.clv.mbx0 = m ∧ M.b F.LLK_MBX_RX_VALID = v ∧ xfLast x = decide (low = 0x40))) ∧
    0 + 1 = (xfer 5 0 0 1 [7]).aux0.toNat % 4096 := by decide +kernel
/-- A member with a round open. -/
def inRound (prov : Option (List Word)) : Lane := withClv (fun c => { c with round := true, prov := prov }) (member L0)
theorem witness_rounds :
    (let V := hear true 0 (checkXfer 2 0 (xfer 2 0 0 0 [7]) (inRound none)).2
     V.clv.round = true ∧ V.clv.voteDone = false ∧ (rxV V 0).done = false ∧ V.clv.prov = none ∧ V.tls.reqEnd = none ∧
     (checkXfer 2 0 (xfer 2 0 0 0 [7]) (inRound none)).1 = true) ∧
    (checkXfer 1 0 (xfer 1 0 0 0 [7]) (inRound none)).1 = true ∧ (inRound none).clv.round = true ∧ (inRound none).clv.prov = none ∧
    (inRound (some [])).clv.prov.isSome = true ∧ (inRound (some [])).clv.voteDone = false ∧ L0.clv.round = false ∧
    L0.tls.reqEnd = none ∧ (otherMembers (inRound none)).all (fun m => !(rxS (inRound none) (linkOf (inRound none) m)).done) = true := by
  decide +kernel
theorem witness_release_formation :
    (inRound none).clv.released = false ∧ keepsTime (checkpointRecord (drain (releaseVoted (inRound none)))) = false ∧
    forming (subLane 5) = true ∧ forming L0 = false ∧ bitAt (1 : Word) 0 = true ∧ bitAt (0 : Word) 0 = false ∧
    (L0.putN F.CLV_STAT_REINT_STATE 1).n F.CLV_STAT_REINT_STATE = 1 ∧
    (∀ r, r < (L0.putN F.CLV_STAT_REINT_STATE 1).n F.BSC_STAT_NSLICE → r ∈ L0.bsc.done) ∧ LaneId.c ≠ L0.id := by decide +kernel
theorem witness_times :
    (∀ k, k < 2 → linkIsUp L0 k = true → (peerOf L0 k).sent = true) ∧
    (let A := L0.setB (F.LLK_LINKl_STAT_UP 0) true
     linkIsUp A 0 = true ∧ (peerOf A 0).sent = false ∧ linkIsUp A 1 = false) := by decide +kernel
theorem witness_links :
    (let L := up L0
     linkIsUp L 0 = true ∧ 4 ≤ quietOf (putQuiet 0 4 L) 0 ∧ linkIsUp (putQuiet 0 4 L) 0 = true ∧ quietOf (putQuiet 0 3 L) 0 < 4 ∧
     runningOp (putQuiet 0 3 L) 3 0x01 = none ∧ L.tls.reqEnd = none ∧
     otherMembers (plicRaise 53 (raise 0x06C (putQuiet 0 0 (L.setB (F.LLK_LINKl_STAT_UP 0) false)))) = []) ∧
    (let L := subLane 4
     linkIsUp L 1 = false ∧ mayTrain L = true ∧ (⟨.c, true, false, []⟩ : TrainInfo).letter = linkPeer L.id 1 ∧
     substate (L.inc (F.LLK_LINKl_STAT_TRAIN_CNT 1)) ≠ 3 ∧
     substate (plicRaise 53 (putQuiet 1 0 (withClv (fun c => { c with dig1 := [], digDiff1 := false, train1 := 0 })
       ((((L.inc (F.LLK_LINKl_STAT_TRAIN_CNT 1)).setB (F.LLK_LINKl_STAT_UP 1) true).setB (F.LLK_LINKl_STAT_TRAINED 1) true).putN
         (F.LLK_LINKl_STAT_PEER 1) 2)))) ≠ 3) ∧
    (let r := runOf 1 4 0
     let L := running 3 r (up L0)
     runningOp L 3 0x01 = some r ∧ r.aux ≠ 1 ∧ linkIsUp L (mbLink r) = true ∧
     (iovaReadN 3 r.d.ctx r.d.src r.d.length (L, stoInit)).1.toOption = some [0, 0, 0, 0] ∧
     linkIsUp (running 3 r L0) (mbLink r) = false ∧
     runningOp (running 3 { r with aux := 1 } L0) 3 0x01 = some { r with aux := 1 }) := by decide +kernel

/-! The control DSP -/
/-- A lane whose CDSP runs a task (1) or a handler (2), with an update of its main bank. -/
def dsp (state : Nat) (f : DspSt → DspSt) : Lane :=
  { L0.putN F.CDSP_STAT_STATE state with dsp := f L0.dsp }
def task : Lane := dsp 1 id
theorem witness_alu :
    dspRuns task = true ∧ smSorted task.regs = true ∧ (0x7FFFFFFF : Word).toNat < 2 ^ 31 ∧ 2 ^ 31 ≤ (0x80000000 : Word).toNat ∧
    (15 : BitVec 6).toNat < 16 ∧ 0x18 ≤ (0x18 : BitVec 6).toNat ∧ (0x2F : BitVec 6).toNat < 0x30 ∧ 2 ^ 18 ≤ (0x40000 : Word).toNat ∧
    dstOk 0x37 = true ∧ srcOk 0x3A = true ∧ dstOk 0x38 = false ∧ srcOk 0x3B = false ∧ dstOk 0x14 = false ∧
    (-(2 ^ 31) : Int) ≤ -(2 ^ 31) ∧ (2 ^ 31 - 1 : Int) < 2 ^ 31 ∧ (-(2 ^ 31) - 1 : Int) < -(2 ^ 31) := by decide +kernel
theorem witness_alu_words :
    (let w : Word64 := aluWord 0x15 0 0 0 0
     bitsOf64 w 62 2 = 1 ∧ 0x15 ≤ bitsOf64 w 56 6) ∧
    (let w : Word64 := aluWord 2 16 0 0 0
     bitsOf64 w 62 2 = 1 ∧ 2 ≤ bitsOf64 w 56 6 ∧ 16 ≤ bitsOf64 w 50 6) ∧
    (let w : Word64 := aluWord 6 0 0 1 0
     bitsOf64 w 56 6 ∈ [0, 6, 10, 11, 12, 13, 16, 17, 20] ∧ bitsOf64 w 38 6 ≠ 0) ∧
    (let w : Word64 := aluWord 1 0 0 1 1
     bitsOf64 w 62 2 = 1 ∧ bitsOf64 w 56 6 = 1 ∧ lo32 w ≠ 0 ∧ bitsOf64 w 38 6 ≠ 0) ∧
    (let w : Word64 := aluWord 0 0 1 0 0
     bitsOf64 w 62 2 = 1 ∧ bitsOf64 w 56 6 = 0 ∧ bitsOf64 w 44 6 ≠ 0) ∧
    bitsOf64 (macWord 9 ⟨0, 0, 0, 0, 0, ⟨.none, 0, 0, 0⟩, ⟨.none, 0, 0, 0⟩⟩) 57 5 = 9 := by decide +kernel
theorem witness_quiet : dspQuiet task := by
  refine ⟨?_, ?_, ?_, ?_, ?_, ?_, ?_⟩ <;> decide +kernel
def mvN : Move := ⟨.none, 0, 0, 0⟩
theorem witness_moves : moveOk true mvN = true ∧ moveOk false mvN = true ∧ (6 : BitVec 3) ≠ 7 ∧ (4 : BitVec 4).toNat % 2 = 0 ∧
    (5 : BitVec 4).toNat % 2 = 1 ∧ (2 : BitVec 2) = 2 ∧ 3 < (dspBank task).aF.length ∧
    (let A := dsp 1 (fun d => { d with main := { bankZero with pM := List.replicate 8 131071 } })
     (nth (dspBank A).pM 0 0).toNat < 131072 ∧ (readW (xBase + 4 * 131071) A).1 = some 0 ∧ (readW (yBase + 4 * 131071) A).1 = some 0 ∧
     8 ≤ (nth (dspBank A).pM 0 0).toNat) ∧
    (let A := dsp 1 (fun d => { d with main := { bankZero with pM := List.replicate 8 131072 } })
     131072 ≤ (nth (dspBank A).pM 0 0).toNat) ∧ (nth (dspBank task).pM 0 0).toNat < 8 ∧
    (readW (pBase + 4 * (nth (dspBank task).pM 0 0).toNat) task).1 = some 0 ∧ nth task.dsp.lM 0 0 = 0 ∧
    (let A := dsp 1 (fun d => { d with main := { bankZero with pM := List.replicate 8 109 }, lM := List.replicate 8 10
                                       bM := List.replicate 8 100 })
     (dspBank A).agu = false ∧ (nth A.dsp.lM 0 0).toNat = 10 ∧ nth A.dsp.bM 0 0 = 100 ∧ nth (dspBank A).pM 0 0 = 109) := by
  decide +kernel
/-- A task with one store held for `k` cycles. -/
def holding (k : Nat) : Lane := dsp 1 (fun d => { d with out := [(.store xBase [1, 2, 3, 4], k)] })
theorem witness_held :
    (holding 2).dsp.out = [(.store xBase [1, 2, 3, 4], 2)] ∧ (holding 1).dsp.out = [(.store xBase [1, 2, 3, 4], 1)] ∧
    (∀ k, k < 4 → heldByte (holding 2) (xBase + k) = some (nth [1, 2, 3, 4] k 0)) ∧ task.dsp.out = [] ∧
    (dspBytes xBase 4 (holding 2)).1 = some [1, 2, 3, 4] ∧
    (let A := (task.setB F.BSC_STAT_BUSY true).putN F.BSC_STAT_CLASS 0
     A.b F.BSC_STAT_BUSY = true ∧ A.n F.BSC_STAT_CLASS = 0 ∧ aguNow A = true ∧ aguNow task = false) := by decide +kernel
theorem witness_budget :
    (let A := dsp 1 (fun d => { d with budget := some 0 })
     taskOn A = true ∧ budgetOut A = true ∧ A.b F.CDSP_STAT_HALTED = false) ∧ budgetOut task = false ∧
    (dsp 1 (fun d => { d with budget := some 1 })).dsp.budget = some 1 ∧ smSorted L0.regs = true := by decide +kernel
theorem witness_control :
    (dspBank task).redir = none ∧ task.dsp.flow.stack = [] ∧ task.dsp.flow.stack.length < 8 ∧ task.dsp.flow.loops.length < 2 ∧
    task.n F.CDSP_STAT_STATE = 1 ∧ (dsp 2 id).n F.CDSP_STAT_STATE = 2 ∧ dspRuns (dsp 2 id) = true ∧
    (let A := dsp 1 (fun d => { d with main := { bankZero with redir := some ⟨1, 0, 5⟩ } })
     (dspBank A).redir ≠ none ∧ dspRuns A = true) ∧
    (let A := dsp 1 (fun d => { d with flow := { d.flow with stack := List.replicate 8 3, loops := [⟨1, 2, 3⟩, ⟨1, 2, 3⟩] } })
     8 ≤ A.dsp.flow.stack.length ∧ A.dsp.flow.stack = 3 :: List.replicate 7 3 ∧ 2 ≤ A.dsp.flow.loops.length ∧ dspRuns A = true) ∧
    (1 : BitVec 16) ≠ 0 ∧ (4096 : BitVec 16).toNat ≤ 4096 ∧ 4096 < (4097 : BitVec 16).toNat ∧ task.dsp.haltReq = false ∧
    task.dsp.flow.rep ≤ 1 ∧ task.dsp.flow.loops = [] ∧ (dspBank task).fly = [] := by decide +kernel
def halted (s : Nat) : Lane := (dsp s id).setB F.CDSP_STAT_HALTED true
theorem witness_cdsp_events :
    taskOn task = true ∧ task.b F.CDSP_STAT_HALTED = false ∧ taskOn L0 = false ∧ dspRuns L0 = false ∧
    taskOn (raise 0x02A (task.inc F.CDSP_ERR_ILL_CNT)) = true ∧
    (let A := dsp 2 (fun d => { d with fromIdle := true })
     dspRuns A = true ∧ taskOn (raise 0x02A (A.inc F.CDSP_ERR_ILL_CNT)) = false) ∧
    L0.b F.CDSP_STAT_LSTOP = false ∧ (L0.setB F.CDSP_STAT_LSTOP true).b F.CDSP_STAT_LSTOP = true ∧
    debugAllowed L0 = true ∧ debugAllowed { L0 with otp := { L0.otp with lc := 2 } } = false ∧ (halted 1).b F.CDSP_STAT_HALTED = true ∧
    (halted 1).n F.CDSP_STAT_STATE = 1 ∧ debugAllowed (halted 1) = true ∧
    (let A : Lane := { halted 1 with upsets := [(pBase, .double)] }
     (readD (pBase + 8 * (dspBank A).pc) (A.setB F.CDSP_STAT_HALTED false)).1 = none) := by decide +kernel
theorem witness_cdsp_step :
    (let A : Lane := (halted 1).wrD pBase 0x8000000000000000
     let q := readD (pBase + 8 * (dspBank A).pc) (A.setB F.CDSP_STAT_HALTED false)
     debugAllowed A = true ∧ A.b F.CDSP_STAT_HALTED = true ∧ A.n F.CDSP_STAT_STATE = 1 ∧ q.1 = some 0x8000000000000000 ∧
     decDsp .a 0x8000000000000000 = some (.cdspNop .a) ∧ dspRuns q.2 = true) ∧
    irqNext L0 = none ∧
    (let A := (L0.setBit F.CDSP_STAT_IRQ_PEND 7 true).setBit F.CDSP_CFG_IEN 7 true
     irqNext A = some 7 ∧ A.n F.CDSP_STAT_STATE = 0 ∧ A.b F.CDSP_STAT_HALTED = false ∧ A.b F.CDSP_STAT_LSTOP = false) := by
  decide +kernel

/-! Loop engine, converters, motor engines, PWM, valves, interlock, chopper and GPIO -/
def busyPair (n : Nat) (irq : Bool) : Lane := { L0.setBit F.ADC_STAT_BUSY 0 true with adc := [⟨[n], irq⟩, default] }
theorem witness_conversions :
    (∀ n ∈ [0, 13, 22, 32], let L := busyPair n false
     L.live = true ∧ L.out.motStopped = false ∧ L.bit F.ADC_STAT_BUSY 0 = true ∧ (pairOf L 0).ins.contains n = true ∧ n ≠ 5 ∧ n ≠ 12 ∧
     pepper 0xB n (fun _ => true) L = (none, L) ∧ smSorted L.regs = true ∧ (pairOf L 0).irq = false) ∧
    (pairOf (busyPair 0 true) 0).irq = true ∧ ¬ (L0.live = true ∧ L0.out.motStopped = false ∧ L0.bit F.ADC_STAT_BUSY 0 = true) ∧
    memWf L0.mem = true := by decide +kernel
/-- A lane whose motor engine 0 is in a regime, with words of its table record. -/
def meLane (reg : Nat) (tbl : List (Nat × Word)) : Lane :=
  let A := ((L0.setB (F.MEe_STAT_LOADED 0) true).putN (F.MEe_STAT_REGIME 0) reg).wrW (lpeSet L0 + 8) 0x400
  tbl.foldl (fun a x => a.wrW (lpeSet L0 + 0x400 + 4 * x.1) x.2) A
def meTbl (L : Lane) : List Word := (meTable 0 L).1.getD []
theorem witness_engine_tables : (∀ g ∈ [0, 1, 2, 3, 6, 7, 8],
    let L := meLane g []
    L.live = true ∧ L.b (F.MEe_STAT_LOADED 0) = true ∧ L.b (F.MEe_STAT_FORCED 0) = false ∧ (meTable 0 L).1.isSome = true ∧
    meReg 0 (meTable 0 L).2 = g) ∧ L0.b (F.MEe_STAT_LOADED 0) = false := by decide +kernel
theorem witness_engine_switch :
    (transitions 0 (meTbl (meLane 3 [])) (meLane 3 [])).find? (fun x => x.2.2) = some (4, 0, true) ∧
    (transitions 0 (meTbl (meLane 7 [])) (meLane 7 [])).find? (fun x => x.2.2) = none ∧
    (meOf (meLane 1 [(0, 0x10000)]) 0).capN < tNCap (meTbl (meLane 1 [(0, 0x10000)])) ∧
    (let L := setMe 0 { meOf L0 0 with hfiPhase := 0, hfiStep := 256 } (meLane 2 [])
     meReg 0 L = 2 ∧ (meOf L 0).hfiPhase = 0 ∧ 256 ≤ (meOf L 0).hfiStep) := by decide +kernel
def ascLane (run : Word) (cnt : Nat) : Lane :=
  ((setMe 0 { meOf L0 0 with ladder := true } (meLane 7 [(37, 1), (38, 1)])).put (F.MEe_REFr_VALUE 0 7) run).putN
    (F.MEe_STAT_REC_CNT 0) cnt
def ascOk (run : Word) (cnt : Nat) : Bool :=
  let L := ascLane run cnt
  let r := meTbl L
  let M := (meTable 0 L).2
  decide (meReg 0 M = 7 ∧ (meOf M 0).ladder = true ∧ (meOf M 0).exhausted = false ∧ (meScale 0 5 M).v < (tq r 37).v ∧
    (meW 0 M).abs.v < (tq r 38).v ∧ meRun 0 M = decide (run = 1) ∧ M.n (F.MEe_STAT_REC_CNT 0) = cnt)
theorem witness_engine_recovery : ascOk 0 0 = true ∧ ascOk 1 2 = true ∧ ascOk 1 3 = true := by decide +kernel
/-- An engine whose overcurrent limit is always met, its low side bad, and its lane's reaction to overcurrent. -/
def ocLane (reg : Nat) (bad lock : Bool) : Lane :=
  let A := (meLane reg [(29, 0xFFFFFFFF)]).setB (F.MEe_GDF_LS_BAD 0) bad
  if lock then (A.setB F.LSM_CTL_LOCK true).putN (F.LSM_RTn_CLASS0 0x20) 4 else A
theorem witness_engine_forced :
    (let A := (meLane 3 []).setB (F.MEe_STAT_FORCED 0) true
     (meTable 0 A).2.b (F.MEe_STAT_FORCED 0) = true ∧ meReg 0 (meTable 0 A).2 = 3) ∧
    (∀ g ∈ [2, 6], ascBlocked 0 (ocLane g false false) = false ∧ ascBlocked 0 (ocLane g true false) = true ∧
      (meFault 0 3 (setRegime 0 8 (ocLane g true false))).b (F.MEe_STAT_FORCED 0) = false) ∧
    (∀ g ∈ [3, 7, 8], ocNow (meTbl (ocLane g false false)) (phases 0 (ocLane g false false)) = true) ∧
    (meFault 0 0 (ocLane 3 false true)).b (F.MEe_STAT_FORCED 0) = true ∧
    (meFault 0 0 (ocLane 3 false false)).b (F.MEe_STAT_FORCED 0) = false ∧
    ascBlocked 0 (meFault 0 0 (ocLane 3 false false)) = false ∧ ascBlocked 0 (meFault 0 0 (ocLane 3 true false)) = true := by
  decide +kernel
theorem witness_engine_faults :
    ocNow (meTbl (meLane 3 [(29, 0xFFFFFFFF)])) (phases 0 (meLane 3 [])) = true ∧ meReg 0 (meLane 3 []) ≠ 8 ∧
    ocNow (meTbl (meLane 3 [])) (phases 0 (meLane 3 [])) = false ∧
    obsDiverged 0 (meTbl (meLane 4 [])) (setMe 0 { meOf L0 0 with ihAl := 1 } (meLane 4 [])) = true ∧
    obsDiverged 0 (meTbl (meLane 4 [])) (meLane 4 []) = false ∧
    (meScale 0 5 (meLane 3 [])).v < (tq (meTbl (meLane 3 [(40, 1)])) 40).v ∧
    (tq (meTbl (meLane 3 [])) 40).v ≤ (meScale 0 5 (meLane 3 [])).v := by decide +kernel
theorem witness_commits :
    L0.b (F.PWMn_CFG_SRC 0) = false ∧ (L0.setB (F.PWMn_CFG_SRC 0) true).b (F.PWMn_CFG_SRC 0) = true ∧
    rangeOkPwm (shadowOf 0 L0) = true ∧ rangeOkPwm (shadowOf 0 (L0.putN (F.PWMn_PER_PER 0) 4000)) = true ∧
    rangeOkPwm (shadowOf 0 (L0.putN (F.PWMn_PER_PER 0) 3999)) = false ∧ L0.b (F.PWMn_CFG_PAIRING 0) = false ∧
    strictOk 0 L0 = true ∧ strictOk 0 (L0.setBit (F.PWMn_WSC_CMP 0) 0 true) = false ∧ 0 < L0.out.pwm.length ∧ smSorted L0.regs = true ∧
    (L0.setB (F.PWMn_WSC_PER 0) true).b (F.PWMn_WSC_PER 0) = true ∧ L0.b (F.PWMn_WSC_PER 0) = false := by decide +kernel
theorem witness_generators :
    L0.live = true ∧ L0.out.motStopped = false ∧ (L0.setB (F.PWMn_CFG_EN 1) true).b (F.PWMn_CFG_EN 1) = true ∧
    L0.b (F.PWMn_CFG_EN 2) = false ∧ L0.fld (F.PWMn_EVCFG_IRQ 1) = 0 ∧ L0.bit (F.PWMn_EVCFG_TRG 1) 0 = false ∧
    1 < L0.out.pwm.length ∧ (L0.setB (F.PWMn_STAT_PENDING 1) true).b (F.PWMn_STAT_PENDING 1) = true ∧
    nth (genOf L0 1).act.cmp 5 0 < (genOf L0 1).act.per ∧ nth (genOf L0 1).act.cmp 5 0 < (genOf L0 1).curPer ∧
    (let M := setGen 1 { genOf L0 1 with act := { (genOf L0 1).act with cmp := List.replicate 6 5000 } } L0
     (genOf M 1).act.per ≤ nth (genOf M 1).act.cmp 5 0) ∧
    (L0.setBit F.AOS_STAT_ON 2 true).bit F.AOS_STAT_ON 2 = true ∧ L0.bit F.AOS_STAT_ON 2 = false ∧
    ({ L0 with out := { L0.out with motStopped := true } } : Lane).out.motStopped = true ∧
    safeAct 1 (L0.setB F.PWM_MON_CLKSTOP true) = true ∧ safeAct 1 L0 = false ∧ released L0 = true ∧
    released (inPhase .bringUp) = false ∧ L0.b (F.PWMn_CFG_EN 1) = false := by decide +kernel
/-- A member that may claim group 1, in a state of the group, with claims and an owner. -/
def grpLane (stt claims owner : Nat) (G : DeiGrp) : Lane :=
  setGrp 1 G (((((withClv (fun c => { c with members := 3 }) L0).putN (F.DEI_GRPg_CTL_CHMASK 1) 3).putN (F.DEI_GRPg_STAT_STATE 1)
    stt).putN (F.DEI_GRPg_STAT_CLAIMS 1) claims).putN (F.DEI_GRPg_STAT_OWNER 1) owner)
theorem witness_claims :
    (∀ c ∈ [0, 2], let L := grpLane 0 c 3 ⟨0, false, true, false⟩
     L.live = true ∧ (grpOf L 1).want = true ∧ L.b (F.DEI_GRPg_STAT_OWN 1) = false ∧ ownClaim L 1 = false ∧ mayClaim L = true ∧
     grpCfg L 1 = true ∧ L.n (F.DEI_GRPg_STAT_OWNER 1) = 3 ∧ otherClaims L 1 = decide (c = 2)) ∧
    (∀ c ∈ [1, 3], ∀ t ∈ [1, 2], let L := grpLane 3 c 3 ⟨t, false, false, false⟩
     L.n (F.DEI_GRPg_STAT_STATE 1) = 3 ∧ ownClaim L 1 = true ∧ L.b (F.DEI_GRPg_STAT_OWN 1) = false ∧
     otherClaims L 1 = decide (c = 3) ∧ (grpOf L 1).tries = t) ∧
    (grpOf L0 1).want = false ∧ L0.n (F.DEI_GRPg_STAT_STATE 1) ≠ 3 ∧ (grpLane 4 0 3 default).n (F.DEI_GRPg_STAT_STATE 1) = 4 := by
  decide +kernel
theorem witness_owners :
    (let L := grpLane 1 2 3 default
     LaneId.b ≠ L.id ∧ L.bit (F.DEI_GRPg_STAT_CLAIMS 1) (laneNo .b) = true ∧ L.bit (F.DEI_GRPg_STAT_CLAIMS 1) (laneNo .c) = false ∧
     (grpOf L 1).second = false ∧ (L.setBit (F.DEI_GRPg_STAT_CLAIMS 1) (laneNo .c) true).b (F.DEI_GRPg_STAT_OWN 1) = false ∧
     L.b (F.DEI_GRPg_STAT_OWN 1) = false ∧ ownClaim L 1 = false ∧ ownClaim (grpLane 1 3 3 default) 1 = true) ∧
    (let L := grpLane 1 0 1 ⟨0, false, false, true⟩
     L.n (F.DEI_GRPg_STAT_OWNER 1) ≠ 3 ∧ L.b (F.DEI_GRPg_STAT_OWN 1) = false ∧
     L.bit (F.DEI_GRPg_STAT_CLAIMS 1) (L.n (F.DEI_GRPg_STAT_OWNER 1)) = false ∧ (grpOf L 1).second = true) ∧
    (let rec0 : List Byte := List.replicate 4 0 ++ [8] ++ List.replicate 27 0
     let L : Lane := { (grpLane 1 0 3 default).putN F.TLS_MS_STAT_POINT 0 with tls := { L0.tls with secs := [⟨1, 0, 1, rec0⟩] } }
     inSet L.clv.members L.id = true ∧ grpCfg L 1 = true ∧ (curRec L).driveSet.testBit 3 = true ∧
     L.n (F.DEI_GRPg_STAT_OWNER 1) = 3) := by decide +kernel
theorem witness_chopper_gpio :
    L0.b F.CHP_STAT_GATE = false ∧ (L0.setB F.CHP_STAT_GATE true).b F.CHP_STAT_GATE = true ∧
    (L0.setBit F.GPIO_IRQ_RISE 7 true).bit F.GPIO_IRQ_RISE 7 = true ∧ L0.bit F.GPIO_IRQ_FALL 7 = false ∧ L0.out.spiTx.length < 8 ∧
    (∀ k ∈ [7, 8], let L : Lane := { L0.setB F.GPIO_SPI_CFG_EN true with
        out := { L0.out with spiTx := List.replicate 8 1, spiRx := List.replicate k 1 } }
     8 ≤ L.out.spiTx.length ∧ L.b F.GPIO_SPI_CFG_EN = true ∧ L.out.spiTx = 1 :: List.replicate 7 1 ∧ L.n F.GPIO_SPI_CFG_TRG = 0 ∧
     decide (L.out.spiRx.length < 8) = decide (k = 7)) ∧
    (∀ b ∈ [true, false], let L : Lane := { (L0.setB F.GPIO_SPI_CFG_EN true).putN F.GPIO_SPI_CFG_TRG 6 with
        out := { L0.out with spiTx := [1], spiTrig := b } }
     L.out.spiTx = 1 :: [] ∧ L.n F.GPIO_SPI_CFG_TRG ≠ 0 ∧ L.out.spiTrig = b) ∧
    (let L := (L0.setBit F.GPIO_DIR_DIR 7 true).put F.GPIO_TRG_TRG 0x10000000
     L.bit F.GPIO_DIR_DIR 7 = true ∧ bitsOf (L.fld F.GPIO_TRG_TRG) (4 * 7) 4 = 0 + 1 ∧
     bitsOf (L.fld F.GPIO_TRG_TRG) (4 * 6) 4 ≠ 0 + 1) ∧ L0.bit F.GPIO_DIR_DIR 7 = false := by decide +kernel

/-! The network -/
/-- A lane whose network runs the one record 0: its KIND, port and CLASS; it exists in even cycles and starts at 25 us. -/
def netLane (kind port cls : Nat) : Lane :=
  (((L0.putN F.SSG_NREC_NREC 1).setB F.SSG_STAT_RUN true).setBit F.AOS_STAT_ON 6 true).wrWords (recAddr 0)
    [BitVec.ofNat 32 (100 * 2 ^ 16 + 40), BitVec.ofNat 32 (2 ^ 24 + 5 * 2 ^ 8 + port * 2 ^ 4 + kind), 0x401000, BitVec.ofNat 32 cls]
theorem witness_ports :
    (let L := (netLane 0 11 0).putN (F.SSG_PORTp_STAT_ROLE 11) 1
     L.live = true ∧ L.bit F.AOS_STAT_ON 6 = true ∧ portRole L 11 = 1 ∧ L.b (F.SSG_PORTp_STAT_LINK 11) = false ∧
     (L.setB (F.SSG_PORTp_STAT_LINK 11) true).b (F.SSG_PORTp_STAT_LINK 11) = true ∧ (portOf L 11).cur = none ∧ L.nte.claims = []) ∧
    portLive L0 12 = false ∧ portLive L0 15 = true ∧ L0.bit F.AOS_STAT_ON 6 = false := by decide +kernel
/-- The start of the frame with a header at the internal port, and whether record 0 is the one that the port owns. -/
def owns1 (L : Lane) : Bool := ownedSlots L 15 == [(0, slotRec L 0, 25000)]
def frm (L : Lane) : Lane := setPort 15 (fun x => { x with cur := none }) L
theorem witness_starts :
    (let L := frm (netLane 0 15 0)
     portLive L 15 = true ∧ L.b F.SSG_STAT_RUN = true ∧ owns1 L = true ∧ ownedSlots (frm (netLane 0 3 0)) 15 = [] ∧
     slotExists (slotRec L 0) (frameCyc L) = true ∧ 25000 = slotTs (slotRec L 0) ∧ winShift L 15 (slotRec L 0) = 0 ∧ L.nte.adm.contains 0 = false ∧
     (withNte (fun n => { n with adm := [0] }) L).nte.adm.contains 0 = true ∧ (readWords (recAddr 0) 4 L).1.isSome = true ∧
     (readWords (recAddr 0) 4 L).2 = L ∧ (portOf L 15).iso = false ∧ (25000 : Int) + 3500 < 28501 ∧
     (28501 : Int) < 25000 + 250 * (slotRec L 0).len ∧ (16999 : Int) < 25000 - 8000 ∧ (17000 : Int) < 25500) := by decide +kernel
/-- The record that a port other than 15 owns, with a frame 1,251 ns from the action point, and an unreadable record. -/
theorem witness_starts_more :
    (let L := (netLane 0 11 0).putN (F.SSG_PORTp_STAT_ROLE 11) 1
     driftBad (measure 11 1251 L) 11 1251 = true ∧ driftBad (measure 11 1250 L) 11 1250 = false ∧
     portIso (measure 11 0 L) 11 = false ∧ portIso (measure 11 0 (L.setB (F.SSG_PORTp_STAT_ISO 11) true)) 11 = true) ∧
    (let L : Lane := { netLane 0 15 0 with upsets := [(recAddr 0, .double)] }
     (readWords (recAddr 0) 4 (frm L)).1 = none ∧ (frm L).nte.adm.contains 0 = false) ∧
    (let L := (frm (netLane 2 15 0)).setB F.SSG_STAT_RUN false
     let h := fun (typ len : Nat) => mkHdr L 0 5 typ 0 len 0
     L.b F.SSG_STAT_RUN = false ∧ portLive L 15 = true ∧ (slotRec L 0).kind = 2 ∧ (slotRec L 0).port = 15 ∧ nRec L = 1 ∧
     fSlot (h 2 48) = 0 ∧ isAhnul (h 2 48) = true ∧ headerOk L 0 (slotRec L 0) none (h 2 48) = true ∧
     lengthOk (slotRec L 0) (h 2 48) = true ∧ fTyp (h 2 48) ≠ 3 ∧ fTyp (h 3 16) = 3 ∧
     headerOk L 0 (slotRec L 0) none (h 3 16) = true ∧ lengthOk (slotRec L 0) (h 3 16) = true ∧
     headerOk L 0 (slotRec L 0) none (mkHdr L 0 6 2 0 48 0) = false ∧ fSlot (mkHdr L 1 5 2 0 48 0) = 1) ∧
    L0.nte.abandoned = false := by decide +kernel
theorem witness_headers :
    (let L := frm (netLane 0 15 0)
     let h := fun (node len : Nat) => mkHdr L 0 node 0 (frameCyc L) len 0
     let ok := fun (x : List Byte) => headerOk L 0 (slotRec L 0) (some (frameCyc L)) x
     isAhnul [] = false ∧ isAhnul (h 5 10) = true ∧ ok (h 6 10) = false ∧ ok (h 5 65) = true ∧ lengthOk (slotRec L 0) (h 5 65) = false ∧
     ok (h 5 64) = true ∧ lengthOk (slotRec L 0) (h 5 64) = true) := by decide +kernel
/-- A frame of a TYPE and length on its way at the internal port. -/
def onWay (typ len : Nat) (L : Lane) : Lane := setPort 15 (fun x => { x with cur := some ⟨0, typ, len, 0, 5, 0, 0⟩ }) L
def goodFrame (data : List Byte) : FrameEnd := fe (26 + max data.length 38) (List.replicate 8 0 ++ data ++ List.replicate (38 - data.length) 0)
theorem witness_frame_ends :
    (∀ t ∈ [0, 1, 2, 3, 4], (portOf (onWay t 10 (netLane 0 15 0)) 15).cur = some ⟨0, t, 10, 0, 5, 0, 0⟩) ∧
    ({ fe 64 (List.replicate 46 0) with fcsOk := false }).fcsOk = false ∧
    (let f := fe 64 (List.replicate 46 0); f.fcsOk = true ∧ f.linkOk = true ∧ f.octets = 26 + max 10 38) ∧
    (let M := frm (onWay 0 10 (netLane 0 15 0))
     (slotRec M 0).fwd.testBit 12 = true ∧ (slotRec M 0).rxirq = false ∧
     (slotRec (frm (onWay 0 10 L0)) 0).fwd.testBit 12 = false) := by decide +kernel
/-- A lane with receive signal 0: two bytes at OFFSET 1, MAXGAP 2, and the status word of its buffer. -/
def sigLane (w : Word) : Lane := (L0.wrWords (dirAddr 0) [0x88204000, 1, 0x1000, 0]).wrWords (netBase + 0x1000) [w, 0]
/-- The element of signal 0 with a FRESH value, its CRC right. -/
def elem (fresh : Byte) : List Byte :=
  9 :: fresh :: 0xAB :: 0xCD :: natBytesBe 4 (crc32c (natBytesBe 4 0 ++ [fresh, 0xAB, 0xCD])).toNat
def elemOk (w : Word) (pl : List Byte) : Bool × Bool :=
  let L := sigLane w
  let e := dirRaw L 0
  let el := (pl.drop e.offset).take (e.len + 5)
  (decide ((readWords (dirAddr 0) 4 L).1.isSome = true ∧ (readWords (dirAddr 0) 4 L).2 = L ∧ e.offset + e.len + 5 = 8 ∧ e.maxgap = 2 ∧
    (readW (bufAddr e) L).1 = some w ∧ (readW (bufAddr e) L).2 = L),
   decide (beNat (el.drop (e.len + 1)) = (crc32c (natBytesBe 4 0 ++ nth el 0 0 :: (el.drop 1).take e.len)).toNat))
theorem witness_elements : elemOk 0 (elem 7) = (true, true) ∧ elemOk 0 (List.replicate 8 0) = (true, false) ∧
    elemOk 0x80000007 (elem 7) = (true, true) ∧ elemOk 0x80000006 (elem 7) = (true, true) ∧
    bitAt 0x80000007 31 = true ∧ bitAt 0 31 = false ∧ bitsOf 0x80000007 0 8 = 7 ∧ bitsOf 0x80000006 0 8 + 1 = 7 := by decide +kernel
theorem witness_time_frames :
    (let L := onWay 2 48 (netLane 2 15 0)
     synced (frm L) = false ∧ csState (frm (setCs 1 L)) = 1 ∧ csState (frm (setCs 2 L)) = 2 ∧ csState (frm (setCs 3 L)) = 3 ∧
     synced (frm (L.setB F.NTE_TIME_STAT_SYNCED true)) = true ∧ (frm L).n F.NTE_TIME_STAT_SRC ≠ 3 ∧ csState (frm L) = 0 ∧
     smSorted (setCs 1 L).regs = true ∧ syRank (goodFrame [0, 1]) = 1 ∧ coldRank L ≠ 1 ∧ csState (frm (setCs 4 L)) = 4 ∧
     (frm (setCs 4 (withNte (fun n => { n with folPort := some 15 }) L))).nte.folPort = some 15 ∧ (frm L).nte.folLane = none ∧
     (withNte (fun n => { n with folLane := some .b }) (frm L)).nte.folLane ≠ none) ∧
    (let L := keepBest 1 5 (some 15) none (frm (setCs 2 (onWay 3 16 (netLane 2 15 0))))
     betterThanOwn 1 5 L = false ∧
     betterThanOwn 1 5 { L with tls := { L.tls with hdr := List.replicate 64 1 } } = true) ∧
    (let M := ((frm (onWay 2 48 (netLane 2 15 0))).putN F.NTE_TIME_STAT_SRC 3).putN F.NTE_TIME_STAT_SRC_PORT 15
     M.n F.NTE_TIME_STAT_SRC = 3 ∧ M.n F.NTE_TIME_STAT_SRC_PORT = (15 : Fin 16).val ∧ M.b F.NTE_CLAIM_TX_GO = false ∧
     (M.setB F.NTE_CLAIM_TX_GO true).b F.NTE_CLAIM_TX_GO = true ∧
     syAns (goodFrame (List.replicate 40 0 ++ [BitVec.ofNat 8 (ownNode M), 1, 0, 0, 0, 0, 0, 0])) =
       [BitVec.ofNat 8 (ownNode M), 1, 0, 0, 0, 0, 0, 0]) := by decide +kernel
theorem witness_claim_frames :
    (let L := onWay 4 6 (netLane 1 15 0)
     claimResult 15 5 ⟨0, 4, 6, 0, 5, 0, 0⟩ [0, 1, 0, 0, 0, 0] (frm L) = 1 ∧
     claimResult 15 5 ⟨0, 4, 6, 0, 5, 0, 0⟩ [1, 1, 0, 0, 0, 0] (frm L) = 3 ∧ smSorted L.regs = true ∧
     ((goodFrame [0, 1, 0, 0, 0, 0]).payload.drop 8).take 6 = [0, 1, 0, 0, 0, 0] ∧ (goodFrame [0, 1, 0, 0, 0, 0]).octets = 64 ∧
     (portOf L 15).cur = some ⟨0, 4, 6, 0, 5, 0, 0⟩) := by decide +kernel
theorem witness_own_frames :
    (let L := ((netLane 0 15 0).setB F.NTE_STAT_RUN true).putN F.TLS_MS_STAT_SUBSTATE 6
     L.b F.NTE_STAT_RUN = true ∧ (0 : BitVec 16).toNat < nRec L ∧ (slotRec L 0).port = 15 ∧ (slotRec L 0).kind ≤ 1 ∧
     slotExists (slotRec L 0) (frameCyc L) = true ∧ nullCase 0 L = 0 ∧ smFind L.nte.prep 0 = none ∧ L0.b F.NTE_STAT_RUN = false ∧
     smFind (withNte (fun n => { n with prep := [(0, ⟨0, true, [], 10, 1, 0⟩)] }) L).nte.prep 0 = some ⟨0, true, [], 10, 1, 0⟩ ∧ 1 ≠ L.nte.cyc) ∧
    (let p : Prep := ⟨0, true, [], 10, 0, 0⟩
     let L := netLane 0 15 0
     (p.cyc ≠ L.nte.cyc ∨ p.pos ≤ 250 * (slotRec L 0).start - 4000) ∧
     ¬ ({ p with pos := 6001 }.cyc ≠ L.nte.cyc ∨ (6001 : Int) ≤ 250 * 40 - 4000) ∧ nullCase 0 ((L.setB F.NTE_STAT_RUN true).putN F.TLS_MS_STAT_SUBSTATE 2) ≠ 0 ∧
     nullCase 0 ((L.setB F.NTE_STAT_RUN true).putN F.TLS_MS_STAT_SUBSTATE 2) ≠ 6) ∧
    (let L := (netLane 3 15 0).setB F.NTE_CLAIM_TX_GO true
     (slotRec L 0).kind = 3 ∧ L.b F.NTE_CLAIM_TX_GO = true ∧ L.nte.claimSent = false ∧
     (withNte (fun n => { n with claimSent := true }) L).nte.claimSent = true) ∧
    (let L := setCs 3 (withNte (fun n => { n with held := true, cyc := 56 }) (netLane 2 15 0))
     ledTime L = true ∧ frameCyc L = 56 ∧ synced L = false ∧ slotExists (slotRec L 0) (frameCyc L) = true ∧
     ledTime (netLane 2 15 0) = false) ∧
    ownSync L0 = none ∧
    (let L := (netLane 2 15 0).setB F.NTE_TIME_STAT_SYNCED true
     ownSync L = some (0, slotRec L 0) ∧ slotExists (slotRec L 0) (frameCyc L) = true ∧ synced L = true ∧
     slotExists (slotRec L 0) (frameCyc (withNte (fun n => { n with cyc := 1 }) L)) = false) := by decide +kernel
/-- A member of an EK3 of `m` lanes whose time differs, and a lane in a state of the cold start. -/
def lostLane (m : BitVec 3) : Lane :=
  withNte (fun n => { n with lostRun := 4 }) (withClv (fun c => { c with members := m }) (L0.setB F.NTE_TIME_STAT_SYNCED true))
def csLane (v : Nat) (f : NteSt → NteSt) : Lane := withNte f (setCs v L0)
def zeroLost (L : Lane) : Lane := withNte (fun n => { n with lostRun := 0 }) L
theorem witness_time :
    L0.nte.held = false ∧ (csLane 1 (fun n => { n with held := true })).nte.held = true ∧
    csState (csLane 1 (fun n => { n with held := true })) ≠ 0 ∧
    (∀ m ∈ [3, 7], 4 ≤ (lostLane (BitVec.ofNat 3 m)).nte.lostRun ∧ synced (lostLane (BitVec.ofNat 3 m)) = true ∧
      inSet (lostLane (BitVec.ofNat 3 m)).clv.members (lostLane (BitVec.ofNat 3 m)).id = true) ∧
    otherMembers (zeroLost (lostLane 7)) = [.b, .c] ∧ otherMembers (zeroLost (lostLane 3)) = [.b] ∧ L0.nte.lostRun < 4 := by
  decide +kernel
theorem witness_cold_start :
    (let L := csLane 1 id
     csState L = 1 ∧ betterThanOwn (L.n F.NTE_TIME_STAT_HEARD_RANK) L.nte.bestNode L = false ∧ lowerReady L = false ∧
     csState L0 ≠ 1 ∧ synced L = false ∧ L.nte.late = false ∧ L.nte.lead = false ∧ L.nte.abandoned = false) ∧
    csState (csLane 2 id) = 2 ∧ (csLane 2 id).nte.conf = 0 ∧
    (let L := csLane 3 (fun n => { n with lead := true, held := true })
     csState L = 3 ∧ L.nte.lead = true ∧ L.nte.held = true ∧ L.b F.CLK_STAT_DEGRADED = false ∧ smSorted L.regs = true) ∧
    (csState L0 ≠ 3 ∧ L0.nte.confCyc < 56) ∧
    (csLane 4 (fun n => { n with abandoned := true })).nte.abandoned = true ∧
    (csLane 1 (fun n => { n with late := true })).nte.late = true ∧
    (let L := withNte (fun n => { n with trunkMiss := 4 }) (L0.putN F.NTE_TIME_STAT_SRC 3)
     L.n F.NTE_TIME_STAT_SRC = 3 ∧ 4 ≤ L.nte.trunkMiss) ∧ L0.nte.trunkMiss < 4 := by decide +kernel
theorem witness_cycle_start :
    (let H := csLane 5 (fun n => { n with held := true })
     let K := withNte (fun n => { n with cyc := cycleNow H }) H
     cycleDue L0 = false ∧ cycleDue K = false ∧ cycleDue (withNte (fun n => { n with cyc := cycleNow H + 1 }) H) = true ∧
     H.live = true ∧ H.nte.lead = false ∧ (csLane 2 (fun n => { n with conf := 1 })).nte.conf ≠ 0) ∧
    (let Z := csLane 4 (fun n => { n with confCyc := 56 })
     frameCyc Z = 0 ∧ csState Z ≠ 3 ∧ waitsZero Z = true ∧ frameCyc (withNte (fun n => { n with held := true, cyc := 1 }) Z) ≠ 0) ∧
    (let S := subLane 4
     synced S = false ∧ csState S = 0 ∧ substate S = 4 ∧ S.nte.late = false ∧ csState L0 = 0 ∧ substate L0 ≠ 4) := by decide +kernel
/-- Lane B, listening, with a lower lane that reports READY. -/
def lowReady : Lane :=
  { withNte (fun n => { n with peer0 := { n.peer0 with ready := true }, peer1 := { n.peer1 with ready := true } }) (up (csLane 1 id)) with id := .b }
theorem witness_listening : csState lowReady = 1 ∧ lowerReady lowReady = true ∧
    betterThanOwn (lowReady.n F.NTE_TIME_STAT_HEARD_RANK) lowReady.nte.bestNode lowReady = false ∧
    betterThanOwn 0 0 { csLane 1 id with tls := { L0.tls with hdr := List.replicate 64 1 } } = true := by decide +kernel
theorem witness_own_claims :
    L0.nte.cyc % 64 = 0 ∧ (withNte (fun n => { n with cyc := 63 }) L0).nte.cyc % 64 ≠ 0 ∧ bitAt (0x80000000 : Word) 31 = true ∧
    bitAt (0x7FFFFFFF : Word) 31 = false ∧ (L0.setB F.NTE_CLAIM_TX_GO true).b F.NTE_CLAIM_TX_GO = true ∧
    64 ≤ (withNte (fun n => { n with claimAge := 64 }) L0).nte.claimAge ∧ (withNte (fun n => { n with claimAge := 63 }) L0).nte.claimAge < 64 := by
  decide +kernel

/-! The CAN gateway, the storage die and the recorder -/
/-- A lane with CAN channel 0 on the bus and one receive mapping: 11-bit identifier 0x123, two bytes into CAN buffer 0. -/
def canLane : Lane :=
  ((L0.setB (F.CGW_CHc_CFG_EN 0) true).putN F.CGW_NMAP_NMAP 1).wrWords (canRecAddr 0) [0x80000123, 0x00020005, 0x40000000, 0]
def canFrame (id : BitVec 29) (data : List Byte) : CanMsg := ⟨.whole, .can11, id, 0, 0, data⟩
def hearsB (m : CanMsg) (L : Lane) : Bool :=
  decide (canEn L 0 = true ∧ busOff L 0 = false ∧ modeAllowed L 0 m.mode = true ∧ addressHeard 0 m L = L)
theorem witness_can_receive :
    (let m := canFrame 0x123 [1, 2]
     let t := takenBy 0 m (List.range (nMap canLane)) canLane
     hearsB m canLane = true ∧ t.1.isSome = true ∧ (t.1.map (fun x => x.2.len)) = some 2 ∧ ¬ m.data.length < 2 ∧
     (canFrame 0x123 [1]).data.length < 2) ∧
    (let m := canFrame 0x124 [1]
     let r := { runOf 2 8 0 with d := { (runOf 2 8 0).d with w4 := 0x124, w5 := 0x1FFFFFFF } }
     let L : Lane := { canLane with ring := { canLane.ring with recv := [r] } }
     let t := takenBy 0 m (List.range (nMap L)) L
     hearsB m L = true ∧ t.1 = none ∧ recvFirst t.2 (t.2.ring.recv.filter (recvMatches 0 m)) = some r ∧
     recvFirst canLane (canLane.ring.recv.filter (recvMatches 0 m)) = none) ∧ canEn L0 0 = false := by decide +kernel
theorem witness_can_channels :
    (let L := canLane
     canEn L 0 = true ∧ busOff L 0 = false ∧ busOff (L.setB (F.CGW_CHc_STAT_BUSOFF 0) true) 0 = true ∧
     canSending (canErr 0 F.CGW_CHc_ERR_BOFF_CNT 0x0DB
       ((L.setB (F.CGW_CHc_STAT_BUSOFF 0) true).putN (F.CGW_CHc_STAT_TEC 0) 0xFF)) 0 = none ∧ (canOf L 0).cur = none ∧
     (canOf (setCan 0 (fun y => { y with cur := some ⟨7, 0, false, 0, []⟩ }) L) 0).cur = some ⟨7, 0, false, 0, []⟩) ∧
    (let r := { runOf 1 4 0 with aux := 1 }
     let L := setCan 0 (fun y => { y with cur := some ⟨2048, 0, false, 0, []⟩ }) (running 8 r canLane)
     (canOf L 0).cur = some ⟨2048, 0, false, 0, []⟩ ∧
     canSending (canStart 0 (setCan 0 (fun y => { y with cur := none }) L)) 0 = some r) ∧
    (let r := runOf 1 4 0
     let L := running 8 r canLane
     runningOp L 8 0x01 = some r ∧ r.aux = 0 ∧ b2n (bitAt r.d.w4 31) = 0 ∧ canEn L 0 = true ∧ busOff L 0 = false ∧ bitsOf r.d.w5 29 3 < 4 ∧
     (iovaReadN 8 r.d.ctx r.d.src r.d.length (L, stoInit)).1.toOption = some [0, 0, 0, 0] ∧ runningOp canLane 8 0x01 = none) ∧
    (let r := runOf 2 4 0
     runningOp (running 8 r canLane) 8 0x02 = some r ∧ r.abort = false) := by decide +kernel
/-- Mapping 0 with words 2 and 3 as given has waited its TMO of 5 cycles, and its TGT. -/
def canDue (w2 w3 : Word) (tgt : Nat) : Bool :=
  let L : Lane := { canLane.wrWords (canRecAddr 0) [0x80000123, 0x00020005, w2, w3] with cgw := { L0.cgw with age := [(0, 5)] } }
  let k := canMapOf 0x80000123 0x00020005 w2 w3
  decide (smFind L.cgw.age (0 : Fin 2048).val = some 5 ∧ canMap 0 L = (some k, L) ∧ k.valid = true ∧ k.out = false ∧ 0 < nMap L ∧
    k.tmo ≠ 0 ∧ k.tmo ≤ 5 ∧ k.tgt = tgt ∧ k.staten = decide (tgt = 2))
theorem witness_can_addresses :
    (let L := canLane.setB (F.CGW_CHc_CFG_ISO 0) true
     canIso L 0 = true ∧ canIso L0 0 = false ∧ (canOf L 0).claiming = none ∧ L.b (F.CGW_CHc_STAT_ADDR_OK 0) = false ∧
     (canOf L 0).lost = false ∧ (canOf (setCan 0 (fun y => { y with claiming := some 128 }) L) 0).claiming = some 128 ∧
     (canOf (setCan 0 (fun y => { y with lost := true }) L) 0).lost = true) ∧
    canDue 0 0 0 = true ∧ canDue 0x40000000 0 1 = true ∧ canDue 0x80000000 0x80000000 2 = true ∧ smFind L0.cgw.age 0 = none := by
  decide +kernel
theorem witness_can_sends :
    (let r := { runOf 1 4 0 with d := { (runOf 1 4 0).d with w5 := 0x80000000 } }
     let L := running 8 r canLane
     runningOp L 8 0x01 = some r ∧ bitsOf r.d.w5 29 3 = 4 ∧ L.b (F.CGW_CHc_STAT_ADDR_OK 0) = false ∧
     (L.setB (F.CGW_CHc_STAT_ADDR_OK 0) true).b (F.CGW_CHc_STAT_ADDR_OK 0) = true ∧ r.aux ≠ 1 ∧ b2n (bitAt r.d.w4 31) = 0 ∧
     (running 8 r (canLane.setB (F.CGW_CHc_STAT_BUSOFF 0) true)).b (F.CGW_CHc_STAT_BUSOFF 0) = true) := by decide +kernel
/-- An ISO 11783 channel with one mapping of PGN 0xEF00, a session open, and a transport message from address 7. -/
def isoLane (rx : List CanRx) : Lane :=
  setCan 0 (fun y => { y with rx := rx })
    ((((L0.setB (F.CGW_CHc_CFG_EN 0) true).setB (F.CGW_CHc_CFG_ISO 0) true).putN F.CGW_NMAP_NMAP 1).wrWords (canRecAddr 0)
      [0x80EF0000, 0x80020005, 0x40000000, 0])
def isoMsg (p : CanPart) (id : BitVec 29) (da : Byte) (n : Nat) : CanMsg := ⟨p, .iso, id, da, 7, List.replicate n 0⟩
theorem witness_can_sessions :
    (let m := isoMsg .whole 0xEF0000 0xFF 9
     let L := isoLane [⟨7, 0xFF, 0xEF0000, 9⟩]
     canEn L 0 = true ∧ busOff L 0 = false ∧ modeAllowed L 0 m.mode = true ∧ 8 < m.data.length ∧ m.data.length ≤ 1785 ∧
     (canOf L 0).rx.any (fun y => ofSession m y && decide (y.size = m.data.length)) = true ∧
     (takenBy 0 m (List.range (nMap L)) (setCan 0 (fun y => { y with rx := [] }) L)).1.isSome = true ∧
     (canOf (isoLane []) 0).rx.any (fun y => ofSession m y && decide (y.size = m.data.length)) = false) ∧
    1785 < (isoMsg .whole 0xEF0000 0xFF 1786).data.length := by decide +kernel
theorem witness_can_openings :
    (let L := isoLane []
     let o := fun (n : Nat) (id : BitVec 29) => isoMsg (.opens n) id 0xFF 0
     let t := takenBy 0 (o 9 0xEE0000) (List.range (nMap L)) L
     let r := { runOf 2 9 0 with d := { (runOf 2 9 0).d with w4 := 0, w5 := 0x80000000 } }
     let W : Lane := { L with ring := { L.ring with recv := [r] } }
     let f := fun (n : Nat) => (⟨n, 0xFF, 0, 9⟩ : CanRx)
     forUs 0 (o 9 0xEF0000) L = true ∧ forUs 0 (isoMsg (.opens 9) 0xEF0000 6 0) L = false ∧
     ((canOf L 0).rx.filter (fun y => !ofSession (o 9 0xEF0000) y)).length < 4 ∧
     ¬ ((canOf (isoLane [f 1, f 2, f 3, f 4]) 0).rx.filter (fun y => !ofSession (o 9 0xEF0000) y)).length < 4 ∧
     (takenBy 0 (o 9 0xEF0000) (List.range (nMap L)) L).1.isSome = true ∧ t.1 = none ∧
     recvFirst t.2 (t.2.ring.recv.filter (recvMatches 0 (o 9 0xEE0000))) = none ∧
     recvFirst W (W.ring.recv.filter (recvMatches 0 (o 1786 0xEE0000))) = some r ∧ 9 ≤ r.d.length ∧ r.d.length < 1786) ∧
    (isoMsg .aborts 0 0xFF 0).part ≠ .whole ∧ (isoMsg (.opens 9) 0 0xFF 0).part ≠ .whole := by decide +kernel
theorem witness_can_timeouts :
    (let L := isoLane [⟨7, 0xFF, 0, 9⟩, ⟨7, 5, 0, 9⟩]
     (canOf L 0).rx[(0 : Fin 4).val]? = some ⟨7, 0xFF, 0, 9⟩ ∧ (canOf L 0).rx[(1 : Fin 4).val]? = some ⟨7, 5, 0, 9⟩ ∧
     (canOf L 0).rx[(2 : Fin 4).val]? = none ∧ canIso L 0 = true ∧ canIso canLane 0 = false) ∧
    (let r := { runOf 1 9 0 with aux := 1 }
     let K := fun (n : Nat) => setCan 0 (fun y => { y with cur := some ⟨n, 0, true, 5, []⟩ }) (running 8 r (isoLane []))
     let out := fun (L : Lane) => ((canOf L 0).cur.toList ++ (canOf L 0).q).filter (fun y => y.big)
     (out (K 3))[(0 : Fin 4).val]? = some ⟨3, 0, true, 5, []⟩ ∧ (out (K 3))[(1 : Fin 4).val]? = none ∧
     (out (K 2048))[(0 : Fin 4).val]? = some ⟨2048, 0, true, 5, []⟩ ∧ canSending (canTpAbort 0 (K 2048)) 0 = some r) := by
  decide +kernel
theorem witness_storage_die :
    stoInit.powered = false ∧ stoInit.mounted = false ∧ linked.2.powered = true ∧ linked.2.mounted = true ∧
    linkUp (L0, linked.2).1 linked.2 = false ∧ linkUp linked.1 linked.2 = true ∧ (getEng L0 1).run = none ∧ (getEng L0 4).run = none ∧
    linked.2.retired.contains 8191 = false ∧ linked.2.patrolLate = false ∧ linked.2.patrolPos ≤ 8191 ∧
    14400000000 < patrolBehind { linked.2 with poweredUs := 14400000001 } ∧
    patrolBehind { linked.2 with poweredUs := 14400000000 } ≤ 14400000000 ∧ smSorted (partBytes stoInit .a 0) = true := by decide +kernel
/-- A lane with the storage link up that runs a STORAGE or RECORDER descriptor: WORD4 and the count in WORD5. -/
def stoRun (op len : Nat) (w4 w5 : Word) : Run := { runOf op len w4 with d := { (runOf op len w4).d with w5 := w5 } }
def stoLane (role : Nat) (r : Run) : Lane := running role r linked.1
def stoReady (r : Run) : Bool :=
  let L := stoLane 1 r
  decide (runningOp L 1 r.d.opcode = some r ∧ L.live = true ∧ r.progress = 0 ∧ 0 < dCount r ∧ dCount r ≤ 4 ∧
    linkUp L linked.2 = true ∧ linked.2.dieFault = false ∧ firstBad linked.2 L.id (dPart r) (dSec r + 0) (dCount r) = none)
theorem witness_storage_ready : stoReady (stoRun 1 4096 0 1) = true ∧ stoReady (stoRun 2 4096 0 1) = true ∧
    stoReady (stoRun 3 0 0 4) = true ∧ stoReady (stoRun 4 0 0 4) = true ∧ runningOp L0 1 0x01 = none ∧
    firstBad { linked.2 with stoA := { linked.2.stoA with bad := [3] } } .a 0 (0 + 0) 4 = some 3 ∧
    (getEng (finish 1 (stoRun 1 4096 0 1) errLink stFault 0 (running 1 (stoRun 1 4096 0 1) L0, stoInit)).1 1).run = none := by decide +kernel
theorem witness_storage_bad :
    (∀ op ∈ [1, 4], let r := stoRun op 4096 0 1
     let B : StorageDie := { linked.2 with stoA := { linked.2.stoA with bad := [0] } }
     runningOp (stoLane 1 r) 1 op = some r ∧ firstBad B .a 0 (dSec r + 0) (dCount r) = some 0 ∧
     (getEng (finish 1 r errEngine stFault 1 (stoLane 1 r, B)).1 1).run = none) ∧
    (let r := stoRun 2 4096 0 1
     writes (stoLane 1 r) linked.2 = true ∧ writes (stoLane 1 r) stoInit = false) ∧
    (∀ op ∈ [1, 2, 3, 4], let r := stoRun op 4096 0 1
     let B : StorageDie := { linked.2 with dieFault := true }
     runningOp (stoLane 1 r) 1 op = some r ∧ (stoLane 1 r).live = true ∧ linkUp (stoLane 1 r) B = true ∧
     (getEng (finish 1 r errEngine stFault 3 (raise 0x0E7 (stoLane 1 r), B)).1 1).run = none) ∧
    (∀ op ∈ [1, 2, 3, 4], let r := stoRun op 4096 0 1
     runningOp (stoLane 1 r) 1 op = some r ∧ (stoLane 1 r).live = true ∧ linkUp (stoLane 1 r) stoInit = false ∧
     (getEng (finish 1 r errLink stFault 0 (stoLane 1 r, stoInit)).1 1).run = none) := by decide +kernel
theorem witness_storage_trim :
    (let r := stoRun 3 0 0 4
     let L := stoLane 1 r
     (getEng (finish 1 { r with progress := 4 } 0 stDone 0 (L, trimSecs (dPart r) (dSec r + 0) 4 L.id linked.2)).1 1).run = none) ∧
    (let r := stoRun 4 0 0 4
     let L := stoLane 1 r
     (getEng (finish 1 { r with progress := 4 } 0 stDone 0 (L, linked.2)).1 1).run = none) := by decide +kernel
theorem witness_storage_read :
    (let r := stoRun 1 4096 0 1
     let L := stoLane 1 r
     let w := iovaWrite 1 r.d.ctx (r.d.dst + 0) (readSecs linked.2 L.id (dPart r) (dSec r + 0) 1) (L, linked.2)
     w.1.toOption = some () ∧ (getEng (finish 1 { r with progress := 4096 } 0 stDone 0 w.2).1 1).run = none) := by decide +kernel
theorem witness_storage_write :
    (let r := stoRun 2 4096 0 1
     let L := stoLane 1 r
     let q := iovaReadN 1 r.d.ctx (r.d.src + 0) 4096 (L, linked.2)
     q.1.toOption.isSome = true ∧
     (getEng (finish 1 { r with progress := 4096 } 0 stDone 0
       (wearStep (q.2.1, writeSecs (dPart r) (dSec r + 0) (List.replicate 4096 0) q.2.1.id q.2.2))).1 1).run = none) := by decide +kernel
/-- A lane that records, with the recorder's buffers in system SRAM. -/
def recLane (L : Lane) : Lane :=
  ((L.setB F.EVR_CTL_EN true).setB F.EVR_STAT_RUN true).putN F.EVR_BUF_BUF 1024
theorem witness_recorder_writes :
    (let r := runOf 1 4 0
     let L := recLane (stoLane 4 r)
     let q := iovaReadN 4 r.d.ctx r.d.src r.d.length (L, linked.2)
     runningOp L 4 0x01 = some r ∧ evrRuns L = true ∧ evrBufOk L = true ∧ q.1.toOption = some [0, 0, 0, 0] ∧
     (placeRecord 5 (bytesWords [0, 0, 0, 0] 1) q.2.1.ckpt q.2.1.time (drain q.2.1)).1 = true) ∧
    evrRuns (stoLane 4 (runOf 1 4 0)) = false := by decide +kernel
theorem witness_recorder_controls :
    (let r := runOf 2 0 0
     let L := recLane (stoLane 4 r)
     let full := withEvr (fun e => { e with wins := (List.range 64).map (fun k => { (default : EvrWin) with win := k, state := 2 }) }) L
     runningOp L 4 0x02 = some r ∧ (freezeTrigger 3 L).2.isSome = true ∧ (freezeTrigger 3 full).2 = none) ∧
    (let L := recLane (stoLane 4 (runOf 4 0 0))
     evrRuns L = true ∧ L.evr.waitSeal = none ∧ L.evr.force = none) ∧
    (let L := stoLane 4 (runOf 6 0 5)
     let H := (L.putN F.TLS_MS_STAT_SUBSTATE 8).putN F.TLS_MS_STAT_MODE mStartup
     let W := withEvr (fun e => { e with wins := [{ (default : EvrWin) with win := 5, state := 1 }] }) H
     inServiceHold L = false ∧ inServiceHold H = true ∧ H.evr.wins.any (fun x => decide (x.win = 5 ∧ x.state = 1)) = false ∧
     W.evr.wins.any (fun x => decide (x.win = (5 : Word).toNat ∧ x.state = 1)) = true) := by decide +kernel
theorem witness_recorder_reads :
    (let r := runOf 3 65536 0
     let L := stoLane 4 r
     runningOp L 4 0x03 = some r ∧ linkUp L linked.2 = true ∧ linked.2.dieFault = false ∧ r.progress = 0 ∧
     smFind (stoOf linked.2 L.id).place 0 = none ∧ (stoOf linked.2 L.id).segs = [] ∧
     (getEng (finish 4 r errEngine stFault 0x11 (L, linked.2)).1 4).run = none ∧ r.d.length = 65536 ∧
     smFind [(0, 40959)] (0 : Nat) = some 40959 ∧ firstBad linked.2 L.id 2 (16 * 40959) 16 = none) := by decide +kernel
theorem witness_recorder_read :
    (let r := runOf 3 65536 0
     let L := stoLane 4 r
     let D : StorageDie := { linked.2 with stoA := { linked.2.stoA with place := [(0, 40959)] } }
     smFind (stoOf D L.id).place r.d.w4.toNat = some 40959 ∧ firstBad D L.id 2 (16 * 40959) 16 = none) := by decide +kernel
theorem witness_recorder_engines :
    (getEng (stoLane 2 (runOf 1 4 0)) 2).run.isSome = true ∧ (getEng (stoLane 1 (runOf 1 4 0)) 1).run.isSome = true ∧
    (getEng linked.1 2).run = none ∧ (getEng linked.1 1).run = none ∧ ({ linked.2 with dieFault := true } : StorageDie).dieFault = true ∧
    linked.2.dieFault = false := by decide +kernel
theorem witness_recorder_winlist :
    (let r := runOf 5 2048 0
     let L := stoLane 4 r
     runningOp L 4 0x05 = some r ∧ (iovaWrite 4 r.d.ctx r.d.dst (winList L) (L, linked.2)).1.toOption = some ()) := by decide +kernel
theorem witness_recorder_segments :
    (let L := withEvr (fun e => { e with isOpen := true, sealDue := some ⟨0, 0, 255, []⟩ }) (recLane linked.1)
     L.evr.sealDue = some ⟨0, 0, 255, []⟩ ∧ evrBufOk L = true ∧ L.evr.isOpen = true ∧ L.otp.idKey = true ∧ L.evr.endSeg = false) ∧
    L0.evr.sealDue = none ∧ L0.evr.closed = [] ∧
    (withEvr (fun e => { e with closed := [(0, 0)] }) linked.1).evr.closed = [(0, 0)] ∧ 8 ≤ linked.2.spare ∧
    ringPlace (stoOf linked.2 .a) linked.1.evr.wins = some (0, none) ∧ linked.1.evr.waitSeal = none ∧
    (let L := (linked.1.setB F.EVR_CTL_EN true).putN F.EVR_BUF_BUF 1024
     L.b F.EVR_CTL_EN = true ∧ L.b F.EVR_STAT_RUN = false ∧ linkUp L linked.2 = true ∧ (stoOf linked.2 L.id).segs = [] ∧
     (stoOf linked.2 L.id).wins = [] ∧ L0.b F.EVR_CTL_EN = false ∧
     (appendRecord 8 [0] L.ckpt L.time ((L.setB F.EVR_STAT_RUN true).putN F.EVR_SEGNO_SEGNO 0)).1.isSome = true) := by decide +kernel

/-! Dormant, self-test, lifecycle, crypto, and the shared operations -/
/-- A lane at a step of its entry to Dormant. -/
def dorm (n : Nat) (wake : BitVec 8) : Lane := { L0 with pwr := { L0.pwr with dormStep := n, wakePend := wake } }
def stepA (wake : BitVec 8) : Nat :=
  (onL (dormPoint 1 2) (endRecv ([0, 1, 2, 3, 4, 5, 6, 7, 8].foldl (fun a r => endRun r a)
    (({ (withTls (fun t => { t with reqWord := none, reqStage := 0, reqAge := 0, reqEnd := none }) (dorm 1 wake)) with
      evr := { L0.evr with waitSeal := none } } : Lane), stoInit)))).1.pwr.dormStep
theorem witness_dormant :
    (dorm 1 0).pwr.dormStep = 1 ∧ stepA 0 = 2 ∧ stepA 64 ≠ 2 ∧ evrDormantDone (dorm 2 0, stoInit) = true ∧
    evrDormantDone (withEvr (fun e => { e with force := some 2 }) (recLane linked.1), linked.2) = false ∧
    (dorm 4 0).pwr.wakePend = 0 ∧ smSorted (dorm 4 0).regs = true ∧
    ({ dorm 4 0 with ring := { L0.ring with noFetch := true } } : Lane).ring.noFetch = true ∧ L0.pwr.dormStep ≠ 4 ∧
    L0.ring.noFetch = false := by decide +kernel
theorem witness_wake :
    wakeEnabled 6 L0 = true ∧ wakeEnabled 0 L0 = false ∧ wakeEnabled 7 (dorm 5 0) = true ∧ (inPhase .dormant).pwr.phase = .dormant ∧
    (let L : Lane := { (inPhase .waking).setBit F.AOS_STAT_ON 0 true with pwr := { (inPhase .waking).pwr with pll := some true } }
     L.pwr.phase = .waking ∧ L.bit F.AOS_STAT_ON 0 = true ∧ L.pwr.pll = some true ∧ smSorted L.regs = true ∧
     L.b F.CLK_STAT_DEGRADED = false) ∧
    (let L : Lane := { L0 with pwr := { L0.pwr with ap2Abandon := some 5 }, time := 10005 }
     L.live = true ∧ L.pwr.ap2Abandon = some 5 ∧ L.time ≤ 5 + 10000) ∧ L0.pwr.ap2Abandon = none := by decide +kernel
theorem witness_startup_tests : curMode (subLane 1) = mStartup ∧ substate (subLane 1) = 1 ∧
    (subLane 1).b F.BSC_STAT_SU_FAIL = false ∧ testInfo 0x03 = some ⟨4096, 1, 1000⟩ ∧ (4095 : BitVec 16).toNat < 4096 ∧
    substate (subLane 2) ≠ 1 := by decide +kernel
/-- A lane whose plan has one slice of test 0x04 in class 1, in an open window. -/
def bistLane (next : Nat) : Lane :=
  let A : Lane := { L0 with
    tls := { L0.tls with secs := [⟨0x0F, 0, 1, [1, 4, 0, 2, 0, 0, 0, 0]⟩] }, bsc := { L0.bsc with wins := [(1, ⟨100000, 0, false⟩)] } }
  ((A.putN F.BSC_STAT_NSLICE 1).setB (F.BSC_SLICEr_CUR 0) true).putN (F.BSC_SLICEr_NEXT 0) next
theorem witness_slices :
    (let L := bistLane 2046
     L.live = true ∧ elemRuns L 1 = true ∧ subject L 1 = some (.slice 0 4) ∧ (marchRead 4 (sliceNext L 0) L).1 = true ∧
     sliceNext L 0 + 1 < (testOf 4).elems ∧ (testOf 4).elems ≤ sliceNext (bistLane 2047) 0 + 1 ∧ elemRuns L0 1 = false ∧
     testAborts 4 = true ∧ (winOf L 1).isSome = true ∧ (winOf L 1).any (fun w => decide (w.burst = 0)) = true ∧
     (winOf (elemComplete 1 true (L, stoInit)).1 1).isSome = true ∧ winOf L0 1 = none ∧ 0 < nSlice L ∧ slicePass L 0 = 2 ∧
     smFind (withBsc (fun b => { b with age := [(0, 2)] }) L).bsc.age 0 = some 2 ∧ L.bsc.late.contains 0 = false ∧
     smFind L0.bsc.age 0 = none) ∧
    (let L := (bistLane 0).putN (F.BSC_SLICEr_ABORTS 0) 8
     L.n (F.BSC_SLICEr_ABORTS 0) = 8 ∧ L.b (F.BSC_SLICEr_STARVED 0) = false) ∧ L0.n (F.BSC_SLICEr_ABORTS 255) ≠ 8 := by decide +kernel
theorem witness_demand :
    (let x := { runOf 1 0 0x400 with progress := 2046 }
     let L := running 5 x (bistLane 0)
     subject L 1 = some (.demand x 4) ∧ elemRuns L 1 = true ∧ (marchRead 4 x.progress L).1 = true ∧
     x.progress + 1 < (testOf 4).elems ∧ runningOp L 5 0x01 = some x ∧ bitsOf x.d.w4 8 8 = 4 ∧ x.progress ≤ 2047) ∧
    (let x := runOf 2 0 0x100
     let L := running 5 x (subLane 6)
     runningOp L 5 0x02 = some x ∧ L.otp.lc = 1 ∧ curMode L = mStartup ∧ substate L = 6 ∧ testInfo 1 = some ⟨64, 0, 1200⟩ ∧
     testMem 1 = none) ∧
    (let x := runOf 3 1024 0
     let L := running 5 x L0
     runningOp L 5 0x03 = some x ∧
     (iovaWrite 5 x.d.ctx x.d.dst (wordsBytes ((List.range 256).map (sliceWord L))) (L, stoInit)).1.toOption = some ()) := by
  decide +kernel
/-- A lane in a lifecycle state, and one in Service hold. -/
def lcLane (n : Nat) (L : Lane) : Lane := { L with otp := { L.otp with lc := n, pendLc := n } }
theorem witness_failures :
    (let L := bistLane 5
     let U := useTime 1 (.slice 0 4) (marchRead 4 (sliceNext L 0) L).2
     let again := (withBsc (fun q => { q with age := smErase q.age 0, late := q.late.filter (fun z => decide (z ≠ 0)) }) U).putN
       (F.BSC_SLICEr_NEXT 0) 0
     let B : Lane := { L with upsets := [(xBase + 256 * 5, .double)] }
     subject L 1 = some (.slice 0 4) ∧ (winOf (endBurst 1 0 again) 1).isSome = true ∧ (marchRead 4 (sliceNext B 0) B).1 = false ∧
     elemRuns B 1 = true) ∧
    (let x := { runOf 1 0 0x400 with progress := 2047 }
     let L := running 5 x (bistLane 0)
     subject L 1 = some (.demand x 4) ∧ elemRuns L 1 = true ∧ (marchRead 4 x.progress L).1 = true ∧
     (testOf 4).elems ≤ x.progress + 1 ∧ testAborts 4 = true ∧ (winOf L 1).any (fun w => decide (w.burst = 0)) = true ∧
     (winOf (elemComplete 1 true (L, stoInit)).1 1).isSome = true) := by decide +kernel
def held8 (L : Lane) : Lane := (L.putN F.TLS_MS_STAT_SUBSTATE 8).putN F.TLS_MS_STAT_MODE mStartup
theorem witness_pepper : pprAllowed L0 = true ∧ pprAllowed (lcLane 2 L0) = false ∧ L0.b F.PPR_CTL_ARMED = false ∧
    (L0.setB F.PPR_CTL_ARMED true).b F.PPR_CTL_ARMED = true ∧ smSorted L0.regs = true := by decide +kernel
def lcRun (op len : Nat) (w4 : Word) (lc : Nat) : Lane := running 9 (runOf op len w4) (lcLane lc L0)
theorem witness_firmware :
    curMode (subLane 1) = mStartup ∧ (subLane 1).lcs.fwDone = false ∧
    ({ L0 with lcs := { L0.lcs with fwDone := true } } : Lane).lcs.fwDone = true ∧
    runningOp (lcRun 0x32 0 0 1) 9 0x32 = some (runOf 0x32 0 0) ∧ (fwVerify 0 (lcRun 0x32 0 0 1)).1.cause ≠ 0 ∧
    runningOp (lcRun 0x33 0 1 1) 9 0x33 = some (runOf 0x33 0 1) ∧
    (let r := runOf 0x34 16 0
     let q := iovaReadN 9 r.d.ctx r.d.src 16 (lcRun 0x34 16 0 2, stoInit)
     let k := iovaReadN 9 r.d.ctx r.d.src 16 ((lcRun 0x34 16 0 2).setB F.LCS_CTL_LOCK true, stoInit)
     q.1.toOption = some (List.replicate 16 0) ∧ lockRefuses F.LCS_CTL_LOCK q.2.1 = false ∧ k.1.toOption.isSome = true ∧
     lockRefuses F.LCS_CTL_LOCK k.2.1 = true) := by decide +kernel
/-- KEY_REVOKE of slot 3 in Service hold, and in MANUFACTURING; the register lock set; a slot that is not VALID. -/
def revoking (lc : Nat) (svc : Bool) (states : List Nat) : Lane :=
  let L := held8 (lcRun 0x3A 0 0x300 lc)
  { L with lcs := { L.lcs with svc := svc }, otp := { L.otp with keys := states.map (fun n => ⟨n, [], []⟩) } }
theorem witness_revoke :
    (∀ lc ∈ [1, 2], let L := revoking lc true [1, 0, 0, 1]
     runningOp L 9 0x3A = some (runOf 0x3A 0 0x300) ∧ (L.otp.lc = 1 ∨ (L.lcs.svc = true ∧ inServiceHold L = true)) ∧
     lockRefuses F.CRU_CTL_LOCK L = false ∧ (keyAt L 3).state = 1 ∧ kindValid L (keyKind 3).1 (keyKind 3).2 3 = true) ∧
    (let L := (lcRun 0x3A 0 0x300 1).setB F.CRU_CTL_LOCK true
     runningOp L 9 0x3A = some (runOf 0x3A 0 0x300) ∧ L.otp.lc = 1 ∧ lockRefuses F.CRU_CTL_LOCK L = true) ∧
    (∀ n ∈ [0, 2], (keyAt (revoking 2 true [1, 0, 0, n]) 3).state ≠ 1) ∧
    (let L := revoking 2 false [1, 0, 0, 1]
     ¬ (L.otp.lc = 1 ∨ (L.lcs.svc = true ∧ inServiceHold L = true))) := by decide +kernel
def keyLane (w4 : Word) (lc : Nat) (states : List Nat) : Lane :=
  let L := lcRun 0x39 80 w4 lc
  { L with otp := { L.otp with keys := states.map (fun n => ⟨n, [], []⟩) } }
theorem witness_keys :
    (let r := runOf 0x39 80 0x700
     ∀ lc ∈ [1, 2], ∀ st ∈ [0, 2],
       let kq := iovaReadN 9 r.d.ctx r.d.src 80 (keyLane 0x700 lc (List.replicate 8 st), stoInit)
       kq.1.toOption.isSome = true ∧ kq.2.1.otp.lc = lc ∧ kq.2.1.b F.CRU_CTL_LOCK = false ∧ (keyAt kq.2.1 (keyNo r)).state = st) ∧
    (let r := runOf 0x3A 0 0x300
     let K := fun (st : List Nat) => { lcRun 0x3A 0 0x300 1 with otp := { otpInit with keys := st.map (fun n => ⟨n, [], []⟩) } }
     runningOp (K [1, 0, 0, 1]) 9 0x3A = some r ∧ keyNo r = 3 ∧ (keyAt (K [1, 0, 0, 1]) 3).state = 1 ∧
     kindValid (K [1, 0, 0, 1]) (keyKind 3).1 (keyKind 3).2 3 = true ∧ kindValid (K [0, 0, 0, 1]) (keyKind 3).1 (keyKind 3).2 3 = false ∧
     lockRefuses F.CRU_CTL_LOCK (K [1, 0, 0, 1]) = false ∧ (lcRun 0x3A 0 0x300 2).otp.lc ≠ 1 ∧ (lcRun 0x3A 0 0x300 2).lcs.svc = false) := by
  decide +kernel
/-- A token of type 1 for a lane that is not provisioned with a serial number, of one minute, with a nonce of zeros. -/
def token (lane : Byte) : List Byte := [0x45, 0x54, 0x4B, 0x4E, 1, lane, 1, 0] ++ List.replicate 120 0
def nonced (L : Lane) : Lane := { L with lcs := { L.lcs with nonce := some (List.replicate 32 0, 0) } }
theorem witness_tokens :
    tokenForm 1 (token 0) = true ∧ tokenForm 1 [] = false ∧ tokenForm 2 (token 0) = false ∧ tokenBinds (token 0) L0 = true ∧
    tokenBinds (token 1) L0 = false ∧ nonceOk (token 0) L0 = false ∧ nonceOk (token 0) (nonced L0) = true ∧
    nonceOk (token 0) { nonced L0 with time := 600000000000 } = false ∧ 0 + 600000000000 ≤ (600000000000 : Nat) ∧
    L0.time < 0 + 600000000000 ∧
    (let r := runOf 0x36 128 0
     ∀ lc ∈ [1, 2], let q := iovaReadN 9 r.d.ctx r.d.src 128 (lcRun 0x36 128 0 lc, stoInit)
       q.1.toOption = some (List.replicate 128 0) ∧ q.2.1.otp.lc = lc ∧ (tokenCheck 1 (List.replicate 128 0) q.2.1).1 ≠ 0) := by
  decide +kernel
/-- Where the signature check of the standard accepts the token, every check passes. -/
def tokLane : Lane := { nonced L0 with otp := { L0.otp with keys := List.replicate 7 ⟨1, [], []⟩ } }
theorem witness_token_passes (h : ∀ a b c d e, Config.sm2Verify a b c d e = true) : (tokenCheck 1 (token 0) tokLane).1 = 0 := by
  have h1 : tokenForm 1 (token 0) = true := by decide +kernel
  have h2 : tokenBinds (token 0) tokLane = true := by decide +kernel
  have h3 : nonceOk (token 0) tokLane = true := by decide +kernel
  have h4 : ∃ k, tokenKey 1 tokLane = some k := ⟨([], []), by decide +kernel⟩
  obtain ⟨k, hk⟩ := h4
  unfold tokenCheck
  rw [h1, h2, h3, hk]
  simp [h]
theorem witness_transitions :
    (let r := runOf 0x38 128 0x300
     let a := iovaReadN 9 r.d.ctx r.d.src 128 (lcRun 0x38 128 0x300 1, stoInit)
     a.1.toOption = some (List.replicate 128 0) ∧ transition a.2.1.otp.pendLc (bitsOf r.d.w4 8 4) = some 2 ∧ (2 : Nat) ≠ 0 ∧
     lockRefuses F.LCS_CTL_LOCK a.2.1 = false) ∧
    (let r := runOf 0x38 128 0x100
     let a := iovaReadN 9 r.d.ctx r.d.src 128 (lcRun 0x38 128 0x100 3, stoInit)
     a.1.toOption.isSome = true ∧ transition a.2.1.otp.pendLc (bitsOf r.d.w4 8 4) = none) ∧
    (let S := lcLane 4 (inPhase .scrapped)
     S.pwr.phase = .scrapped ∧ S.otp.lc = 4 ∧ inServiceHold S = false) := by decide +kernel
theorem witness_nonce : runningOp (lcRun 0x35 32 0 2) 9 0x35 = some (runOf 0x35 32 0) := by decide +kernel
theorem witness_lifecycle :
    (let r := runOf 0x38 0 0x200
     let a := iovaReadN 9 r.d.ctx r.d.src 0 (lcRun 0x38 0 0x200 1, stoInit)
     a.1.toOption = some [] ∧ transition a.2.1.otp.pendLc (bitsOf r.d.w4 8 4) = some 0 ∧ lockRefuses F.LCS_CTL_LOCK a.2.1 = false) ∧
    (let r := runOf 0x38 0 0x400
     let a := iovaReadN 9 r.d.ctx r.d.src 0 (lcRun 0x38 0 0x400 3, stoInit)
     transition a.2.1.otp.pendLc (bitsOf r.d.w4 8 4) = some 0 ∧ bitsOf r.d.w4 8 4 ≠ 2 ∧ lockRefuses F.LCS_CTL_LOCK a.2.1 = false ∧
     transition 3 1 = none ∧ lockRefuses F.LCS_CTL_LOCK ((lcRun 0x38 0 0x400 3).setB F.LCS_CTL_LOCK true) = true) ∧
    (let L : Lane := { L0 with lcs := { L0.lcs with svc := true, svcEnd := 0 } }
     L.lcs.svc = true ∧ L.lcs.svcEnd ≤ L.time ∧ ({ L with lcs := { L.lcs with svcEnd := 1 } } : Lane).time < 1) ∧
    debugAllowed L0 = true ∧ debugAllowed (lcLane 2 L0) = false ∧ debugAllowed (lcLane 2 (held8 L0)) = true ∧
    (L0.setB F.TLS_MS_CFG_PAIR true).b F.TLS_MS_CFG_PAIR = true := by decide +kernel
def cryLane (op len : Nat) (w4 : Word) (lc : Nat) : Lane := running 2 (runOf op len w4) (lcLane lc L0)
theorem witness_crypto :
    (let r := runOf 1 4 0
     let L := cryLane 1 4 0 1
     let q := iovaReadN 2 r.d.ctx (r.d.src + 0) r.d.length (L, stoInit)
     runningOp L 2 0x01 = some r ∧ r.progress = 0 ∧ r.msg = [] ∧ r.d.length ≤ 4096 ∧ q.1.toOption = some [0, 0, 0, 0]) ∧
    (let r := runOf 2 160 0
     runningOp (cryLane 2 160 0 1) 2 0x02 = some r ∧
     (iovaReadN 2 r.d.ctx r.d.src 160 (cryLane 2 160 0 1, stoInit)).1.toOption.isSome = true) ∧ L0.otp.lc ≠ 3 ∧
    (lcLane 3 L0).otp.lc = 3 ∧ runningOp (cryLane 3 4 0 3) 2 0x03 = some (runOf 3 4 0) ∧
    runningOp (cryLane 5 4 0 3) 2 0x05 = some (runOf 5 4 0) ∧ runningOp L0 2 0x01 = none ∧ runningOp L0 2 0x05 = none := by decide +kernel
theorem witness_signatures :
    (let r := runOf 4 32 0
     let cq := iovaReadN 2 r.d.ctx r.d.src 32 (cryLane 4 32 0 1, stoInit)
     runningOp (cryLane 4 32 0 1) 2 0x04 = some r ∧ cq.1.toOption = some (List.replicate 32 0) ∧ bitAt r.d.w4 0 = false ∧
     (attestBody (List.replicate 32 0) cq.2.1).length = 192) := by decide +kernel
theorem witness_shared :
    (let K := L0.setB F.LSM_CTL_LOCK true
     let T := K.putN (F.LSM_RTn_THRESH0 0x30) 1
     bitAt (1 : Word) 0 = true ∧ bitAt (0xFFFFFFFE : Word) 0 = false ∧ memWf L0.mem = true ∧ smSorted L0.regs = true ∧
     smSorted L0.lsm.cnt = true ∧ L0.b F.LSM_CTL_LOCK = false ∧ K.b F.LSM_CTL_LOCK = true ∧ forcedClass 0x0C0 = none ∧
     lsmThresh K 0x0C0 ≤ raiseCount K 0x0C0 ∧ raiseCount T 0x0C0 < lsmThresh T 0x0C0 ∧ T.b F.LSM_CTL_LOCK = true) := by decide +kernel
theorem witness_crc_element :
    (let L := L0.wrWords (dirAddr 0) [0x88204000, 0, 0x1000, 0]
     (readWords (dirAddr 0) 4 L).1.isSome = true ∧ (readWords (dirAddr 0) 4 L).2 = L ∧ (dirRaw L 0).offset = 0 ∧ (dirRaw L 0).len = 2 ∧
     (readW (bufAddr (dirRaw L 0)) L).1 = some 0 ∧ (readW (bufAddr (dirRaw L 0)) L).2 = L) := by decide +kernel

/-! Effects, with values that the rules give -/
/-- A running task with D0 to D3 as given, and the bank after an instruction. -/
def dTask (d : List Word) : Lane := dsp 1 (fun x => { x with main := { bankZero with d := d ++ List.replicate (16 - d.length) 0 } })
def aluGives (c : Instr) (d : List Word) (r : Word) (sat : Bool) : Bool :=
  decide (dReg (after c (dTask d)) 3 = r ∧ (dspBank (after c (dTask d))).sat = sat)
/-- R214: ADD is modulo 2^32, ADDS saturates and sets SAT; SHRA keeps the sign; NEGS saturates; SELZ leaves D3 unchanged. -/
theorem test_alu : aluGives (.add .a 3 1 2) [0, 0x7FFFFFFF, 1] 0x80000000 false = true ∧
    aluGives (.adds .a 3 1 2) [0, 0x7FFFFFFF, 1] 0x7FFFFFFF true = true ∧
    aluGives (.sub .a 3 1 2) [0, 5, 7] 0xFFFFFFFE false = true ∧ aluGives (.subs .a 3 1 2) [0, 0x80000000, 1] 0x80000000 true = true ∧
    aluGives (.shra .a 3 1 4) [0, 0x80000000] 0xF8000000 false = true ∧ aluGives (.shrl .a 3 1 4) [0, 0x80000000] 0x08000000 false = true ∧
    aluGives (.negs .a 3 1) [0, 0x80000000] 0x7FFFFFFF true = true ∧ aluGives (.selz .a 3 1 2) [0, 1, 7, 9] 9 false = true ∧
    aluGives (.selneg .a 3 1 2) [0, 0xFFFFFFFF, 7, 9] 7 false = true ∧ aluGives (.clamp .a 3 1 10) [0, 0xFFFFFF00] 0xFFFFFFF6 false = true ∧
    aluGives (.min .a 3 1 2) [0, 0xFFFFFFFF, 1] 0xFFFFFFFF false = true ∧ aluGives (.max .a 3 1 2) [0, 0xFFFFFFFF, 1] 1 false = true := by
  decide +kernel
/-- R211: MPY and a later MAC on A0, the crossed pair selection, and CLR of all four. -/
theorem test_mac :
    (let m : MacArgs := ⟨0, 0, 1, 2, 3, mvN, mvN⟩
     let L := after (.mac .a m) (after (.mpy .a m) (dTask [3, 0xFFFFFFFE, 5, 7]))
     (dspBank L).aF = [-12, 70, 0, 0] ∧
     (dspBank (after (.mpy .a { m with mpair := 2 }) (dTask [3, 0xFFFFFFFE, 5, 7]))).aF = [-6, 35, 21, -10] ∧
     (dspBank (after (.mpy .a { m with mpair := 3 }) (dTask [3, 0xFFFFFFFE, 5, 7]))).aF = [29, -31, 0, 0] ∧
     (dspBank (after (.clr .a 2 mvN mvN) L)).aF = [0, 0, 0, 0]) := by decide +kernel
/-- R210, R214, R215: words written out from the formats. -/
theorem test_words :
    decDsp .a 0x4200108000000000 = some (.add .a 0 1 2) ∧ decDsp .a 0x400C0000FFFFFFFF = some (.ldi .a 3 0xFFFFFFFF) ∧
    decDsp .a 0xC000000000000000 = none ∧ decDsp .a 0x5500000000000000 = none ∧ decDsp .a 0 = some (.macPairNop .a mvN mvN) ∧
    decDsp .a 0x8000000000000000 = some (.cdspNop .a) := by decide +kernel
/-- R316: the check value of CRC-32C. -/
theorem test_crc : crc32c [0x31, 0x32, 0x33, 0x34, 0x35, 0x36, 0x37, 0x38, 0x39] = 0xE3069283 := by decide +kernel
/-- AOS_SWRST: another value does nothing; the key resets the lane and its cause is recorded (R406). -/
theorem test_swrst : after (.aosSwrst .a 0x0000A55B) L0 = L0 ∧ (after (.aosSwrst .a 0x0000A55A) L0).pwr.phase ≠ .run := by decide +kernel
/-- R129: a doorbell may fill the ring and no more; it may not go back. -/
theorem test_doorbell :
    (let L := ringOn 1 65535 L0
     (after (.doorbell .a 3 15) L).n (F.RINGn_PI_PI 3) = 15 ∧ (after (.doorbell .a 3 16) L).n (F.RINGn_PI_PI 3) = 1 ∧
     (after (.doorbell .a 3 16) L).b (F.RINGn_STAT_DB_OVER 3) = true ∧ (after (.doorbell .a 3 0) L).b (F.RINGn_STAT_DB_BACK 3) = true) := by
  decide +kernel
/-- R17: a write-1-to-clear register; a read-only register keeps its value. -/
theorem test_registers :
    (let L := (L0.putN F.GPIO_EVSTAT_EV 3).put F.AOS_TMR_TMR 9
     (after (.registerWrite .a F.GPIO_EVSTAT_EV.addr 1) L).n F.GPIO_EVSTAT_EV = 2 ∧
     (after (.registerWrite .a F.AOS_TMR_TMR.addr 1) L).n F.AOS_TMR_TMR = 9 ∧
     (after (.registerWrite .a F.GPIO_OUT_OUT.addr 5) L).n F.GPIO_OUT_OUT = 5) := by decide +kernel
/-- The queue is first in, first out. -/
theorem test_queue : (match step { State.reset with pending := [.storageDiePowerOn, .steMount] } with
    | .next t => t.pending == [.steMount] && t.sto.powered && !t.sto.mounted
    | _ => false) = true := by decide +kernel

end Sys2Proof.Tests
end

section
/-! SUPPORT. Proofs of the statements about reset and the clear registers. First the layer they share: an effect on one lane,
what lies beside the registers, a list of fields set to 0. -/

namespace Sys2Proof.Machine

/-! An effect on one lane -/

theorem onLane_eq_self {s : State} {l : LaneId} {f : Lane → Lane} (h : f (s.lane l) = s.lane l) : s.onLane l f = s := by
  simp [State.onLane, h]

theorem onLane_whenLive {s : State} {l : LaneId} (f : Lane → Lane) (h : (s.lane l).live = true) :
    s.onLane l (whenLive f) = s.onLane l f := by
  simp [State.onLane, whenLive_live f _ h]

/-- An effect on one lane leaves the other lanes, the storage die and the waiting commands (R23). -/
theorem onlyLane_onLane (l : LaneId) (s : State) (f : Lane → Lane) : onlyLane l s (s.onLane l f) :=
  ⟨⟨onLane_pending s l f, fun p hp => lane_onLane_other s l p f hp⟩, onLane_sto s l f⟩

/-! What lies beside the register fields -/

theorem sameBeside_refl (L : Lane) : sameBeside L L := rfl

theorem sameBeside_put {K L : Lane} (f : Fld) (v : Word) (h : sameBeside K L) : sameBeside K (L.put f v) := h

/-! A list of fields set to 0. A register's reset value is not listed, so that a field is 0 after the clear of a list that
names its key only where the fields of the list have the reset value 0; each clear register of the table meets this. -/

@[simp] theorem zero_nil (L : Lane) : L.zero [] = L := rfl
@[simp] theorem zero_cons (L : Lane) (f : Fld) (fs : List Fld) : L.zero (f :: fs) = (L.put f 0).zero fs := rfl
theorem zero_append (L : Lane) (fs gs : List Fld) : L.zero (fs ++ gs) = (L.zero fs).zero gs := List.foldl_append ..

theorem sameBeside_zero {K L : Lane} (fs : List Fld) (h : sameBeside K L) : sameBeside K (L.zero fs) := by
  induction fs generalizing L with
  | nil => exact h
  | cons g gs ih => exact ih (sameBeside_put g 0 h)

/-- A field that no field of the list shares its home with reads as before. -/
theorem zero_fld_other {L : Lane} {fs : List Fld} {f : Fld} (hs : smSorted L.regs = true) (hk : ∀ g ∈ fs, g.key ≠ f.key) :
    (L.zero fs).fld f = L.fld f := by
  induction fs generalizing L with
  | nil => rfl
  | cons g gs ih =>
    obtain ⟨hg, hgs⟩ := List.forall_mem_cons.mp hk
    rw [zero_cons, ih (put_sorted L g 0 hs) hgs, fld_put L g f 0 hs (fun e => absurd e.symm hg), if_neg hg.symm]

theorem put_zero_same {L : Lane} {f : Fld} (hs : smSorted L.regs = true) : (L.put f 0).fld f = 0 := by
  rw [fld_put L f f 0 hs (fun _ => rfl), if_pos rfl]
  simp [toW]

theorem put_zero_keeps_zero {L : Lane} {f g : Fld} (hs : smSorted L.regs = true) (hr : f.rst = g.rst) (h : L.fld f = 0) :
    (L.put g 0).fld f = 0 := by
  rw [fld_put L g f 0 hs (fun _ => hr)]
  split
  · simp [toW]
  · exact h

theorem zero_keeps_zero {L : Lane} {fs : List Fld} {f : Fld} (hs : smSorted L.regs = true) (hf : f.rst = 0)
    (hr : ∀ g ∈ fs, g.rst = 0) (h : L.fld f = 0) : (L.zero fs).fld f = 0 := by
  induction fs generalizing L with
  | nil => exact h
  | cons g gs ih =>
    obtain ⟨hg, hgs⟩ := List.forall_mem_cons.mp hr
    exact ih (put_sorted L g 0 hs) hgs (put_zero_keeps_zero hs (hf.trans hg.symm) h)

/-- Every field of the list reads 0. -/
theorem zero_fld {L : Lane} {fs : List Fld} (hs : smSorted L.regs = true) (hr : ∀ g ∈ fs, g.rst = 0) :
    ∀ f ∈ fs, (L.zero fs).fld f = 0 := by
  induction fs generalizing L with
  | nil => exact fun f hf => absurd hf List.not_mem_nil
  | cons g gs ih =>
    obtain ⟨hg, hgs⟩ := List.forall_mem_cons.mp hr
    have hput : smSorted (L.put g 0).regs = true := put_sorted L g 0 hs
    rw [zero_cons]
    exact List.forall_mem_cons.mpr ⟨zero_keeps_zero hput hg hgs (put_zero_same hs), ih hput hgs⟩

/-- Lists of fields cleared one after the other, each under a condition, are one list cleared. -/
theorem forEach_zero (ms : List Nat) (p : Nat → Bool) (fs : Nat → List Fld) (L : Lane) :
    forEach ms (fun m a => if p m then a.zero (fs m) else a) L = L.zero ((ms.filter p).flatMap fs) := by
  induction ms generalizing L with
  | nil => rfl
  | cons m ms ih =>
    have hcons : forEach (m :: ms) (fun m a => if p m then a.zero (fs m) else a) L =
        forEach ms (fun m a => if p m then a.zero (fs m) else a) (if p m then L.zero (fs m) else L) := rfl
    rw [hcons, ih]
    cases hm : p m <;> simp [hm, zero_append]

/-- The clear of a 32-bit field's bits. -/
theorem clrF_fld_same {L : Lane} {f : Fld} (v : Word) (hs : smSorted L.regs = true) (hw : f.w = 32) :
    (L.clrF f v).fld f = L.fld f &&& ~~~ v := by
  rw [clrF_eq, fld_put L f f _ hs (fun _ => rfl), if_pos rfl, hw, toW, Nat.mod_eq_of_lt (BitVec.isLt _),
    BitVec.ofNat_toNat, BitVec.setWidth_eq]

/-! Reset -/

theorem reset_lane (l : LaneId) : State.reset.lane l = lanePowered l otpInit := by cases l <;> rfl
theorem lanePowered_fld (l : LaneId) (o : OtpSt) (f : Fld) : (lanePowered l o).fld f = toW f.rst := rfl
theorem lanePowered_rdB (l : LaneId) (o : OtpSt) (a : Nat) : (lanePowered l o).rdB a = memDefault a := rfl

/-- Settles O3: each lane is `lanePowered`, which lists no register and no byte of memory. -/
theorem resetLeavesEveryLaneAtPowerOn : Obligations.ResetLeavesEveryLaneAtPowerOn := by
  refine ⟨rfl, rfl, fun l => ?_⟩
  rw [reset_lane]
  exact ⟨rfl, rfl, rfl, lanePowered_fld l otpInit, rfl, lanePowered_rdB l otpInit⟩

/-! Clear registers -/

theorem clearBy_of_set {v : Word} (fs : List Fld) (L : Lane) (h : bitAt v 0 = true) : clearBy fs v L = L.zero fs := by
  simp [clearBy, h]
theorem clearBy_of_clear {v : Word} (fs : List Fld) (L : Lane) (h : bitAt v 0 = false) : clearBy fs v L = L := by
  simp [clearBy, h]

/-- Command `c` is the write of `v` to the clear register of the fields `fs`, all of which lane reset sets to 0 (R14). -/
structure IsClear (l : LaneId) (v : Word) (c : Instr) (fs : List Fld) : Prop where
  exec_eq : ∀ s, exec c s = .next (s.onLane l (whenLive (clearBy fs v)))
  rst_zero : ∀ f ∈ fs, f.rst = 0

theorem rst_zero_of_all {fs : List Fld} (h : fs.all (fun f => f.rst == 0) = true) : ∀ f ∈ fs, f.rst = 0 :=
  fun f hf => eq_of_beq (List.all_eq_true.mp h f hf)

section
variable {l : LaneId} {v : Word} {c : Instr} {fs : List Fld} {s : State}

theorem IsClear.exec_of_clear (hc : IsClear l v c fs) (h0 : bitAt v 0 = false) : exec c s = .next s := by
  have hself : whenLive (clearBy fs v) (s.lane l) = s.lane l := by simp [whenLive, clearBy_of_clear fs _ h0]
  rw [hc.exec_eq, onLane_eq_self hself]

theorem IsClear.exec_of_set (hc : IsClear l v c fs) (hlive : (s.lane l).live = true) (h0 : bitAt v 0 = true) :
    exec c s = .next (s.onLane l (fun L => L.zero fs)) := by
  rw [hc.exec_eq, onLane_whenLive _ hlive]
  simp [State.onLane, clearBy_of_set fs _ h0]

end

/-- A write to LSM_ECC_CLR clears the fields of every memory whose bit is 1, as one list (R44). -/
theorem eccClr_eq_zero (v : Word) (L : Lane) : eccClr v L = L.zero (((List.range 10).filter (bitAt v)).flatMap eccFlds) :=
  forEach_zero (List.range 10) (bitAt v) eccFlds L

theorem eccFlds_rst (m : Nat) : ∀ f ∈ eccFlds m, f.rst = 0 := rst_zero_of_all rfl

theorem eccClr_fld {L : Lane} {v : Word} {m : Nat} (hs : smSorted L.regs = true) (hm : m < 10) (hb : bitAt v m = true) :
    ∀ f ∈ eccFlds m, (eccClr v L).fld f = 0 := by
  intro f hf
  have hrst : ∀ g ∈ ((List.range 10).filter (bitAt v)).flatMap eccFlds, g.rst = 0 := fun g hg => by
    obtain ⟨k, -, hgk⟩ := List.mem_flatMap.mp hg
    exact eccFlds_rst k g hgk
  have hmem : m ∈ (List.range 10).filter (bitAt v) := List.mem_filter.mpr ⟨List.mem_range.mpr hm, hb⟩
  rw [eccClr_eq_zero]
  exact zero_fld hs hrst f (List.mem_flatMap.mpr ⟨m, hmem, hf⟩)

theorem exec_lsmEccClr (l : LaneId) (v : Word) (s : State) (hlive : (s.lane l).live = true) :
    exec (.lsmEccClr l v) s = .next (s.onLane l (eccClr v)) := by
  rw [← onLane_whenLive (eccClr v) hlive]; rfl

theorem exec_lsmRawClear (l : LaneId) (k : Fin 8) (v : Word) (s : State) (hlive : (s.lane l).live = true) :
    exec (.lsmRawClear l k v) s = .next (s.onLane l (fun L => L.clrF (F.LSM_RAWn_RAW k.val) v)) := by
  rw [← onLane_whenLive _ hlive]; rfl

/-- Settles O57: each command of the list clears a list of fields that lane reset sets to 0 (`IsClear`), and LSM_ECC_CLR
clears the lists of several memories as one. -/
theorem clearsSetTheirFieldsToZero : Obligations.ClearsSetTheirFieldsToZero := by
  intro l s v e n k x L hx hlive hs
  have hc : IsClear l v x.1 x.2 := by
    simp only [List.mem_cons, List.not_mem_nil, or_false] at hx
    rcases hx with rfl | rfl | rfl | rfl | rfl | rfl | rfl | rfl | rfl | rfl | rfl | rfl | rfl | rfl | rfl | rfl | rfl | rfl |
      rfl | rfl | rfl <;> exact ⟨fun _ => rfl, rst_zero_of_all rfl⟩
  refine ⟨hc.exec_of_clear, fun h0 => ?_, ?_, ?_⟩
  · refine ⟨_, hc.exec_of_set hlive h0, onlyLane_onLane l s _, ?_⟩
    rw [lane_onLane_same]
    exact ⟨zero_fld hs hc.rst_zero, fun f hf => zero_fld_other hs hf, sameBeside_zero x.2 (sameBeside_refl L)⟩
  · refine ⟨_, exec_lsmRawClear l k v s hlive, onlyLane_onLane l s _, ?_⟩
    rw [lane_onLane_same]
    exact ⟨clrF_fld_same v hs rfl, sameBeside_put _ _ (sameBeside_refl L)⟩
  · refine ⟨_, exec_lsmEccClr l v s hlive, onlyLane_onLane l s _, ?_⟩
    rw [lane_onLane_same]
    refine ⟨?_, fun m hm hb => eccClr_fld hs hm hb⟩
    rw [eccClr_eq_zero]
    exact sameBeside_zero _ (sameBeside_refl L)

end Sys2Proof.Machine
end

section
/-! SUPPORT. Proofs of the statements about what a command reaches and what it sees (R23). A function of the state stays within a
lane when it changes nothing but this lane and the storage die and when nothing else decides what it makes of them. -/

namespace Sys2Proof.Machine

/-! Functions that stay within a lane -/

/-- Two states agree on lane `l` and on the storage die. -/
def sameView (l : LaneId) (s s' : State) : Prop := s.lane l = s'.lane l ∧ s.sto = s'.sto

/-- `f` stays within lane `l` and the storage die (R23). -/
def Within (l : LaneId) (f : State → State) : Prop :=
  ∀ s s', sameView l s s' → othersSame l s (f s) ∧ sameView l (f s) (f s')

theorem othersSame_refl (l : LaneId) (s : State) : othersSame l s s := ⟨rfl, fun _ _ => rfl⟩

theorem othersSame_trans {l : LaneId} {s t u : State} (h : othersSame l s t) (k : othersSame l t u) : othersSame l s u :=
  ⟨k.1.trans h.1, fun p hp => (k.2 p hp).trans (h.2 p hp)⟩

section
variable {l : LaneId} {f g : State → State}

theorem within_id : Within l (fun s => s) := fun s _ h => ⟨othersSame_refl l s, h⟩

theorem Within.then (hf : Within l f) (hg : Within l g) : Within l (fun s => g (f s)) := fun s s' h => by
  obtain ⟨hfo, hfv⟩ := hf s s' h
  obtain ⟨hgo, hgv⟩ := hg (f s) (f s') hfv
  exact ⟨othersSame_trans hfo hgo, hgv⟩

theorem Within.ite (p : Prop) [Decidable p] (hf : Within l f) (hg : Within l g) :
    Within l (fun s => if p then f s else g s) := by
  by_cases hp : p <;> simpa [hp]

theorem within_onLaneDie (F : Lane → StorageDie → Lane × StorageDie) : Within l (fun s => s.onLaneDie l F) := by
  intro s s' ⟨hlane, hsto⟩
  refine ⟨⟨onLaneDie_pending s l F, fun p hp => lane_onLaneDie_other s l p F hp⟩, ?_, ?_⟩
  · simp [hlane, hsto]
  · simp [hlane, hsto]

theorem within_onLane (F : Lane → Lane) : Within l (fun s => s.onLane l F) := by
  intro s s' ⟨hlane, hsto⟩
  refine ⟨(onlyLane_onLane l s F).1, ?_, ?_⟩
  · simp [hlane]
  · simp [hsto]

theorem within_setLane (L : Lane) : Within l (fun s => s.setLane l L) := within_onLane (fun _ => L)

theorem within_onDie (F : LD → LD) : Within l (onDie l F) := within_onLaneDie _

end

/-! The CDSP's debug step: the fetched word is a CDSP instruction of the same lane -/

/-- An issued CDSP instruction is an effect on its lane. -/
theorem dspRun_onLane {i : Instr} {l : LaneId} (hl : i.laneOf = some l) :
    ∃ f : Lane → Lane, ∀ s, dspRun i s = .next (s.onLane l f) := by
  cases i with
  | macPairNop | mpy | mac | msu | macsu | clr | asr | asl | lda | ldi | mov | add | sub | adds | subs | addi | and | or | xor
  | shl | shls | shra | shrl | min | max | abss | negs | selneg | selz | clamp | cdspNop | jmp | call | ret | loop | rep | tend
  | rti | dbell | bkpt =>
    obtain rfl := Option.some.inj hl
    exact ⟨_, fun _ => rfl⟩
  | _ => exact ⟨id, fun s => congrArg _ (onLane_eq_self rfl).symm⟩

/-- Every instruction that a decoder of lane `l` may answer is of lane `l`. -/
def decodesFor (l : LaneId) (o : Option Instr) : Prop := ∀ i, o = some i → i.laneOf = some l

section
variable {l : LaneId} {i : Instr}

@[simp] theorem decodesFor_none : decodesFor l none := fun _ h => nomatch h

@[simp] theorem decodesFor_some : decodesFor l (some i) ↔ i.laneOf = some l :=
  ⟨fun h => h i rfl, fun h _ hj => by rwa [← Option.some.inj hj]⟩

@[simp] theorem decodesFor_guard {p : Prop} [Decidable p] :
    decodesFor l (if p then some i else none) ↔ (p → i.laneOf = some l) := by
  by_cases hp : p <;> simp [hp]

theorem decodesFor_unless {p : Prop} [Decidable p] {o : Option Instr} (h : decodesFor l o) :
    decodesFor l (if p then none else o) := by
  by_cases hp : p <;> simp [hp, h]

end

theorem decPar_laneOf (l : LaneId) (w : Word64) : decodesFor l (decPar l w) := by
  unfold decPar
  split
  · refine decodesFor_unless ?_
    split <;> simp [Instr.laneOf]
  · exact decodesFor_none

theorem decAlu_laneOf (l : LaneId) (w : Word64) : decodesFor l (decAlu l w) := by
  unfold decAlu
  refine decodesFor_unless ?_
  split
  · simp [Instr.laneOf]
  · simp [Instr.laneOf]
  · refine decodesFor_unless ?_
    split <;> simp [Instr.laneOf]

theorem decCtl_laneOf (l : LaneId) (w : Word64) : decodesFor l (decCtl l w) := by
  unfold decCtl
  refine decodesFor_unless ?_
  split <;> simp [Instr.laneOf]

theorem decDsp_laneOf (l : LaneId) (w : Word64) : decodesFor l (decDsp l w) := by
  unfold decDsp
  split
  · exact decPar_laneOf l w
  · exact decAlu_laneOf l w
  · exact decCtl_laneOf l w
  · exact decodesFor_none

/-- What the debug step makes of a lane depends on this lane alone. -/
theorem execCdspStep_setLane (l : LaneId) (L : Lane) :
    ∃ A, ∀ s : State, s.lane l = L → execCdspStep l s = .next (s.setLane l A) := by
  by_cases hrun :
    L.live ∧ debugAllowed L ∧ L.b F.CDSP_STAT_HALTED ∧ (L.n F.CDSP_STAT_STATE = 1 ∨ L.n F.CDSP_STAT_STATE = 2)
  case neg => exact ⟨L, fun s hs => by subst hs; simp [execCdspStep, hrun]⟩
  rcases hr : readD (pBase + 8 * (dspBank L).pc) (L.setB F.CDSP_STAT_HALTED false) with ⟨_ | w, A⟩
  · exact ⟨_, fun s hs => by simp only [execCdspStep, hs, if_pos hrun, hr]; rfl⟩
  cases hdec : decDsp l w with
  | none => exact ⟨_, fun s hs => by simp only [execCdspStep, hs, if_pos hrun, hr, hdec]; rfl⟩
  | some i =>
    obtain ⟨f, hf⟩ := dspRun_onLane (decDsp_laneOf l w i hdec)
    exact ⟨((f A).setB F.CDSP_STAT_HALTED true).setB F.CDSP_DBG_CTL_HALTED true, fun s hs => by
      simp [execCdspStep, hs, if_pos hrun, hr, hdec, hf, State.onLane]⟩

theorem execCdspStep_onLane (l : LaneId) : ∃ f : Lane → Lane, ∀ s, execCdspStep l s = .next (s.onLane l f) := by
  choose f hf using execCdspStep_setLane l
  exact ⟨f, fun s => hf (s.lane l) s rfl⟩

/-! Register writes, core accesses, crossings and woken domains -/

section
variable {l : LaneId}

theorem within_dspDbgWrite (v : Word) : Within l (dspDbgWrite l v) := by
  obtain ⟨f, hf⟩ := execCdspStep_onLane l
  have hstep : ∀ s : State, stateOf (execCdspStep l s) s = s.onLane l f := fun s => by rw [hf]; rfl
  unfold dspDbgWrite
  simp only [hstep]
  exact ((Within.ite _ (within_onLane dbgHalt) within_id).then (Within.ite _ (within_onLane dbgResume) within_id)).then
    (Within.ite _ (within_onLane f) within_id)

/-- A register write stays within its lane: a ring's ABORT and ENABLE and a CDSP's STEP reach the storage die at most. -/
theorem within_regWrite (a : Nat) (v : Word) : Within l (regWrite l a v) := by
  intro s s' h
  unfold regWrite
  rw [← h.1]
  have hblock : Within l (fun s => s.onLane l (blockWrite a v)) := within_onLane _
  split
  · exact within_onLane _ s s' h
  split
  · exact within_onLane _ s s' h
  split
  · exact within_dspDbgWrite v s s' h
  split
  · dsimp only
    split
    · exact hblock.then (within_onDie _) s s' h
    split
    · exact hblock.then (within_onDie _) s s' h
    · exact hblock s s' h
  · exact within_id s s' h

theorem within_coreDo (c : Nat) (op : CoreOp) (w : Width) (a : Nat) (v : Word) : Within l (coreDo l c op w a v) := by
  unfold coreDo
  refine Within.ite _ ?_ (Within.ite _ ?_ (within_onLaneDie _))
  · cases op <;> exact within_onLane _
  · cases op
    case store => exact (within_regWrite a v).then (within_onLane _)
    all_goals exact within_onLaneDie _

theorem within_coreGo (c : Nat) (op : CoreOp) (w : Width) (a : Nat) (v : Word) : Within l (coreGo l c op w a v) := by
  intro s s' h
  unfold coreGo
  rw [← h.1]
  split
  · exact within_coreDo c op w a v s s' h
  dsimp only
  have hpass (L : Lane) : Within l (fun s => coreDo l c op w a v (s.setLane l L)) :=
    (within_setLane L).then (within_coreDo c op w a v)
  split
  · exact (within_setLane _).then (within_onLane _) s s' h
  split
  · exact hpass _ s s' h
  · exact (hpass _).then (within_onLane _) s s' h

theorem within_coreAccess (c : Nat) (op : CoreOp) (w : Width) (a : Nat) (v : Word) : Within l (coreAccess l c op w a v) := by
  intro s s' h
  unfold coreAccess
  rw [← h.1]
  dsimp only
  have hgo : Within l (coreGo l c op w a v) := within_coreGo c op w a v
  split
  · split
    · exact within_onLane _ s s' h
    split
    · exact hgo s s' h
    split
    · exact within_onLane _ s s' h
    split
    · exact within_onLane _ s s' h
    · exact hgo s s' h
  · exact within_id s s' h

theorem within_xingDeliver (id : Nat) : Within l (xingDeliver l id) := by
  intro s s' h
  unfold xingDeliver
  rw [← h.1]
  dsimp only
  split
  · split
    · exact within_id s s' h
    split
    · exact (within_setLane _).then (within_regWrite _ _) s s' h
    · exact (within_setLane _).then (within_onLaneDie _) s s' h
  split
  · split
    · exact within_id s s' h
    · exact within_setLane _ s s' h
  · exact within_id s s' h

theorem within_accSpoilt (id : Nat) (x : BusAcc) (req : Bool) : Within l (accSpoilt l id x req) :=
  Within.ite _ (within_onLane _) ((within_coreDo x.core.val x.op x.w x.addr.toNat x.data).then (within_onLane _))

theorem within_crossingTransfer (id : Nat) (parityOk : Bool) (acc : Option BusAcc) :
    Within l (crossingTransfer l id parityOk acc) := by
  intro s s' h
  unfold crossingTransfer
  rw [← h.1]
  dsimp only
  split
  · split
    · split
      · exact within_coreGo _ _ _ _ _ s s' h
      · exact (within_setLane _).then (within_accSpoilt _ _ _) s s' h
    · split
      · exact (within_setLane _).then (within_xingDeliver id) s s' h
      · exact (within_setLane _).then (within_onLane _) s s' h
  · exact within_id s s' h

theorem within_xingAbandon (id : Nat) (acc : Option BusAcc) : Within l (xingAbandon l id acc) := by
  intro s s' h
  unfold xingAbandon
  rw [← h.1]
  dsimp only
  split
  · split
    · exact (Within.ite _ within_id (within_coreDo _ _ _ _ _)).then (within_onLane _) s s' h
    · exact within_onLane _ s s' h
  · exact within_id s s' h

theorem within_heldGo (c d : Nat) : Within l (heldGo l c d) := by
  intro s s' h
  unfold heldGo
  rw [← h.1]
  split
  · exact within_coreGo _ _ _ _ _ s s' h
  · exact within_id s s' h

theorem within_domainWoken (d : Nat) : Within l (domainWoken l d) := by
  intro s s' h
  unfold domainWoken
  rw [← h.1]
  dsimp only
  split
  · exact (((within_setLane _).then (Within.ite _ (within_onDie wokenCore) within_id)).then (within_heldGo 0 d)).then
      (within_heldGo 1 d) s s' h
  · exact within_id s s' h

theorem within_onSto (F : StorageDie → StorageDie) : Within l (fun s => { s with sto := F s.sto }) := by
  intro s s' ⟨hlane, hsto⟩
  exact ⟨⟨rfl, fun p _ => lane_sto_update s p _⟩, by simp [hlane], by simp [hsto]⟩

/-- A die that does not respond to a WRITE changes the die alone (R383). -/
theorem within_noResponse : Within l (fun s => if writes (s.lane l) s.sto then meetNand .noResponse s else s) := by
  intro s s' h
  dsimp only
  rw [← h.1, ← h.2]
  split
  · exact within_onSto (fun d => { d with dieFault := true }) s s' h
  · exact within_id s s' h

end

/-! Each command of one lane stays within it, but for a TIME transfer and for a command that binds the device -/

/-- The meaning of command `c` stays within lane `l`. -/
def RunsWithin (l : LaneId) (c : Instr) : Prop := ∃ f, Within l f ∧ ∀ s, exec c s = .next (f s)

section
variable {l : LaneId} {c : Instr}

theorem runsWithin_of_onLane {F : Lane → Lane} (h : ∀ s, exec c s = .next (s.onLane l F)) : RunsWithin l c :=
  ⟨_, within_onLane F, h⟩

theorem runsWithin_of_onDie {F : LD → LD} (h : ∀ s, exec c s = .next (onDie l F s)) : RunsWithin l c :=
  ⟨_, within_onDie F, h⟩

theorem runsWithin_write {bad : Option NandTrouble} (hl : (Instr.write l bad).laneOf = some l) :
    RunsWithin l (.write l bad) := by
  match bad, hl with
  | none, _ => exact runsWithin_of_onDie fun _ => rfl
  | some .noResponse, _ => exact ⟨_, within_noResponse.then (within_onDie (storageRun 0x02 writeUnit)), fun _ => rfl⟩

theorem runsWithin_cdspStep : RunsWithin l (.cdspStep l) := by
  obtain ⟨f, hf⟩ := execCdspStep_onLane l
  exact runsWithin_of_onLane hf

theorem within_regWrite_if (p : Lane → Prop) [DecidablePred p] (a : Nat) (v : Word) :
    Within l (fun s => if p (s.lane l) then regWrite l a v s else s) := by
  intro s s' h
  dsimp only
  rw [← h.1]
  split
  · exact within_regWrite a v s s' h
  · exact within_id s s' h

/-- The table read once for the lane that its commands reach: most are an effect on the lane, those of the rings, of Clove, of the
storage and of the recorder one on the lane and the die; the bus has its own. -/
theorem runsWithin_of_laneOf (hl : c.laneOf = some l) (hb : c.bindsDevice = false)
    (ht : ∀ k x w, c ≠ .timeTransfer l k x w) : RunsWithin l c := by
  cases c with
  | frameStart | syncFrame | coldstartFrame | syncFrameSend => exact nomatch hb
  | storageDiePowerOn | steMount | relocation | readDisturbRelocate | patrolRead | patrolLate | storageDiePowerLoss =>
    exact nomatch hl
  | timeTransfer =>
    obtain rfl := Option.some.inj hl
    exact absurd rfl (ht _ _ _)
  | write p bad =>
    obtain rfl : p = l := by
      match bad, hl with
      | none, hl => exact Option.some.inj hl
      | some .noResponse, hl => exact Option.some.inj hl
    exact runsWithin_write hl
  | cdspStep =>
    obtain rfl := Option.some.inj hl
    exact runsWithin_cdspStep
  | storageLinkDown =>
    obtain rfl := Option.some.inj hl
    exact ⟨_, within_onLaneDie _, fun _ => rfl⟩
  | linkDown | blockLockLoss =>
    obtain rfl := Option.some.inj hl
    exact ⟨_, (within_onDie _).then (within_onDie mbLost), fun _ => rfl⟩
  | registerWrite _ a val =>
    obtain rfl := Option.some.inj hl
    exact ⟨_, within_regWrite_if (fun L => L.live ∧ a.toNat % 4 = 0) a.toNat val, fun _ => rfl⟩
  | lockSet _ a val =>
    obtain rfl := Option.some.inj hl
    exact ⟨_, within_regWrite_if (fun L => L.live ∧ lockBits.any (fun f => decide (f.addr = a.toNat))) a.toNat val,
      fun _ => rfl⟩
  | coreAccess | stagingWindowAccess =>
    obtain rfl := Option.some.inj hl
    exact ⟨_, within_coreAccess _ _ _ _ _, fun _ => rfl⟩
  | crossingTransfer =>
    obtain rfl := Option.some.inj hl
    exact ⟨_, within_crossingTransfer _ _ _, fun _ => rfl⟩
  | xingTimeout =>
    obtain rfl := Option.some.inj hl
    exact ⟨_, within_xingAbandon _ _, fun _ => rfl⟩
  | domainWakeOnAccess =>
    obtain rfl := Option.some.inj hl
    exact ⟨_, within_domainWoken _, fun _ => rfl⟩
  | modeRequest | ckpt | evrMark | stageErase | stageWrite | stageVerify | stageActivate | ringEnable | ringAbort
  | descriptorFetch | descriptorBoundary | copy | fill | voteRel | mbSend | canFrameReceived | canBusOff | tpTimeout | canSend
  | canRecv | storageLinkUp | read | trim | verify | evrWrite | sealSign | segmentProgram | evrFreeze | evrRead | evrSeal
  | evrWinlist | evrRelease | evrTail | dormantStepA | dormantStepB | dormantStepD | bistElementComplete | bistAbort | bistRun
  | bistMfg | bistStatus | fwErase | fwWrite | fwVerify | fwActivate | bootcfg | svcNonce | svcEnter | svcEnd | lcAdvance
  | keySet | keyRevoke | sm3 | sm2Verify | sm2Sign | attest | random | serviceExpiry | canFrameAcknowledged
  | mailboxAcknowledged | linkIdle | sampleTransfer | sampleDeadline | voteTransfer | voteDeadline =>
    obtain rfl := Option.some.inj hl
    exact runsWithin_of_onDie fun _ => rfl
  | _ =>
    obtain rfl := Option.some.inj hl
    exact runsWithin_of_onLane fun _ => rfl

/-- A command that binds the device is an effect on its lane, after which the lanes behind its links may abandon their cold start
too (R349). -/
theorem exec_of_bindsDevice (hl : c.laneOf = some l) (hb : c.bindsDevice = true) :
    ∃ F : Lane → Lane, ∀ s, exec c s = .next (abandonAll l s (s.onLane l F)) := by
  cases c with
  | frameStart | syncFrame | coldstartFrame | syncFrameSend =>
    obtain rfl := Option.some.inj hl
    exact ⟨_, fun _ => rfl⟩
  | _ => exact nomatch hb

end

/-! A lost cold start binds the device (R349) -/

theorem linkPeer_ne (l : LaneId) (k : Nat) : linkPeer l k ≠ l := by
  cases l <;> by_cases hk : k = 0 <;> simp [linkPeer, hk, nextLane, prevLane]

theorem linkPeer_zero_ne_one (l : LaneId) : linkPeer l 0 ≠ linkPeer l 1 := by cases l <;> decide

/-- The lanes behind the two links of lane `l` abandon, each where its link is up, or no lane does. -/
theorem abandonAll_eq (l : LaneId) (s0 s1 : State) : abandonAll l s0 s1 =
    if !(s0.lane l).nte.abandoned && (s1.lane l).nte.abandoned then
      let t := if (s1.lane l).b (F.LLK_LINKl_STAT_UP 0) then s1.onLane (linkPeer l 0) (abandonTo l) else s1
      if (s1.lane l).b (F.LLK_LINKl_STAT_UP 1) then t.onLane (linkPeer l 1) (abandonTo l) else t
    else s1 := rfl

section
variable (l : LaneId) (s0 s1 : State)

theorem abandonAll_lane_same : (abandonAll l s0 s1).lane l = s1.lane l := by
  have hpeer (s : State) (k : Nat) : (s.onLane (linkPeer l k) (abandonTo l)).lane l = s.lane l :=
    lane_onLane_other s _ l _ (linkPeer_ne l k).symm
  rw [abandonAll_eq]
  split_ifs <;> simp [hpeer]

theorem abandonAll_sto : (abandonAll l s0 s1).sto = s1.sto := by
  rw [abandonAll_eq]
  split_ifs <;> simp

theorem abandonAll_pending : (abandonAll l s0 s1).pending = s1.pending := by
  rw [abandonAll_eq]
  split_ifs <;> simp

theorem abandonAll_lane_other (p : LaneId) : (abandonAll l s0 s1).lane p = s1.lane p ∨
    ((s0.lane l).nte.abandoned = false ∧ (s1.lane l).nte.abandoned = true ∧
      (abandonAll l s0 s1).lane p = abandonTo l (s1.lane p)) := by
  have hone (s : State) (q : LaneId) (b : Bool) : (if b then s.onLane q (abandonTo l) else s).lane p =
      if b ∧ p = q then abandonTo l (s.lane p) else s.lane p := by
    by_cases hq : p = q
    · subst hq; cases b <;> simp
    · cases b <;> simp [hq, lane_onLane_other]
  have hne := linkPeer_zero_ne_one l
  rw [abandonAll_eq]
  by_cases hab : (s0.lane l).nte.abandoned = false ∧ (s1.lane l).nte.abandoned = true
  · simp only [hab.1, hab.2, Bool.not_false, Bool.and_self, if_true, hone]
    by_cases hp : p = linkPeer l 0
    · have hp1 : p ≠ linkPeer l 1 := fun h => hne (hp.symm.trans h)
      simp only [hp1, and_false, if_false]
      split_ifs <;> simp
    · simp only [hp, and_false, if_false]
      split_ifs <;> simp
  · left
    rw [if_neg (by simpa using hab)]

end

theorem abandonTo_cases (x : LaneId) (L : Lane) : abandonTo x L = L ∨
    (L.live = true ∧ coldStarting L = true ∧ abandonTo x L = follow none (some x) (csAbandon L)) := by
  unfold abandonTo
  split
  case isTrue h =>
    obtain ⟨hlive, hcold⟩ := Bool.and_eq_true_iff.mp h
    exact .inr ⟨hlive, hcold, rfl⟩
  case isFalse => exact .inl rfl

/-- Settles O5: a command that does not bind the device stays within its lane, and one that does changes other lanes by
`abandonTo` alone. -/
theorem aCommandChangesNoOtherLane : Obligations.ACommandChangesNoOtherLane := by
  intro c l s t hl ht
  refine ⟨fun hb => ?_, fun hb => ?_⟩
  · by_cases htime : ∃ k x w, c = .timeTransfer l k x w
    · obtain ⟨k, x, w, rfl⟩ := htime
      obtain rfl := Host.Outcome.next.inj ht
      exact (onlyLane_onLane l s _).1
    · obtain ⟨f, hf, hexec⟩ := runsWithin_of_laneOf hl hb (fun k x w h => htime ⟨k, x, w, h⟩)
      obtain rfl := Host.Outcome.next.inj ((hexec s).symm.trans ht)
      exact (hf s s ⟨rfl, rfl⟩).1
  · obtain ⟨F, hF⟩ := exec_of_bindsDevice hl hb
    obtain rfl := Host.Outcome.next.inj ((hF s).symm.trans ht)
    refine ⟨by rw [abandonAll_pending, onLane_pending], by rw [abandonAll_sto, onLane_sto], fun p hp => ?_⟩
    have hother : (s.onLane l F).lane p = s.lane p := lane_onLane_other s l p F hp
    rw [abandonAll_lane_same, ← hother]
    obtain h | ⟨hold, hnew, h⟩ := abandonAll_lane_other l s (s.onLane l F) p
    · exact .inl h
    · obtain hsame | ⟨hlive, hcold, hto⟩ := abandonTo_cases l ((s.onLane l F).lane p)
      · exact .inl (h.trans hsame)
      · exact .inr ⟨hold, hnew, hlive, hcold, h.trans hto⟩

/-- Settles O6: a command that does not bind the device stays within its lane, the port of a TIME transfer's sender being the same
in both states; what a command that binds the device does to other lanes is no part of the view. -/
theorem aCommandSeesOnlyItsLaneAndTheDie : Obligations.ACommandSeesOnlyItsLaneAndTheDie := by
  intro c l s s' t t' hl hlane hsto htime ht ht'
  cases hb : c.bindsDevice with
  | true =>
    obtain ⟨F, hF⟩ := exec_of_bindsDevice hl hb
    obtain rfl := Host.Outcome.next.inj ((hF s).symm.trans ht)
    obtain rfl := Host.Outcome.next.inj ((hF s').symm.trans ht')
    simp [abandonAll_lane_same, abandonAll_sto, hlane, hsto]
  | false =>
    by_cases hc : ∃ k x w, c = .timeTransfer l k x w
    · obtain ⟨k, x, w, rfl⟩ := hc
      obtain rfl := Host.Outcome.next.inj ht
      obtain rfl := Host.Outcome.next.inj ht'
      simp [htime k x w rfl, hlane, hsto]
    · obtain ⟨f, hf, hexec⟩ := runsWithin_of_laneOf hl hb (fun k x w h => hc ⟨k, x, w, h⟩)
      obtain rfl := Host.Outcome.next.inj ((hexec s).symm.trans ht)
      obtain rfl := Host.Outcome.next.inj ((hexec s').symm.trans ht')
      exact (hf s s' ⟨hlane, hsto⟩).2

end Sys2Proof.Machine
end

section
/-! SUPPORT. Proof of the statement about crossings, isolators, machine timers and core lockstep: first what a crossing's two
commands do, case by case of the access that the crossing carries. -/

namespace Sys2Proof.Machine

/-! What a crossing does -/

section
variable {l : LaneId} {s : State} {id : Nat} {acc : Option BusAcc} {x : BusAcc}

/-- A transfer that carries a core's access is that access going on, or spoilt. -/
theorem crossingTransfer_of_carried (hrun : outOfReset (s.lane l) = true) (hid : xingId id = true) {req : Bool}
    (hacc : accCarried (s.lane l) id acc = some (x, req)) (ok : Bool) : crossingTransfer l id ok acc s =
      if ok then coreGo l x.core.val x.op x.w x.addr.toNat x.data s
      else accSpoilt l id x req (s.setLane l (xingPass id (s.lane l)).2) := by
  simp [crossingTransfer, hrun, hid, hacc]

/-- A transfer that carries no core's access is delivered, or discarded for parity. -/
theorem crossingTransfer_of_none (hrun : outOfReset (s.lane l) = true) (hid : xingId id = true)
    (hacc : accCarried (s.lane l) id acc = none) (ok : Bool) : crossingTransfer l id ok acc s =
      if ok ∧ (xingPass id (s.lane l)).1 = false then xingDeliver l id (s.setLane l (xingPass id (s.lane l)).2)
      else (s.setLane l (xingPass id (s.lane l)).2).onLane l (xingParity id) := by
  simp [crossingTransfer, hrun, hid, hacc]

theorem xingAbandon_of_wakes (h : xingWakes id (s.lane l) = true) : xingAbandon l id acc s = s := by
  simp [xingAbandon, h]

theorem xingTimeout_of_up {L : Lane} (hrun : outOfReset L = true) (hid : xingId id = true) (hw : xingWakes id L = false) :
    xingTimeout id L = xingDrop id
      (plicRaise 2 (raise 0x010 ((L.inc F.CLK_XING_STAT_TMO_CNT).putN F.CLK_XING_STAT_LAST_ID id))) := by
  simp [xingTimeout, hrun, hid, hw]

theorem xingAbandon_of_none (hrun : outOfReset (s.lane l) = true) (hid : xingId id = true) (hw : xingWakes id (s.lane l) = false)
    (hacc : accCarried (s.lane l) id acc = none) : xingAbandon l id acc s = s.onLane l (xingTimeout id) := by
  simp [xingAbandon, hrun, hid, hw, hacc]

theorem xingAbandon_of_carried (hrun : outOfReset (s.lane l) = true) (hid : xingId id = true)
    (hw : xingWakes id (s.lane l) = false) {req : Bool} (hacc : accCarried (s.lane l) id acc = some (x, req)) :
    xingAbandon l id acc s = (if req then s else coreDo l x.core.val x.op x.w x.addr.toNat x.data s).onLane l
      (fun L => coreResp x.core.val .busError (xingTimeout id L)) := by
  simp [xingAbandon, hrun, hid, hw, hacc]

/-- A crossing other than those of the always-on island delivers nothing that the model holds. -/
theorem xingDeliver_other (h10 : id ≠ 0x10) (h11 : id ≠ 0x11) : xingDeliver l id s = s := by
  simp [xingDeliver, h10, h11]

theorem xingDeliver_write {A : Lane} {p : Posted} {rest : List Posted} (hp : A.posted = p :: rest) (hw : p.reader = none) :
    xingDeliver l 0x10 (s.setLane l A) = regWrite l p.addr.toNat p.val (s.setLane l { A with posted := rest }) := by
  simp [xingDeliver, hp, hw]

theorem xingDeliver_answer {A : Lane} {c : Nat} {d : Word} {more : List (Nat × Word)} (ha : A.aosRet = (c, d) :: more)
    (hw : (coreOf A c).resp = .waiting) :
    xingDeliver l 0x11 (s.setLane l A) = s.setLane l (coreResp c (.ok d) { A with aosRet := more }) := by
  simp [xingDeliver, ha, hw]

theorem accSpoilt_read (hop : x.op ≠ .store) : accSpoilt l id x true s =
    s.onLane l (fun L => coreResp x.core.val .busError (xingSpoilt id L)) := by
  simp [accSpoilt, reqSpoilt, hop, State.onLane]

theorem accSpoilt_store (hop : x.op = .store) : accSpoilt l id x true s =
    s.onLane l (fun L => coreResp x.core.val (.ok 0) (xingSpoilt id L)) := by
  simp [accSpoilt, reqSpoilt, hop, State.onLane]

end

/-! Isolators, timers and lockstep in a live lane -/

theorem timerInputs_core0 (L : Lane) : timerInputs 0 L =
    { L with core0 := { L.core0 with mtip := decide (L.mtimecmp0.toNat ≤ L.mtime.toNat) } } := rfl

theorem timerInputs_core1_split {L : Lane} (h : L.b F.TLS_MS_CFG_PAIR = true) : timerInputs 1 L =
    { L with core1 := { L.core1 with mtip := decide (L.mtimecmp1.toNat ≤ L.mtime.toNat) } } := by
  simp [timerInputs, mtimecmpOf, h, setCore, coreOf]

theorem timerInputs_core1_locked {L : Lane} (h : L.b F.TLS_MS_CFG_PAIR = false) : timerInputs 1 L = L := by
  simp [timerInputs, mtimecmpOf, h]

theorem coreLockstep_locked {L : Lane} (h : L.b F.TLS_MS_CFG_PAIR = false) : coreLockstep L =
    raise 0x020 { L with
      core0 := { L.core0 with stopped := true, held := none }, core1 := { L.core1 with stopped := true, held := none } } := by
  simp [coreLockstep, h]

theorem coreLockstep_split {L : Lane} (h : L.b F.TLS_MS_CFG_PAIR = true) : coreLockstep L = L := by
  simp [coreLockstep, h]

/-- A command that is an effect on a live lane answers the state with this lane replaced. -/
theorem onLane_whenLive_eq {s : State} {l : LaneId} {f : Lane → Lane} {A : Lane} (hlive : (s.lane l).live = true)
    (hf : f (s.lane l) = A) : s.onLane l (whenLive f) = s.setLane l A := by
  rw [onLane_whenLive f hlive, State.onLane, hf]

/-- Settles O25: by the access that the crossing carries and by its parity; what a delivered transfer does is `xingDeliver`. -/
theorem crossingsTimersAndLockstep : Obligations.CrossingsTimersAndLockstep := by
  intro l peer s g id p rest c d more acc x L L1 m spoilt lost go hrun hid
  have htransfer (ok : Bool) : exec (.crossingTransfer l ⟨id, acc⟩ ok) s = .next (crossingTransfer l id.toNat ok acc s) := rfl
  have htimeout : exec (.xingTimeout l ⟨id, acc⟩) s = .next (xingAbandon l id.toNat acc s) := rfl
  have hpass : xingPass id.toNat L = (m.1.isSome, m.2) := rfl
  have hdeliver (hm : m.1 = none) (hacc : accCarried L id.toNat acc = none) :
      crossingTransfer l id.toNat true acc s = xingDeliver l id.toNat (s.setLane l m.2) := by
    rw [crossingTransfer_of_none hrun hid hacc, hpass, hm]; rfl
  refine ⟨?_, ?_, ?_, ?_, ?_, ?_, ?_, ?_, ?_, ?_, ?_, ?_, ?_⟩
  · intro hacc
    rw [htransfer, crossingTransfer_of_none hrun hid hacc, hpass]
    simp [State.onLane, xingParity, xingSpoilt, spoilt]
  · intro hacc hop
    rw [htransfer, crossingTransfer_of_carried hrun hid hacc, hpass]
    simp [accSpoilt_read hop, State.onLane, xingSpoilt, spoilt]
  · intro hacc hop
    rw [htransfer, crossingTransfer_of_carried hrun hid hacc, hpass]
    simp [accSpoilt_store hop, State.onLane, xingSpoilt, spoilt]
  · intro hacc
    rw [htransfer, crossingTransfer_of_carried hrun hid hacc, hpass]
    rfl
  · rintro (hacc | hacc) <;> rw [htransfer, crossingTransfer_of_carried hrun hid hacc] <;> rfl
  · intro hw hacc
    rw [htimeout, xingAbandon_of_none hrun hid hw hacc, State.onLane, xingTimeout_of_up hrun hid hw]
  · intro hw hacc
    rw [htimeout, xingAbandon_of_carried hrun hid hw hacc, if_pos rfl, State.onLane, xingTimeout_of_up hrun hid hw]
  · intro hw hacc
    rw [htimeout, xingAbandon_of_carried hrun hid hw hacc]
    rfl
  · intro hw
    rw [htimeout, xingAbandon_of_wakes hw]
  · intro hm hacc h10 h11
    rw [htransfer, hdeliver hm hacc, xingDeliver_other (fun h => h10 (BitVec.eq_of_toNat_eq h))
      (fun h => h11 (BitVec.eq_of_toNat_eq h))]
  · rintro hm hacc rfl hp hw
    rw [htransfer, hdeliver hm hacc, ← xingDeliver_write hp hw]
    rfl
  · rintro hm hacc rfl ha hw
    rw [htransfer, hdeliver hm hacc, ← xingDeliver_answer ha hw]
    rfl
  · intro hlive
    refine ⟨fun hpeer => ?_, ?_, fun hs => ?_, fun hs => ?_, fun hs => ?_, fun hs => ?_⟩
    · exact congrArg _ (onLane_whenLive_eq
        (f := fun A => if peer = A.id then A else raise 0x012 (claimLine g.val peer false A)) hlive (if_neg hpeer))
    · exact congrArg _ (onLane_whenLive_eq hlive (timerInputs_core0 L))
    · exact congrArg _ (onLane_whenLive_eq hlive (timerInputs_core1_split hs))
    · exact congrArg _ ((onLane_whenLive_eq hlive (timerInputs_core1_locked hs)).trans (setLane_lane_self s l))
    · exact congrArg _ (onLane_whenLive_eq hlive (coreLockstep_locked hs))
    · exact congrArg _ ((onLane_whenLive_eq hlive (coreLockstep_split hs)).trans (setLane_lane_self s l))

end Sys2Proof.Machine
end

section
/-! SUPPORT. Proof of the statement about core accesses to memory and to the staging window: while Pepper is not armed a crossing
adds nothing, so that an access to a domain that is up is the access at its destination. -/

namespace Sys2Proof.Machine

/-! What a crossing and a core's answer leave of a lane -/

theorem pepper_unarmed (kind target : Nat) (ok : Word → Bool) {L : Lane} (h : L.b F.PPR_CTL_ARMED = false) :
    pepper kind target ok L = (none, L) := by
  simp [pepper, h]

theorem xingPass_unarmed (id : Nat) {L : Lane} (h : L.b F.PPR_CTL_ARMED = false) : xingPass id L = (false, L) := by
  simp [xingPass, pepper_unarmed _ _ _ h]

theorem coreResp_regs (c : Nat) (r : BusResp) (L : Lane) : (coreResp c r L).regs = L.regs := by
  unfold coreResp setCore
  split <;> rfl

theorem coreResp_b (c : Nat) (r : BusResp) (L : Lane) (f : Fld) : (coreResp c r L).b f = L.b f := by
  rw [Lane.b, Lane.fld, coreResp_regs]; rfl

/-! An access of a core, case by case of what the address needs -/

/-- The domain that an access to `a` needs, if it needs one, is up (R407). -/
def domainUp (L : Lane) (a : Nat) : Prop :=
  ∀ d, accessDomain a = some d → L.bit F.AOS_STAT_FAIL d = false ∧ L.pwr.retained.getLsbD d = false

section
variable {l : LaneId} {s : State} {c : Nat} {op : CoreOp} {w : Width} {a : Nat} {v : Word}

theorem coreAccess_bad (hmay : coreMay (s.lane l) c = true) (hbad : accessBad (s.lane l) op w a = true) :
    coreAccess l c op w a v s = s.onLane l (coreResp c .accessFault) := by
  simp [coreAccess, hmay, hbad]

theorem coreAccess_failed (hmay : coreMay (s.lane l) c = true) (hok : accessBad (s.lane l) op w a = false) {d : Nat}
    (hd : accessDomain a = some d) (hfail : (s.lane l).bit F.AOS_STAT_FAIL d = true) :
    coreAccess l c op w a v s = s.onLane l (coreResp c .busError) := by
  simp [coreAccess, hmay, hok, hd, hfail]

theorem coreAccess_retained (hmay : coreMay (s.lane l) c = true) (hok : accessBad (s.lane l) op w a = false) {d : Nat}
    (hd : accessDomain a = some d) (hfail : (s.lane l).bit F.AOS_STAT_FAIL d = false)
    (hret : (s.lane l).pwr.retained.getLsbD d = true) :
    coreAccess l c op w a v s = s.onLane l (fun L =>
      setCore c { coreOf L c with resp := .waiting, held := some ⟨op, w, toW a, v⟩ } (wakeDomain d L)) := by
  simp [coreAccess, hmay, hok, hd, hfail, hret]

theorem coreAccess_up (hmay : coreMay (s.lane l) c = true) (hok : accessBad (s.lane l) op w a = false)
    (hup : domainUp (s.lane l) a) : coreAccess l c op w a v s = coreGo l c op w a v s := by
  cases hd : accessDomain a with
  | none => simp [coreAccess, hmay, hok, hd]
  | some d =>
    obtain ⟨hfail, hret⟩ := hup d hd
    simp [coreAccess, hmay, hok, hd, hfail, hret]

/-- Over its crossings an access is the access at its destination, where Pepper is armed neither before nor after it. -/
theorem coreGo_unarmed (h : (s.lane l).b F.PPR_CTL_ARMED = false)
    (h' : op ≠ .store → ((coreDo l c op w a v s).lane l).b F.PPR_CTL_ARMED = false) :
    coreGo l c op w a v s = coreDo l c op w a v s := by
  cases hx : accXings a with
  | none => simp [coreGo, hx]
  | some x =>
    by_cases hop : op = .store
    · simp [coreGo, hx, xingPass_unarmed _ h, hop]
    · simp [coreGo, hx, xingPass_unarmed _ h, hop, State.onLane, xingPass_unarmed _ (h' hop)]

/-- The address is none of a register, of the machine timer or of the PLIC. -/
def inMemory (a : Nat) : Prop := inBlocks a = false ∧ inTimer a = false ∧ inPlic a = false

theorem coreDo_memory (hmem : inMemory a) : coreDo l c op w a v s =
    s.withLD l (coreResp c (coreMem c op w a v (s.lane l, s.sto)).1 (coreMem c op w a v (s.lane l, s.sto)).2.1,
      (coreMem c op w a v (s.lane l, s.sto)).2.2) := by
  obtain ⟨hblocks, htimer, hplic⟩ := hmem
  simp [coreDo, inAon, hblocks, htimer, hplic, State.onLaneDie, State.withLD]

@[simp] theorem lane_withLD_same (s : State) (l : LaneId) (ld : LD) : (s.withLD l ld).lane l = ld.1 := by cases l <;> rfl

theorem withLD_sto_self (s : State) (l : LaneId) (L : Lane) : s.withLD l (L, s.sto) = s.setLane l L := by cases l <;> rfl

/-- A core's access to memory whose domain is up, on a lane without Pepper. -/
theorem coreAccess_memory (hmay : coreMay (s.lane l) c = true) (hok : accessBad (s.lane l) op w a = false)
    (hup : domainUp (s.lane l) a) (hmem : inMemory a) (h : (s.lane l).b F.PPR_CTL_ARMED = false) {r : BusResp} {ld : LD}
    (hr : coreMem c op w a v (s.lane l, s.sto) = (r, ld)) (h' : op ≠ .store → ld.1.b F.PPR_CTL_ARMED = false) :
    coreAccess l c op w a v s = s.withLD l (coreResp c r ld.1, ld.2) := by
  have hdo : coreDo l c op w a v s = s.withLD l (coreResp c r ld.1, ld.2) := by rw [coreDo_memory hmem, hr]
  rw [coreAccess_up hmay hok hup, coreGo_unarmed h fun hop => ?_, hdo]
  rw [hdo, lane_withLD_same, coreResp_b, h' hop]

/-- The same within the core island, which needs no crossing: Pepper does not matter. -/
theorem coreAccess_memory_near (hmay : coreMay (s.lane l) c = true) (hok : accessBad (s.lane l) op w a = false)
    (hup : domainUp (s.lane l) a) (hmem : inMemory a) (hx : accXings a = none) {r : BusResp} {ld : LD}
    (hr : coreMem c op w a v (s.lane l, s.sto) = (r, ld)) :
    coreAccess l c op w a v s = s.withLD l (coreResp c r ld.1, ld.2) := by
  rw [coreAccess_up hmay hok hup]
  simp [coreGo, hx, coreDo_memory hmem, hr]

end

/-! What memory answers -/

section
variable {c : Nat} {op : CoreOp} {w : Width} {a : Nat} {v : Word} {ld ld1 : LD} {bs : List Byte}

theorem memAccess_read (hop : op ≠ .store) (h : physRead a (widthBytes w) ld = (.ok bs, ld1)) :
    memAccess op w a v ld = (.ok (leWord bs), ld1) := by
  cases op
  case store => exact absurd rfl hop
  all_goals simp [memAccess, h]

theorem memAccess_read_error {e : Nat} (hop : op ≠ .store) (h : physRead a (widthBytes w) ld = (.error e, ld1)) :
    memAccess op w a v ld = (memFail a e, ld1) := by
  cases op
  case store => exact absurd rfl hop
  all_goals simp [memAccess, h]

theorem memAccess_store (hlpe : inRange a (lpeBase + 0xD00) 0x300 = false)
    (h : physWrite a (storeBytes w v) ld = (.ok (), ld1)) : memAccess .store w a v ld = (.ok 0, ld1) := by
  simp [memAccess, hlpe, h]

theorem memAccess_store_error {e : Nat} (hlpe : inRange a (lpeBase + 0xD00) 0x300 = false)
    (h : physWrite a (storeBytes w v) ld = (.error e, ld1)) : memAccess .store w a v ld = (memFail a e, ld1) := by
  simp [memAccess, hlpe, h]

theorem coreMem_read (hop : op ≠ .store) (hc : cacheOf op a = none) (h : physRead a (widthBytes w) ld = (.ok bs, ld1)) :
    coreMem c op w a v ld = (.ok (leWord bs), ld1) := by
  simp [coreMem, hc, memAccess_read hop h, hop]

theorem cacheOf_store (a : Nat) : cacheOf .store a = none := by simp [cacheOf]

theorem coreMem_store (hlpe : inRange a (lpeBase + 0xD00) 0x300 = false) (h : physWrite a (storeBytes w v) ld = (.ok (), ld1)) :
    coreMem c .store w a v ld =
      (.ok 0, if cacheable a then (cacheStored a (widthBytes w) ld1.1, ld1.2) else ld1) := by
  cases hc : cacheable a <;> simp [coreMem, cacheOf_store, memAccess_store hlpe h, hc]

/-- A word that is cached is read from the cache; the die is not asked. -/
theorem coreMem_cached {k : Nat} {M : Lane} (hc : cacheOf op a = some k)
    (hfind : (cacheFind k c (a - a % eccBytes k) ld.1).isSome = true)
    (hread : cacheRead k c (a - a % eccBytes k) ld.1 = (true, M)) :
    coreMem c op w a v ld = (.ok (leWord (M.rdBytes a (widthBytes w))), (M, ld.2)) := by
  obtain ⟨x, hx⟩ := Option.isSome_iff_exists.mp hfind
  simp [coreMem, hc, cachedRead, cacheFill, hx, hread]

end

/-! The staging window -/

theorem inRange_eq_true (a base size : Nat) : inRange a base size = true ↔ base ≤ a ∧ a < base + size := by simp [inRange]

theorem inRange_eq_false (a base size : Nat) : inRange a base size = false ↔ (a < base ∨ base + size ≤ a) := by
  rw [← Bool.not_eq_true, inRange_eq_true]
  omega

/-- A missing link is no uncorrectable error of a memory (R39, R379). -/
theorem memFail_link (a : Nat) : memFail a errLink = .busError := by simp [memFail, errLink, errEcc]

section
variable {off : Nat} (hoff : off < 0x1000000)
include hoff

theorem inRange_staging : inRange (0x70000000 + off) 0x70000000 0x1000000 = true := by
  rw [inRange_eq_true]
  omega

theorem inMemory_staging : inMemory (0x70000000 + off) := by
  simp only [inMemory, inBlocks, inTimer, inPlic, inRange_eq_false, plicBase]
  omega

theorem cacheable_staging : cacheable (0x70000000 + off) = false := by
  simp only [cacheable, Bool.or_eq_false_iff, inRange_eq_false, emramBase, sramBase, decide_eq_false_iff_not]
  omega

theorem notLpe_staging : inRange (0x70000000 + off) (lpeBase + 0xD00) 0x300 = false := by
  simp only [inRange_eq_false, lpeBase]
  omega

theorem domainOf_staging : domainOf (0x70000000 + off) = 4 := by
  simp only [domainOf, inRange_eq_true, netBase, mbxBase]
  split_ifs <;> omega

theorem accessDomain_staging : accessDomain (0x70000000 + off) = some 4 := by
  simp [accessDomain, (inMemory_staging hoff).1, domainOf_staging hoff]

theorem domainBars_staging {L : Lane} (hup : domainUp L (0x70000000 + off)) :
    domainBars (domainOf (0x70000000 + off)) L = none := by
  obtain ⟨hfail, hret⟩ := hup 4 (accessDomain_staging hoff)
  simp only [domainBars, domainOf_staging hoff, hfail, hret, Bool.false_eq_true, if_false]

variable {L : Lane} {d : StorageDie} (hup : domainUp L (0x70000000 + off))
include hup

theorem physRead_staging_unlinked (n : Nat) (hlink : linkUp L d = false) :
    physRead (0x70000000 + off) n (L, d) = (.error errLink, (L, d)) := by
  simp [physRead, domainBars_staging hoff hup, inRange_staging hoff, hlink]

theorem physRead_staging {n : Nat} {bs : List Byte} (hlink : linkUp L d = true) (hbs : stagRead off n (stoOf d L.id) = some bs) :
    physRead (0x70000000 + off) n (L, d) = (.ok bs, (L, d)) := by
  simp [physRead, domainBars_staging hoff hup, inRange_staging hoff, hlink, hbs]

theorem physWrite_staging_unlinked (bs : List Byte) (hlink : linkUp L d = false) :
    physWrite (0x70000000 + off) bs (L, d) = (.error errLink, (L, d)) := by
  simp [physWrite, physPut, domainBars_staging hoff hup, inRange_staging hoff, hlink]

theorem physWrite_staging (bs : List Byte) (hlink : linkUp L d = true) : physWrite (0x70000000 + off) bs (L, d) =
    (.ok (), (L, setStoOf d L.id (stagWrite off bs (stoOf d L.id)))) := by
  simp [physWrite, physPut, domainBars_staging hoff hup, inRange_staging hoff, hlink]

/-- Without a link every access to the staging window ends in a bus error (R379). -/
theorem coreMem_staging_unlinked (c : Nat) (op : CoreOp) (w : Width) (v : Word) (hlink : linkUp L d = false) :
    coreMem c op w (0x70000000 + off) v (L, d) = (.busError, (L, d)) := by
  have hcache : cacheOf op (0x70000000 + off) = none := by simp [cacheOf, cacheable_staging hoff]
  have hmem : memAccess op w (0x70000000 + off) v (L, d) = (.busError, (L, d)) := by
    rw [← memFail_link (0x70000000 + off)]
    by_cases hop : op = .store
    · subst hop
      exact memAccess_store_error (notLpe_staging hoff) (physWrite_staging_unlinked hoff hup _ hlink)
    · exact memAccess_read_error hop (physRead_staging_unlinked hoff hup _ hlink)
  simp [coreMem, hcache, hmem, cacheable_staging hoff]

theorem coreMem_staging_load {c : Nat} {w : Width} {v : Word} {bs : List Byte} (hlink : linkUp L d = true)
    (hbs : stagRead off (widthBytes w) (stoOf d L.id) = some bs) :
    coreMem c .load w (0x70000000 + off) v (L, d) = (.ok (leWord bs), (L, d)) :=
  coreMem_read (by decide) (by simp [cacheOf, cacheable_staging hoff]) (physRead_staging hoff hup hlink hbs)

theorem coreMem_staging_store {c : Nat} {w : Width} {v : Word} (hlink : linkUp L d = true) :
    coreMem c .store w (0x70000000 + off) v (L, d) =
      (.ok 0, (L, setStoOf d L.id (stagWrite off (storeBytes w v) (stoOf d L.id)))) := by
  simp [coreMem_store (notLpe_staging hoff) (physWrite_staging hoff hup _ hlink), cacheable_staging hoff]

end

/-- Settles O26: what memory answers (`coreMem`) is what the core's access ends in, since no crossing adds to it. -/
theorem coreAccessesReadAndWriteMemory : Obligations.CoreAccessesReadAndWriteMemory := by
  intro l s c w a off v bs k d M L n q p x sa memory up hmay harm
  have haccess (op : CoreOp) (a v : Word) : exec (.coreAccess l c op w a v) s = .next (coreAccess l c.val op w a.toNat v s) := rfl
  have hstaging (op : CoreOp) : exec (.stagingWindowAccess l c op w off v) s = .next (coreAccess l c.val op w sa v s) := rfl
  have hoff : off.toNat < 0x1000000 := off.isLt
  refine ⟨?_, ?_, ?_, ?_, ?_, ?_, ?_, ?_, ?_, ?_, ?_⟩
  · intro op hop hok hmem hup hcache hq harm'
    have hread : op ≠ .store := by rintro rfl; simp at hop
    have hqq : physRead n (widthBytes w) (L, s.sto) = (.ok bs, q.2) := Prod.ext hq rfl
    rw [haccess, coreAccess_memory hmay hok hup hmem harm (coreMem_read hread hcache hqq) fun _ => harm']
  · intro op hok hmem hup hx hcache hfind hread
    rw [haccess, coreAccess_memory_near hmay hok hup hmem hx (coreMem_cached hcache hfind hread), withLD_sto_self]
  · intro hok hmem hup hlpe hcache hp
    have hpp : physWrite n (storeBytes w v) (L, s.sto) = (.ok (), p.2) := Prod.ext hp rfl
    rw [haccess, coreAccess_memory hmay hok hup hmem harm (coreMem_store hlpe hpp) fun h => absurd rfl h, hcache]
    rfl
  · intro hok hmem hup hlpe hcache hp
    have hpp : physWrite n (storeBytes w v) (L, s.sto) = (.ok (), p.2) := Prod.ext hp rfl
    rw [haccess, coreAccess_memory hmay hok hup hmem harm (coreMem_store hlpe hpp) fun h => absurd rfl h, hcache]
    rfl
  · intro op hbad
    rw [haccess, coreAccess_bad hmay hbad]
    rfl
  · intro op hok hd hfail
    rw [haccess, coreAccess_failed hmay hok hd hfail]
    rfl
  · intro op hok hd hfail hret
    rw [haccess, coreAccess_retained hmay hok hd hfail hret]
    rfl
  · intro op hbad
    rw [hstaging, coreAccess_bad hmay hbad]
    rfl
  · intro op hok hup hlink
    rw [hstaging, coreAccess_memory hmay hok hup (inMemory_staging hoff) harm
      (coreMem_staging_unlinked hoff hup c.val op w v hlink) fun _ => harm, withLD_sto_self]
  · intro hok hup hlink hbs
    rw [hstaging, coreAccess_memory hmay hok hup (inMemory_staging hoff) harm
      (coreMem_staging_load hoff hup hlink hbs) fun _ => harm, withLD_sto_self]
  · intro hok hup hlink
    rw [hstaging, coreAccess_memory hmay hok hup (inMemory_staging hoff) harm
      (coreMem_staging_store hoff hup hlink) fun _ => harm]

end Sys2Proof.Machine
end

section
/-! SUPPORT. Proof of the statement about the microsecond that passes on an empty queue: each clock of a lane, what it moves and
what it leaves, in the order in which `tickLane` runs them. -/

namespace Sys2Proof.Machine

theorem fld_of_regs {L K : Lane} (h : L.regs = K.regs) (f : Fld) : L.fld f = K.fld f := by rw [Lane.fld, h]; rfl

theorem b_of_regs {L K : Lane} (h : L.regs = K.regs) (f : Fld) : L.b f = K.b f := by rw [Lane.b, fld_of_regs h]; rfl

/-- A field whose home is another than that of the field set reads as before. -/
theorem fld_put_other {L : Lane} {f g : Fld} (v : Word) (hs : smSorted L.regs = true) (h : g.key ≠ f.key) :
    (L.put f v).fld g = L.fld g := by
  rw [fld_put L f g v hs (fun e => absurd e h), if_neg h]

/-! The machine timer (R51) -/

theorem timerInputs_shape (L : Lane) : ∃ b0 b1, timerInputs 1 (timerInputs 0 L) =
    { L with core0 := { L.core0 with mtip := b0 }, core1 := { L.core1 with mtip := b1 } } := by
  cases hs : L.b F.TLS_MS_CFG_PAIR with
  | true => exact ⟨_, _, timerInputs_core1_split (L := timerInputs 0 L) hs⟩
  | false => exact ⟨_, L.core1.mtip, timerInputs_core1_locked (L := timerInputs 0 L) hs⟩

theorem tickMtime_shape (L : Lane) : ∃ b0 b1, tickMtime L =
    { L with mtime := if L.live then L.mtime + 1 else L.mtime
             core0 := { L.core0 with mtip := b0 }, core1 := { L.core1 with mtip := b1 } } := by
  cases hlive : L.live with
  | true =>
    obtain ⟨b0, b1, h⟩ := timerInputs_shape { L with mtime := L.mtime + 1 }
    exact ⟨b0, b1, by simp only [tickMtime, hlive, if_true, h]⟩
  | false => exact ⟨L.core0.mtip, L.core1.mtip, by simp [tickMtime, hlive]⟩

/-! Lane time (R333, R337) -/

theorem tickTime_shape (L : Lane) : ∃ t k g,
    tickTime L = { L with time := t, nte := { L.nte with ticks := k, gained := g } } := by
  unfold tickTime
  split
  · exact ⟨_, _, _, rfl⟩
  · exact ⟨L.time, L.nte.ticks, L.nte.gained, rfl⟩

theorem tickTime_stopped {L : Lane} (h : netRuns L = false) : tickTime L = L := by simp [tickTime, h]

theorem gainAt_zero {L : Lane} (k : Nat) (h : L.nte.gain = 0) : gainAt L k = 0 := by simp [gainAt, h]

theorem tickTime_time {L : Lane} (hrun : netRuns L = true) (hgain : L.nte.gain = 0) (hgained : L.nte.gained = 0) :
    (tickTime L).time = L.time + 1000 := by
  simp [tickTime, hrun, withNte, gainAt_zero _ hgain, hgained]

/-! The motor island (R274, R302) -/

/-- The motor island's clock moves its time, the end of trigger pulses and the counters. -/
def motOn (L : Lane) : Prop := motRuns L = true ∧ L.bit F.AOS_STAT_ON 2 = true

/-- No field but the counters of the generators differs. -/
def cntOnly (L K : Lane) : Prop := smSorted L.regs = true → smSorted K.regs = true ∧
  ∀ g : Fld, (∀ n, n < 3 → g.key ≠ (F.PWMn_CNT_CNT n).key) → K.fld g = L.fld g

/-- Of a lane only the generators and their counters differ. -/
def pwmOnly (L K : Lane) : Prop := cntOnly L K ∧ ∃ r p, K = { L with regs := r, out := { L.out with pwm := p } }

theorem pwmOnly_refl (L : Lane) : pwmOnly L L := ⟨fun hs => ⟨hs, fun _ _ => rfl⟩, L.regs, L.out.pwm, rfl⟩

theorem pwmOnly_trans {L K M : Lane} (h : pwmOnly L K) (k : pwmOnly K M) : pwmOnly L M := by
  obtain ⟨hcnt, r, p, rfl⟩ := h
  obtain ⟨kcnt, r', p', rfl⟩ := k
  refine ⟨fun hs => ?_, r', p', rfl⟩
  obtain ⟨hK, hfld⟩ := hcnt hs
  obtain ⟨hM, kfld⟩ := kcnt hK
  exact ⟨hM, fun g hg => (kfld g hg).trans (hfld g hg)⟩

theorem pwmOnly_tickGen {n : Nat} (hn : n < 3) (L : Lane) : pwmOnly L (tickGen n L) := by
  unfold tickGen
  split
  · refine ⟨fun hs => ⟨put_sorted L _ _ hs, fun g hg => fld_put_other _ hs (hg n hn)⟩, _, _, rfl⟩
  · exact pwmOnly_refl L

theorem pwmOnly_forEach {ns : List Nat} (hns : ∀ n ∈ ns, n < 3) (L : Lane) : pwmOnly L (forEach ns tickGen L) := by
  induction ns generalizing L with
  | nil => exact pwmOnly_refl L
  | cons n ns ih =>
    obtain ⟨hn, hns⟩ := List.forall_mem_cons.mp hns
    exact pwmOnly_trans (pwmOnly_tickGen hn L) (ih hns _)

theorem tickMot_stopped {L : Lane} (h : ¬ motOn L) : tickMot L = L := by
  rw [tickMot, if_neg (by simpa [motOn] using h)]

theorem tickMot_runs {L : Lane} (h : motOn L) :
    pwmOnly { L with out := { L.out with motTime := L.out.motTime + 1000, pulse := 0 } } (tickMot L) := by
  rw [tickMot, if_pos (by simpa [motOn] using h)]
  exact pwmOnly_forEach (fun n hn => List.mem_range.mp hn) _

theorem cntOnly_tickMot (L : Lane) : cntOnly L (tickMot L) := by
  by_cases h : motOn L
  · exact (tickMot_runs h).1
  · rw [tickMot_stopped h]
    exact (pwmOnly_refl L).1

theorem tickMot_shape (L : Lane) : ∃ r t u p, tickMot L =
    { L with regs := r, out := { L.out with motTime := t, pulse := u, pwm := p } } := by
  by_cases h : motOn L
  · obtain ⟨-, r, p, heq⟩ := tickMot_runs h
    exact ⟨r, _, _, p, heq⟩
  · exact ⟨L.regs, L.out.motTime, L.out.pulse, L.out.pwm, tickMot_stopped h⟩

/-! AOS_TMR and the TIMER wake source (R409, R413, R464) -/

theorem wakeEvent_disabled {src : Nat} {L : Lane} (h : wakeEnabled src L = false) : wakeEvent src L = L := by simp [wakeEvent, h]

theorem wakeEvent_run {src : Nat} {L : Lane} (h : wakeEnabled src L = true) (hp : L.pwr.phase = .run) :
    wakeEvent src L = withPwr (fun p => { p with wakePend := p.wakePend ||| BitVec.ofNat 8 (2 ^ src) }) L := by
  simp [wakeEvent, h, hp]

theorem wakeEvent_dormant {src : Nat} {L : Lane} (h : wakeEnabled src L = true) (hp : L.pwr.phase = .dormant) :
    wakeEvent src L = wake (withPwr (fun p => { p with wakePend := p.wakePend ||| BitVec.ofNat 8 (2 ^ src) }) L) := by
  simp [wakeEvent, h, hp]

theorem wakeEvent_elsewhere {src : Nat} {L : Lane} (hr : L.pwr.phase ≠ .run) (hd : L.pwr.phase ≠ .dormant) :
    wakeEvent src L = L := by
  unfold wakeEvent
  split
  · dsimp only
    split
    · next h => exact absurd h hr
    · next h => exact absurd h hd
    · rfl
  · rfl

/-- Of a lane only AOS_WAKE_TIME, the phase and the wakes noted differ. -/
def wakeOnly (L K : Lane) : Prop := ∃ r ph wk wp,
  K = { L with regs := r, pwr := { L.pwr with phase := ph, waking := wk, wakePend := wp } } ∧
    (r = L.regs ∨ ∃ v, r = (L.put F.AOS_WAKE_TIME_TIME v).regs)

theorem wakeOnly_refl (L : Lane) : wakeOnly L L := ⟨L.regs, L.pwr.phase, L.pwr.waking, L.pwr.wakePend, rfl, .inl rfl⟩

theorem wakeOnly_wakeEvent (src : Nat) (L : Lane) : wakeOnly L (wakeEvent src L) := by
  cases hen : wakeEnabled src L with
  | false =>
    rw [wakeEvent_disabled hen]
    exact wakeOnly_refl L
  | true =>
    by_cases hr : L.pwr.phase = .run
    · rw [wakeEvent_run hen hr]
      exact ⟨_, L.pwr.phase, L.pwr.waking, _, rfl, .inl rfl⟩
    · by_cases hd : L.pwr.phase = .dormant
      · rw [wakeEvent_dormant hen hd]
        exact ⟨_, _, _, _, rfl, .inr ⟨_, rfl⟩⟩
      · rw [wakeEvent_elsewhere hr hd]
        exact wakeOnly_refl L

theorem wakeOnly_fld {L K : Lane} (h : wakeOnly L K) (hs : smSorted L.regs = true) {f : Fld}
    (hf : f.key ≠ F.AOS_WAKE_TIME_TIME.key) : K.fld f = L.fld f := by
  obtain ⟨r, ph, wk, wp, rfl, rfl | ⟨v, rfl⟩⟩ := h
  · rfl
  · exact fld_put_other v hs hf

theorem incMod_tmr_fld {L : Lane} (hs : smSorted L.regs = true) :
    (L.incMod F.AOS_TMR_TMR).fld F.AOS_TMR_TMR = L.fld F.AOS_TMR_TMR + 1 := by
  rw [incMod_eq, fld_put _ _ _ _ hs (fun _ => rfl), if_pos rfl]
  apply BitVec.eq_of_toNat_eq
  simp [toW, F.AOS_TMR_TMR, Lane.n]

theorem incMod_tmr_fld_other {L : Lane} (hs : smSorted L.regs = true) {f : Fld} (hf : f.key ≠ F.AOS_TMR_TMR.key) :
    (L.incMod F.AOS_TMR_TMR).fld f = L.fld f := fld_put_other _ hs hf

/-- AOS_TMR comes to equal AOS_TMR_CMP with the TIMER wake source enabled. -/
def tmrMeets (L : Lane) : Prop :=
  L.fld F.AOS_TMR_TMR + 1 = L.fld F.AOS_TMR_CMP_CMP ∧ L.b F.AOS_WAKE_EN_TIMER = true

theorem wakeOnly_stepTmr (L : Lane) : wakeOnly (L.incMod F.AOS_TMR_TMR) (stepTmr L) := by
  unfold stepTmr
  dsimp only
  split
  · exact wakeOnly_wakeEvent 5 _
  · exact wakeOnly_refl _

section
variable {L : Lane} (hs : smSorted L.regs = true)
include hs

theorem stepTmr_fld_tmr : (stepTmr L).fld F.AOS_TMR_TMR = L.fld F.AOS_TMR_TMR + 1 := by
  rw [wakeOnly_fld (wakeOnly_stepTmr L) (put_sorted L _ _ hs) (by decide), incMod_tmr_fld hs]

theorem stepTmr_fld_other {f : Fld} (ht : f.key ≠ F.AOS_TMR_TMR.key) (hw : f.key ≠ F.AOS_WAKE_TIME_TIME.key) :
    (stepTmr L).fld f = L.fld f := by
  rw [wakeOnly_fld (wakeOnly_stepTmr L) (put_sorted L _ _ hs) hw, incMod_tmr_fld_other hs ht]

theorem stepTmr_eq : stepTmr L = if L.fld F.AOS_TMR_TMR + 1 = L.fld F.AOS_TMR_CMP_CMP then
    wakeEvent 5 (L.incMod F.AOS_TMR_TMR) else L.incMod F.AOS_TMR_TMR := by
  rw [stepTmr, incMod_tmr_fld hs, incMod_tmr_fld_other hs (by decide)]

theorem wakeEnabled_timer : wakeEnabled 5 (L.incMod F.AOS_TMR_TMR) = L.b F.AOS_WAKE_EN_TIMER := by
  rw [wakeEnabled, Lane.b, incMod_tmr_fld_other hs (by decide)]; rfl

theorem stepTmr_run (hm : tmrMeets L) (hp : L.pwr.phase = .run) :
    (stepTmr L).pwr = { L.pwr with wakePend := L.pwr.wakePend ||| 32 } := by
  rw [stepTmr_eq hs, if_pos hm.1, wakeEvent_run ((wakeEnabled_timer hs).trans hm.2) hp]
  rfl

theorem stepTmr_dormant (hm : tmrMeets L) (hp : L.pwr.phase = .dormant) : (stepTmr L).pwr =
    { L.pwr with wakePend := L.pwr.wakePend ||| 32, phase := .waking, waking := L.pwr.waking ||| 1 } := by
  rw [stepTmr_eq hs, if_pos hm.1, wakeEvent_dormant ((wakeEnabled_timer hs).trans hm.2) hp]
  rfl

theorem stepTmr_still (h : ¬ tmrMeets L ∨ (L.pwr.phase ≠ .run ∧ L.pwr.phase ≠ .dormant)) : (stepTmr L).pwr = L.pwr := by
  rw [stepTmr_eq hs]
  split
  case isFalse => rfl
  case isTrue hcmp =>
    obtain hm | ⟨hr, hd⟩ := h
    · have hoff : L.b F.AOS_WAKE_EN_TIMER = false := Bool.eq_false_iff.mpr fun hen => hm ⟨hcmp, hen⟩
      rw [wakeEvent_disabled ((wakeEnabled_timer hs).trans hoff)]
      rfl
    · rw [wakeEvent_elsewhere (L := L.incMod F.AOS_TMR_TMR) hr hd]
      rfl

end

/-- AOS_TMR steps in this microsecond (R409). -/
abbrev tmrSteps (L : Lane) : Prop := L.pwr.phase ≠ .off ∧ 15625 ≤ L.pwr.tmrFrac + 512

/-- The lane with the fraction of a tick moved on. -/
def fracOn (L : Lane) : Lane := { L with pwr := { L.pwr with tmrFrac := (L.pwr.tmrFrac + 512) % 15625 } }

theorem fracOn_pwr (L : Lane) : (fracOn L).pwr = { L.pwr with tmrFrac := (L.pwr.tmrFrac + 512) % 15625 } := by
  simp only [fracOn]
theorem fracOn_regs (L : Lane) : (fracOn L).regs = L.regs := by simp only [fracOn]
theorem fracOn_fld (L : Lane) (f : Fld) : (fracOn L).fld f = L.fld f := fld_of_regs (fracOn_regs L) f
theorem fracOn_tmrMeets (L : Lane) : tmrMeets (fracOn L) ↔ tmrMeets L := by
  rw [tmrMeets, fracOn_fld, fracOn_fld, b_of_regs (fracOn_regs L)]; rfl

theorem tickAos_off {L : Lane} (h : L.pwr.phase = .off) : tickAos L = L := by simp [tickAos, h]

theorem tickAos_between {L : Lane} (hp : L.pwr.phase ≠ .off) (hf : L.pwr.tmrFrac + 512 < 15625) : tickAos L = fracOn L := by
  simp [tickAos, hp, hf, fracOn]

theorem tickAos_steps {L : Lane} (h : tmrSteps L) : tickAos L = stepTmr (fracOn L) := by
  simp [tickAos, h.1, Nat.not_lt.mpr h.2, fracOn]

/-- The three cases of `tickAos`. -/
theorem tickAos_cases (L : Lane) : (L.pwr.phase = .off ∧ tickAos L = L) ∨
    (L.pwr.phase ≠ .off ∧ ¬ tmrSteps L ∧ tickAos L = fracOn L) ∨ (tmrSteps L ∧ tickAos L = stepTmr (fracOn L)) := by
  by_cases hp : L.pwr.phase = .off
  · exact .inl ⟨hp, tickAos_off hp⟩
  · by_cases hf : L.pwr.tmrFrac + 512 < 15625
    · exact .inr (.inl ⟨hp, fun h => absurd h.2 (Nat.not_le.mpr hf), tickAos_between hp hf⟩)
    · exact .inr (.inr ⟨⟨hp, Nat.not_lt.mp hf⟩, tickAos_steps ⟨hp, Nat.not_lt.mp hf⟩⟩)

theorem stepTmr_shape (L : Lane) : ∃ r ph wk wp, stepTmr L =
    { L with regs := r, pwr := { L.pwr with phase := ph, waking := wk, wakePend := wp } } := by
  obtain ⟨r, ph, wk, wp, h, -⟩ := wakeOnly_stepTmr L
  exact ⟨r, ph, wk, wp, h⟩

theorem tickAos_shape (L : Lane) : ∃ r fr ph wk wp, tickAos L =
      { L with regs := r, pwr := { L.pwr with tmrFrac := fr, phase := ph, waking := wk, wakePend := wp } } ∧
    (L.pwr.phase ≠ .off → fr = (L.pwr.tmrFrac + 512) % 15625) := by
  obtain ⟨hp, h⟩ | ⟨-, -, h⟩ | ⟨-, h⟩ := tickAos_cases L
  · exact ⟨L.regs, L.pwr.tmrFrac, L.pwr.phase, L.pwr.waking, L.pwr.wakePend, h, fun hn => absurd hp hn⟩
  · exact ⟨L.regs, (L.pwr.tmrFrac + 512) % 15625, L.pwr.phase, L.pwr.waking, L.pwr.wakePend, h.trans (by rw [fracOn]),
      fun _ => rfl⟩
  · obtain ⟨r, ph, wk, wp, hstep⟩ := stepTmr_shape (fracOn L)
    exact ⟨r, (L.pwr.tmrFrac + 512) % 15625, ph, wk, wp, h.trans (hstep.trans (by rw [fracOn])), fun _ => rfl⟩

section
variable {L : Lane} (hs : smSorted L.regs = true)
include hs

theorem fracOn_sorted : smSorted (fracOn L).regs = true := by rw [fracOn_regs, hs]

theorem tickAos_fld_other {f : Fld} (ht : f.key ≠ F.AOS_TMR_TMR.key) (hw : f.key ≠ F.AOS_WAKE_TIME_TIME.key) :
    (tickAos L).fld f = L.fld f := by
  obtain ⟨-, h⟩ | ⟨-, -, h⟩ | ⟨-, h⟩ := tickAos_cases L
  · rw [h]
  · rw [h, fracOn_fld]
  · rw [h, stepTmr_fld_other (fracOn_sorted hs) ht hw, fracOn_fld]

theorem tickAos_fld_tmr : (tickAos L).fld F.AOS_TMR_TMR =
    if tmrSteps L then L.fld F.AOS_TMR_TMR + 1 else L.fld F.AOS_TMR_TMR := by
  obtain ⟨hp, h⟩ | ⟨-, hn, h⟩ | ⟨hst, h⟩ := tickAos_cases L
  · rw [h, if_neg fun hst => hst.1 hp]
  · rw [h, if_neg hn, fracOn_fld]
  · rw [h, if_pos hst, stepTmr_fld_tmr (fracOn_sorted hs), fracOn_fld]

theorem tickAos_run (hst : tmrSteps L) (hm : tmrMeets L) (hp : L.pwr.phase = .run) :
    (tickAos L).pwr.wakePend = L.pwr.wakePend ||| 32 := by
  rw [tickAos_steps hst, stepTmr_run (fracOn_sorted hs) ((fracOn_tmrMeets L).mpr hm) (by rw [fracOn_pwr, hp]), fracOn_pwr]

theorem tickAos_dormant (hst : tmrSteps L) (hm : tmrMeets L) (hp : L.pwr.phase = .dormant) :
    (tickAos L).pwr.wakePend = L.pwr.wakePend ||| 32 ∧ (tickAos L).pwr.phase = .waking := by
  rw [tickAos_steps hst, stepTmr_dormant (fracOn_sorted hs) ((fracOn_tmrMeets L).mpr hm) (by rw [fracOn_pwr, hp]), fracOn_pwr]
  exact ⟨rfl, rfl⟩

/-- Where the wake source does not fire, nothing of the supply's state but the fraction of a tick moves. -/
theorem tickAos_still (h : ¬ (tmrSteps L ∧ tmrMeets L) ∨ (L.pwr.phase ≠ .run ∧ L.pwr.phase ≠ .dormant)) :
    { (tickAos L).pwr with tmrFrac := L.pwr.tmrFrac } = L.pwr := by
  obtain ⟨-, heq⟩ | ⟨-, -, heq⟩ | ⟨hst, heq⟩ := tickAos_cases L
  · rw [heq]
  · rw [heq, fracOn_pwr]
  · have hstill : (stepTmr (fracOn L)).pwr = (fracOn L).pwr := by
      refine stepTmr_still (fracOn_sorted hs) ?_
      rw [fracOn_tmrMeets, fracOn_pwr]
      exact h.imp_left fun hn hm => hn ⟨hst, hm⟩
    rw [heq, hstill, fracOn_pwr]

end

/-! One microsecond of a lane -/

/-- Lane time's clock finds of the lane what the machine timer leaves. -/
theorem netRuns_tickMtime (L : Lane) : netRuns (tickMtime L) = netRuns L := by
  obtain ⟨b0, b1, h⟩ := tickMtime_shape L
  rw [h]; rfl

theorem motOn_tickTime (L : Lane) : motOn (tickTime (tickMtime L)) ↔ motOn L := by
  obtain ⟨b0, b1, h1⟩ := tickMtime_shape L
  obtain ⟨t, k, g, h2⟩ := tickTime_shape (tickMtime L)
  rw [h2, h1]; rfl

/-- The lane as the clock of AOS_TMR finds it. -/
def beforeAos (L : Lane) : Lane := tickMot (tickTime (tickMtime L))

theorem tickLane_eq (L : Lane) : tickLane L = tickAos (beforeAos L) := rfl

theorem beforeAos_pwr (L : Lane) : (beforeAos L).pwr = L.pwr := by
  obtain ⟨b0, b1, h1⟩ := tickMtime_shape L
  obtain ⟨t, k, g, h2⟩ := tickTime_shape (tickMtime L)
  obtain ⟨r, m, u, p, h3⟩ := tickMot_shape (tickTime (tickMtime L))
  rw [beforeAos, h3, h2, h1]

theorem cntOnly_beforeAos (L : Lane) : cntOnly L (beforeAos L) := by
  obtain ⟨b0, b1, h1⟩ := tickMtime_shape L
  obtain ⟨t, k, g, h2⟩ := tickTime_shape (tickMtime L)
  have hregs : (tickTime (tickMtime L)).regs = L.regs := by rw [h2, h1]
  intro hs
  obtain ⟨hs', hfld⟩ := cntOnly_tickMot (tickTime (tickMtime L)) (by rw [hregs, hs])
  exact ⟨hs', fun g hg => (hfld g hg).trans (fld_of_regs hregs g)⟩

theorem tmrSteps_beforeAos (L : Lane) : tmrSteps (beforeAos L) ↔ tmrSteps L := by
  rw [tmrSteps, beforeAos_pwr]

/-- A field of the always-on block is none of the counters of the generators. -/
theorem key_ne_cnt {f : Fld} (h : f.key < (F.PWMn_CNT_CNT 0).key) (n : Nat) : f.key ≠ (F.PWMn_CNT_CNT n).key := by
  simp only [Fld.key, F.PWMn_CNT_CNT] at h ⊢
  omega

theorem beforeAos_fld {L : Lane} (hs : smSorted L.regs = true) {f : Fld} (hf : f.key < (F.PWMn_CNT_CNT 0).key) :
    (beforeAos L).fld f = L.fld f := (cntOnly_beforeAos L hs).2 f fun n _ => key_ne_cnt hf n

theorem tmrMeets_beforeAos {L : Lane} (hs : smSorted L.regs = true) : tmrMeets (beforeAos L) ↔ tmrMeets L := by
  rw [tmrMeets, tmrMeets, Lane.b, Lane.b, beforeAos_fld hs (by decide), beforeAos_fld hs (by decide),
    beforeAos_fld hs (by decide)]

section
variable {L : Lane} (hs : smSorted L.regs = true)
include hs

theorem tickLane_fld_other {f : Fld} (ht : f.key ≠ F.AOS_TMR_TMR.key) (hw : f.key ≠ F.AOS_WAKE_TIME_TIME.key)
    (hc : ∀ n, n < 3 → f.key ≠ (F.PWMn_CNT_CNT n).key) : (tickLane L).fld f = L.fld f := by
  obtain ⟨hs', hfld⟩ := cntOnly_beforeAos L hs
  rw [tickLane_eq, tickAos_fld_other hs' ht hw, hfld f hc]

theorem tickLane_fld_tmr : (tickLane L).fld F.AOS_TMR_TMR =
    if tmrSteps L then L.fld F.AOS_TMR_TMR + 1 else L.fld F.AOS_TMR_TMR := by
  rw [tickLane_eq, tickAos_fld_tmr (cntOnly_beforeAos L hs).1, beforeAos_fld hs (by decide)]
  simp only [tmrSteps_beforeAos]

theorem tickLane_run (hst : tmrSteps L) (hm : tmrMeets L) (hp : L.pwr.phase = .run) :
    (tickLane L).pwr.wakePend = L.pwr.wakePend ||| 32 := by
  rw [tickLane_eq, tickAos_run (cntOnly_beforeAos L hs).1 ((tmrSteps_beforeAos L).mpr hst) ((tmrMeets_beforeAos hs).mpr hm)
    (by rw [beforeAos_pwr, hp]), beforeAos_pwr]

theorem tickLane_dormant (hst : tmrSteps L) (hm : tmrMeets L) (hp : L.pwr.phase = .dormant) :
    (tickLane L).pwr.wakePend = L.pwr.wakePend ||| 32 ∧ (tickLane L).pwr.phase = .waking := by
  obtain ⟨hpend, hphase⟩ := tickAos_dormant (cntOnly_beforeAos L hs).1 ((tmrSteps_beforeAos L).mpr hst)
    ((tmrMeets_beforeAos hs).mpr hm) (by rw [beforeAos_pwr, hp])
  rw [beforeAos_pwr] at hpend
  exact ⟨hpend, hphase⟩

theorem tickLane_still (h : ¬ (tmrSteps L ∧ tmrMeets L) ∨ (L.pwr.phase ≠ .run ∧ L.pwr.phase ≠ .dormant)) :
    { (tickLane L).pwr with tmrFrac := L.pwr.tmrFrac } = L.pwr := by
  have hstill := tickAos_still (L := beforeAos L) (cntOnly_beforeAos L hs).1
    (by rw [tmrSteps_beforeAos, tmrMeets_beforeAos hs, beforeAos_pwr]; exact h)
  rwa [beforeAos_pwr] at hstill

end

theorem lane_idle (s : State) (l : LaneId) : (idle s).lane l = tickLane (s.lane l) := by cases l <;> rfl

/-- Settles O2: each clock's shape says what it may move; the shapes of the four clocks of a lane put together leave the rest. -/
theorem emptyQueueLetsOneMicrosecondPass : Obligations.EmptyQueueLetsOneMicrosecondPass := by
  intro s hq
  refine ⟨idle s, by rw [step, hq], hq, rfl, fun l => ?_⟩
  intro A B f steps fires mot
  have hB : B = tickLane A := lane_idle s l
  obtain ⟨b0, b1, h1⟩ := tickMtime_shape A
  obtain ⟨t, k, g, h2⟩ := tickTime_shape (tickMtime A)
  obtain ⟨r, m, u, p, h3⟩ := tickMot_shape (tickTime (tickMtime A))
  obtain ⟨r', fr, ph, wk, wp, h4, hfr⟩ := tickAos_shape (beforeAos A)
  rw [beforeAos_pwr] at hfr
  have hall : tickLane A = { tickMot (tickTime (tickMtime A)) with
      regs := r', pwr := { A.pwr with tmrFrac := fr, phase := ph, waking := wk, wakePend := wp } } := by
    rw [tickLane_eq, h4, beforeAos_pwr]; rfl
  clear_value B
  subst hB
  refine ⟨?_, ?_, ?_, ?_, ?_, ?_, ?_, ?time, ?stopped, ?motor, ?still, ?frac, ?fields⟩
  case time =>
    intro hrun hgain hgained
    have hadvance : (tickTime (tickMtime A)).time = (tickMtime A).time + 1000 :=
      tickTime_time ((netRuns_tickMtime A).trans hrun) (by rw [h1, hgain]) (by rw [h1, hgained])
    rw [hall, h3]
    exact hadvance.trans (by rw [h1])
  case stopped =>
    intro hstop
    rw [hall, h3, tickTime_stopped ((netRuns_tickMtime A).trans hstop), h1]
    exact ⟨rfl, rfl⟩
  case motor =>
    intro hmot
    obtain ⟨-, r2, p2, hruns⟩ := tickMot_runs ((motOn_tickTime A).mpr hmot)
    rw [hall, hruns, h2, h1]
    exact ⟨rfl, rfl⟩
  case still =>
    intro hmot
    rw [hall, tickMot_stopped (mt (motOn_tickTime A).mp hmot), h2, h1]
  case frac =>
    intro hp
    rw [hall]
    exact hfr hp
  case fields =>
    intro hs
    refine ⟨fun x ht hw hc => tickLane_fld_other hs ht hw hc, tickLane_fld_tmr hs, ?_, ?_, tickLane_still hs⟩
    · rintro ⟨hst, hm⟩ (hrun | hdorm)
      · exact tickLane_run hs hst hm hrun
      · exact (tickLane_dormant hs hst hm hdorm).1
    · rintro ⟨hst, hm⟩ hdorm
      exact (tickLane_dormant hs hst hm hdorm).2
  all_goals rw [hall, h3, h2, h1]

end Sys2Proof.Machine
end

section
/-! SUPPORT. Proofs of the statements about the timeline, the mode sequencer and the images: what an entry's command issues, cycle
starts, the checkpoint, requests and bank loads, and the Image Loader's operations. -/

namespace Sys2Proof.Machine

/-- A command that is an effect on a live lane and the die ends in what the effect makes of the two. -/
theorem exec_of_onDie {l : LaneId} {s : State} (hlive : (s.lane l).live = true) {c : Instr} {f : LD → LD} {ld : LD}
    (hc : exec c s = .next (onDie l f s)) (hf : f (s.lane l, s.sto) = ld) : exec c s = .next (s.withLD l ld) := by
  rw [hc, onDie_live l f s hlive, hf]
  rfl

theorem exec_of_onLane {l : LaneId} {s : State} {c : Instr} {f : Lane → Lane} {K : Lane}
    (hc : exec c s = .next (s.onLane l f)) (hf : f (s.lane l) = K) : exec c s = .next (s.setLane l K) := by
  rw [hc, State.onLane, hf]

/-! Issue of an entry (R107, R108): the command of the action code that the next entry carries acts, every other leaves the lane
as it is -/

theorem live_of_tlsRuns {L : Lane} (h : tlsRuns L = true) : L.live = true := by
  simp only [tlsRuns, motRuns, Bool.and_eq_true] at h
  obtain ⟨⟨⟨⟨hlive, -⟩, -⟩, -⟩, -⟩ := h
  exact hlive

section
variable {L : Lane} {i : Nat} {e : TlEnt} (hrun : tlsRuns L = true) (hnext : (nextEntryOf L).1 = some (i, e))
include hnext

/-- The look at the running list, by its two parts. -/
theorem nextEntry_eq : nextEntry (curBank L) (tlsCycle L) (curEntries L - L.tls.pos) L.tls.pos L =
    (some (i, e), (nextEntryOf L).2) := Prod.ext hnext rfl

include hrun
variable {code : Nat} {act : TlEnt → Lane → Lane}

theorem issueWith_same (hcode : e.action = code) : issueWith code act L = act e (atEntry i e L) := by
  subst hcode
  simp [issueWith, hrun, nextEntry_eq hnext, atEntry]

theorem issueWith_other (hcode : e.action ≠ code) : issueWith code act L = L := by
  simp [issueWith, hrun, nextEntry_eq hnext, hcode]

end

section
variable {l : LaneId} {s : State} {i : Nat} {e : TlEnt} (hrun : tlsRuns (s.lane l) = true)
  (hnext : (nextEntryOf (s.lane l)).1 = some (i, e))
include hrun hnext

/-- A command of the action code that the entry carries does what the action makes of the lane. -/
theorem exec_issues {c : Instr} {code : Nat} {act : TlEnt → Lane → Lane} {K : Lane}
    (hc : exec c s = .next (issueOn l code act s)) (hcode : e.action = code) (hact : act e (atEntry i e (s.lane l)) = K) :
    exec c s = .next (s.setLane l K) :=
  exec_of_onLane hc (by rw [issueWith_same hrun hnext hcode, hact])

/-- A MARK entry may close a segment, so that its command reaches the storage die. -/
theorem exec_evrMark {K : Lane} (hcode : e.action = 0x50) (hact : evrMarkAct e (atEntry i e (s.lane l)) = K) :
    exec (.evrMark l) s = .next (s.withLD l (pump (K, s.sto))) := by
  refine exec_of_onDie (live_of_tlsRuns hrun) rfl ?_
  rw [onL, issueWith_same hrun hnext hcode, hact]

end

/-! The actions, case by case -/

section
variable {e : TlEnt} {P : Lane}

theorem orBusy_free (act : TlEnt → Lane → Lane) (e : TlEnt) (P : Lane) : orBusy false act e P = act e P := rfl

theorem orBusy_busy (act : TlEnt → Lane → Lane) (e : TlEnt) (P : Lane) : orBusy true act e P = targetBusy P := rfl

theorem cdspTaskAct_idle (h : P.n F.CDSP_STAT_STATE = 0) : cdspTaskAct e P = taskStart e.target (10 * e.arg) P := by
  simp [cdspTaskAct, h]

theorem cdspTaskAct_task (h : P.n F.CDSP_STAT_STATE = 1) : cdspTaskAct e P = targetBusy P := by simp [cdspTaskAct, h]

theorem cdspTaskAct_waits (h : P.n F.CDSP_STAT_STATE = 2) (hidle : P.dsp.fromIdle = true) (hheld : P.dsp.heldTask = none) :
    cdspTaskAct e P = { P with dsp := { P.dsp with heldTask := some (e.target, 10 * e.arg) } } := by
  simp [cdspTaskAct, h, hidle, hheld]

theorem cdspTaskAct_handler (h : P.n F.CDSP_STAT_STATE = 2) (hbusy : P.dsp.fromIdle = false ∨ P.dsp.heldTask ≠ none) :
    cdspTaskAct e P = targetBusy P := by
  have hno : ¬ (P.dsp.fromIdle = true ∧ P.dsp.heldTask = none) := by
    rintro ⟨hidle, hheld⟩
    exact hbusy.elim (fun hf => by simp [hf] at hidle) fun hh => hh hheld
  simp only [cdspTaskAct, h, if_neg hno]

theorem cdspTaskAct_stopped (h : P.n F.CDSP_STAT_STATE = 3) : cdspTaskAct e P = P := by simp [cdspTaskAct, h]

theorem sampleAct_reserved (h : 16 ≤ e.target) : sampleAct e P = P := if_neg h.not_gt

theorem bistWinAct_class (h : e.target < 32) : bistWinAct e P = bistWin e.target e.arg P := if_pos h

theorem evrMarkAct_plain
    (h : (evrEvent 4 (toW e.arg) P).b F.EVR_FRZCFG_MARK = false ∨ e.arg.testBit 15 = false) :
    evrMarkAct e P = evrEvent 4 (toW e.arg) P := by
  obtain h | h := h <;> simp [evrMarkAct, h]

theorem evrMarkAct_freezes (h : (evrEvent 4 (toW e.arg) P).b F.EVR_FRZCFG_MARK = true) (harg : e.arg.testBit 15 = true) :
    evrMarkAct e P = (freezeTrigger 4 (evrEvent 4 (toW e.arg) P)).1 := by
  simp [evrMarkAct, h, harg]

theorem pwmAlignAct_pwm {cnt count : Nat} (h : e.target < 3) : pwmAlignAct cnt count e P = pwmAlign e.target cnt count P :=
  if_pos h

theorem adcSeqAct_free (h : e.target < 2) (hfree : P.bit F.ADC_STAT_BUSY e.target = false) :
    adcSeqAct e P = adcStart e.target e.arg P := by
  simp [adcSeqAct, h.not_ge, hfree]

theorem adcSeqAct_busy (h : e.target < 2) (hbusy : P.bit F.ADC_STAT_BUSY e.target = true) :
    adcSeqAct e P = plicRaise 66 (targetBusy P) := by
  simp [adcSeqAct, h.not_ge, hbusy]

theorem meStepAct_free (h : e.target < 2) : meStepAct false e P = meStep e.target P := by simp [meStepAct, h.not_ge]

theorem meStepAct_busy (h : e.target < 2) : meStepAct true e P = targetBusy P := by simp [meStepAct, h.not_ge]

theorem lpeRunAct_free (e : TlEnt) (P : Lane) : lpeRunAct false e P = lpeRun e.target (min e.arg (64 - e.target)) P :=
  if_neg Bool.false_ne_true

theorem lpeRunAct_busy (e : TlEnt) (P : Lane) : lpeRunAct true e P = targetBusy P := if_pos rfl

theorem vduUpdateAct_free (e : TlEnt) (P : Lane) : vduUpdateAct false e P = vduUpdate e.target P := if_neg Bool.false_ne_true

theorem vduUpdateAct_busy (e : TlEnt) (P : Lane) : vduUpdateAct true e P = targetBusy P := if_pos rfl

theorem canTxAct_channel (h : e.target < 2) : canTxAct e P = canTx e.arg e.target P := if_pos h

end

/-- Settles O15: the entry that the list holds next issues (`exec_issues`), and its action has one lemma for each case. -/
theorem timelineEntriesAct : Obligations.TimelineEntriesAct := by
  intro l s i e L P E dropped hrun hnext
  refine ⟨?nop, ?other, ?mid, ?irq, ?idle, ?waits, ?busy, ?stopped, ?reserved, ?sample, ?bistWin, ?sampleBusy, ?bistBusy, ?mark,
    ?freeze⟩
  case nop | mid | irq => exact fun h => exec_issues hrun hnext rfl h rfl
  case sample => exact fun h _ => exec_issues hrun hnext rfl h (orBusy_free sampleAct e P)
  case sampleBusy | bistBusy => exact fun h => exec_issues hrun hnext rfl h (orBusy_busy _ e P)
  case other =>
    intro h
    have hself : issueWith 0 (fun _ A => A) (s.lane l) = s.lane l := issueWith_other hrun hnext h
    exact congrArg _ (onLane_eq_self hself)
  case idle => exact fun h hst => exec_issues hrun hnext rfl h (cdspTaskAct_idle hst)
  case waits => exact fun h hst hidle hheld => exec_issues hrun hnext rfl h (cdspTaskAct_waits hst hidle hheld)
  case busy => exact fun h hst hbusy => exec_issues hrun hnext rfl h (cdspTaskAct_handler hst hbusy)
  case stopped => exact fun h hst => exec_issues hrun hnext rfl h (cdspTaskAct_stopped hst)
  case reserved => exact fun h ht => exec_issues hrun hnext rfl h (sampleAct_reserved ht)
  case bistWin => exact fun h ht => exec_issues hrun hnext rfl h ((orBusy_free _ e P).trans (bistWinAct_class ht))
  case mark => exact fun h hplain => exec_evrMark hrun hnext h (evrMarkAct_plain hplain)
  case freeze => exact fun h hmark harg => exec_evrMark hrun hnext h (evrMarkAct_freezes hmark harg)

/-- Settles O16: as O15, for the actions whose target is a block; a busy target's action is `targetBusy`. -/
theorem timelineEntriesDriveTheBlocks : Obligations.TimelineEntriesDriveTheBlocks := by
  intro l s i e cnt count L P dropped hrun hnext
  refine ⟨?align, ?adc, ?adcBusy, ?me, ?lpe, ?vdu, ?task, ?netTx, ?netRx, ?canTx, ?alignBusy, ?netTxBusy, ?netRxBusy,
    ?canTxBusy⟩
  case align => exact fun h ht => exec_issues hrun hnext rfl h ((orBusy_free _ e P).trans (pwmAlignAct_pwm ht))
  case adc => exact fun h ht hfree => exec_issues hrun hnext rfl h (adcSeqAct_free ht hfree)
  case adcBusy => exact fun h ht hbusy => exec_issues hrun hnext rfl h (adcSeqAct_busy ht hbusy)
  case me =>
    exact fun h ht => ⟨exec_issues hrun hnext rfl h (meStepAct_free ht), exec_issues hrun hnext rfl h (meStepAct_busy ht)⟩
  case lpe =>
    exact fun h => ⟨exec_issues hrun hnext rfl h (lpeRunAct_free e P), exec_issues hrun hnext rfl h (lpeRunAct_busy e P)⟩
  case vdu =>
    exact fun h => ⟨exec_issues hrun hnext rfl h (vduUpdateAct_free e P),
      exec_issues hrun hnext rfl h (vduUpdateAct_busy e P)⟩
  case task => exact fun h hst => exec_issues hrun hnext rfl h (cdspTaskAct_task hst)
  case canTx => exact fun h ht => exec_issues hrun hnext rfl h ((orBusy_free _ e P).trans (canTxAct_channel ht))
  case netTx => exact fun h => exec_issues hrun hnext rfl h (orBusy_free netTxAct e P)
  case netRx => exact fun h => exec_issues hrun hnext rfl h (orBusy_free netRxAct e P)
  case alignBusy | netTxBusy | netRxBusy | canTxBusy => exact fun h => exec_issues hrun hnext rfl h (orBusy_busy _ e P)

/-! Cycle starts (R103 to R105) -/

section
variable {L : Lane} (hrun : tlsRuns L = true)
include hrun

theorem cycleStart_unlocked (hlock : L.b F.TLS_STAT_LOCKED = false) :
    cycleStart L = timeOwn (cycleTo (tlsCycle L + 1) false L) := by
  simp [cycleStart, hrun, hlock]

theorem cycleStart_holdover (hlock : L.b F.TLS_STAT_LOCKED = true) (hhold : L.b F.TLS_STAT_HOLDOVER = true) :
    cycleStart L = holdoverStart L := by
  simp [cycleStart, hrun, hlock, hhold]

theorem cycleMissing_locked (hlock : L.b F.TLS_STAT_LOCKED = true) (hhold : L.b F.TLS_STAT_HOLDOVER = false) :
    cycleMissing L = holdoverStart L := by
  simp [cycleMissing, hrun, hlock, hhold]

variable {delta : Int} (hsync : synced L = true)
include hsync

theorem cycleEvent_first (hlock : L.b F.TLS_STAT_LOCKED = false) :
    cycleEvent delta L = cycleTo (frameCyc L) true (L.setB F.TLS_STAT_LOCKED true) := by
  simp [cycleEvent, hrun, hsync, hlock]

variable (hlock : L.b F.TLS_STAT_LOCKED = true)
include hlock

theorem cycleEvent_locked (hhold : L.b F.TLS_STAT_HOLDOVER = false) (hd : delta ≤ 1000) :
    cycleEvent delta L = cycleTo (frameCyc L) false L := by
  simp [cycleEvent, hrun, hsync, hlock, hhold, hd]

variable (hhold : L.b F.TLS_STAT_HOLDOVER = true)
include hhold

theorem cycleEvent_outside (hd : delta < -2000 ∨ 2000 < delta) : cycleEvent delta L = L.inc F.TLS_ERR_MISS_CNT := by
  simp [cycleEvent, hrun, hsync, hlock, hhold, hd]

theorem cycleEvent_late (hpos : 0 < delta) (hd : delta ≤ 2000) : cycleEvent delta L = L.setB F.TLS_STAT_HOLDOVER false := by
  have hin : ¬ (delta < -2000 ∨ 2000 < delta) := by omega
  simp [cycleEvent, hrun, hsync, hlock, hhold, hin, hpos]

theorem cycleEvent_returns (hd : -2000 ≤ delta) (hneg : delta ≤ 0) :
    cycleEvent delta L = cycleTo (frameCyc L) false (L.setB F.TLS_STAT_HOLDOVER false) := by
  have hin : ¬ (delta < -2000 ∨ 2000 < delta) := by omega
  simp [cycleEvent, hrun, hsync, hlock, hhold, hin, hneg.not_gt]

end

/-- Settles O17: each command is one effect on its lane, with one lemma for each state of LOCKED and HOLDOVER. -/
theorem cyclesStartAsTheClockAllows : Obligations.CyclesStartAsTheClockAllows := by
  intro l s delta L hold hrun
  refine ⟨?unlocked, ?holdover, ?missing, ?first, ?locked, ?late, ?outside, ?returns⟩
  case unlocked => exact fun hl => exec_of_onLane rfl (cycleStart_unlocked hrun hl)
  case holdover => exact fun hl hh => exec_of_onLane rfl (cycleStart_holdover hrun hl hh)
  case missing => exact fun hl hh => exec_of_onLane rfl (cycleMissing_locked hrun hl hh)
  case first => exact fun hs hl => exec_of_onLane rfl (cycleEvent_first hrun hs hl)
  case locked => exact fun hs hl hh hd => exec_of_onLane rfl (cycleEvent_locked hrun hs hl hh hd)
  case late => exact fun hs hl hh hpos hd => exec_of_onLane rfl (cycleEvent_late hrun hs hl hh hpos hd)
  case outside => exact fun hs hl hh hd => exec_of_onLane rfl (cycleEvent_outside hrun hs hl hh hd)
  case returns => exact fun hs hl hh hd hneg => exec_of_onLane rfl (cycleEvent_returns hrun hs hl hh hd hneg)

/-! The checkpoint (R111, R144, R177, R451) -/

section
variable {L : Lane} {d : StorageDie} {i : Nat} {e : TlEnt} (hrun : tlsRuns L = true)
  (hnext : (nextEntryOf L).1 = some (i, e)) (hcode : e.action = 0x40)
include hrun hnext hcode

theorem ckptAct_halts {P : Lane} (hhalt : haltAsked P = true) (hP : atEntry i e L = P) : ckptAct (L, d) = (crossHalt P, d) := by
  subst hP
  rw [atEntry, hcode] at hhalt ⊢
  simp [ckptAct, hrun, nextEntry_eq hnext, hcode, hhalt]

/-- With no halt asked the round's effects come to a lane `K`, in which SERVICE has ended where entry to Dormant begins; the ended
request completes and the recorder goes on. -/
theorem ckptAct_round {P K : Lane} (hhalt : haltAsked P = false) (hfetch : L.ring.noFetch = false)
    (hK : (if P.pwr.dormStep = 0 ∧ (ckptLane e P).pwr.dormStep = 1 then svcEnded 3 (ckptLane e P) else ckptLane e P) = K)
    (hstepC : ¬ (P.pwr.dormStep = 3 ∧ K.pwr.dormStep = 4)) (hP : atEntry i e L = P) :
    ckptAct (L, d) = pump (flushReq (K, d)) := by
  subst hP hK
  rw [atEntry, hcode] at hhalt hstepC ⊢
  simp only [ckptAct, hrun, if_true, nextEntry_eq hnext, hcode, hhalt, hfetch, afterFetch, if_neg hstepC, Bool.false_and,
    Bool.false_eq_true, if_false]

end

/-! Mode requests (R71, R84) -/

section
variable {L : Lane} {d : StorageDie} {r : Run} {bs : List Byte} (hop : runningOp L 6 0x01 = some r)
  (hfree : L.tls.reqWord = none) (hlen : r.d.length = 4) (hq : (iovaReadN 6 r.d.ctx r.d.src 4 (L, d)).1 = .ok bs)
include hop hfree hlen hq

theorem modeRequest_held (hcode : bitsOf (leWord bs) 0 8 ≠ 0) (hres : bitsOf (leWord bs) 8 8 = 0)
    (hexcl : (iovaReadN 6 r.d.ctx r.d.src 4 (L, d)).2.1.b F.CLV_STAT_EXCL = false) :
    modeRequest (L, d) = onL (withTls (fun t => { t with reqWord := some (leWord bs), reqStage := 0, reqAge := 0 }))
      (iovaReadN 6 r.d.ctx r.d.src 4 (L, d)).2 := by
  rcases hr : iovaReadN 6 r.d.ctx r.d.src 4 (L, d) with ⟨x, ld⟩
  rw [hr] at hq hexcl
  obtain rfl : x = .ok bs := hq
  simp [modeRequest, hop, hfree, hlen, hr, hcode, hres, hexcl]

theorem modeRequest_code_zero (hcode : bitsOf (leWord bs) 0 8 = 0) : modeRequest (L, d) =
    finish 6 r 1 stRejected 0x100 (onL (msRejected 0 1) (iovaReadN 6 r.d.ctx r.d.src 4 (L, d)).2) := by
  rcases hr : iovaReadN 6 r.d.ctx r.d.src 4 (L, d) with ⟨x, ld⟩
  rw [hr] at hq
  obtain rfl : x = .ok bs := hq
  simp [modeRequest, hop, hfree, hlen, hr, hcode]

end

/-! Bank loads (R82, R83) -/

/-- What the load of the list of point `p` reads of the running image's slot. -/
def bankRead (p : Nat) (L : Lane) : Option (List Byte) × Lane :=
  readBytes (masalaSlot (L.n F.TLS_IMG_STAT_ASLOT) + (pointRec L p).tlOff) (8 * (pointRec L p).tlEntries) L

/-- No load is in progress any more. -/
def loadEnded (L : Lane) : Lane := (withTls (fun t => { t with loading := none }) L).setB F.TLS_MS_STAT_PRELOAD_BUSY false

section
variable {L : Lane} {n p : Nat} (hload : L.tls.loading = some (n, p))
include hload

theorem bankLoaded_ready {bs : List Byte} (hread : (bankRead p L).1 = some bs) :
    bankLoaded L = startLoad (setTlBank n 2 p (writeBytes (entAddr n 0) bs (loadEnded (bankRead p L).2)).2) := by
  simp only [bankRead] at hread
  simp [bankLoaded, hload, hread, bankRead, loadEnded]

theorem bankLoaded_failed (hread : (bankRead p L).1 = none) : bankLoaded L = startLoad (raise 0x07D
    (setTlBank n 3 p (withTls (fun t => { t with failedPts := p :: t.failedPts }) (loadEnded (bankRead p L).2)))) := by
  simp only [bankRead] at hread
  simp [bankLoaded, hload, hread, bankRead, loadEnded]

end

/-- Settles O18: the checkpoint halts or carries out its round (`ckptAct_halts`, `ckptAct_round`), and a request and a bank load
have one lemma for each of their ends. -/
theorem checkpointsRequestsAndBanks : Obligations.CheckpointsRequestsAndBanks := by
  intro l s i e r bs n p L P q w b hlive
  have hbank : exec (.bankLoadComplete l) s = .next (s.setLane l (bankLoaded L)) :=
    congrArg _ (onLane_whenLive bankLoaded hlive)
  refine ⟨?round, ?dormant, ?halt, ?held, ?zero, ?ready, ?failed⟩
  case round =>
    intro hrun hnext hcode hhalt hfetch hstepA hstepC
    exact exec_of_onDie hlive rfl (ckptAct_round hrun hnext hcode hhalt hfetch (if_neg (not_and_or.mpr hstepA))
      (not_and_or.mpr hstepC) rfl)
  case dormant =>
    intro hrun hnext hcode hhalt hfetch hwas hstepA
    have hno : P.pwr.dormStep ≠ 3 := hwas.trans_ne (by decide)
    exact exec_of_onDie hlive rfl (ckptAct_round hrun hnext hcode hhalt hfetch (if_pos ⟨hwas, hstepA⟩)
      (fun h => hno h.1) rfl)
  case halt =>
    intro hrun hnext hcode hhalt
    rw [← withLD_sto_self]
    exact exec_of_onDie hlive rfl (ckptAct_halts hrun hnext hcode hhalt rfl)
  case held =>
    intro hop hfree hlen hq hcode hres hexcl
    exact exec_of_onDie hlive rfl (modeRequest_held hop hfree hlen hq hcode hres hexcl)
  case zero => exact fun hop hfree hlen hq hcode => exec_of_onDie hlive rfl (modeRequest_code_zero hop hfree hlen hq hcode)
  case ready =>
    intro hload hread
    rw [hbank, bankLoaded_ready hload hread]
    rfl
  case failed =>
    intro hload hread
    rw [hbank, bankLoaded_failed hload hread]
    rfl

/-! Images: verification and copy (R93 to R101) -/

/-- The length that the header of a slot's image gives, and what the copy reads of the slot. -/
def imageLen (slot : Nat) (L : Lane) : Nat := (L.rdW (masalaSlot slot + 8)).toNat
def imageRead (slot : Nat) (L : Lane) : Option (List Byte) × Lane := readBytes (masalaSlot slot) (imageLen slot L) L

section
variable {L : Lane} (hlive : L.live = true) (hsub : substate L = 2)
include hlive hsub

section
variable (hfw : L.lcs.fwSlot.isSome = true) (hnone : L.tls.verified = none) (hflag : (bootHdr L).imFlag = 0)
include hfw hnone hflag

/-! No slot is pending: the slot of the boot header is verified (R100). -/

theorem imageVerify_passed (hpass : (imgVerify ((bootHdr L).imAct.toNat % 2) L).1.cause = 0) : imageVerify L =
    withTls (fun t => { t with verified := some ((bootHdr L).imAct.toNat % 2) })
      (imgReport (imgVerify ((bootHdr L).imAct.toNat % 2) L).1 (imgVerify ((bootHdr L).imAct.toNat % 2) L).2) := by
  simp [imageVerify, hlive, hsub, hfw, hnone, hflag, hpass]

theorem imageVerify_refused (hcause : (imgVerify ((bootHdr L).imAct.toNat % 2) L).1.cause ≠ 0) : imageVerify L =
    enterHold (imgReport (imgVerify ((bootHdr L).imAct.toNat % 2) L).1 (imgVerify ((bootHdr L).imAct.toNat % 2) L).2) := by
  simp [imageVerify, hlive, hsub, hfw, hnone, hflag, hcause]

end

section
variable {slot : Nat} (hver : L.tls.verified = some slot)
include hver

theorem imageCopy_unread (hread : (imageRead slot L).1 = none) :
    imageCopy L = enterHold (withTls (fun t => { t with verified := none }) (imageRead slot L).2) := by
  simp only [imageRead, imageLen] at hread
  simp [imageRead, imageLen, imageCopy, hver, hlive, hsub, hread]

theorem imageCopy_read {bs : List Byte} (hread : (imageRead slot L).1 = some bs) : imageCopy L =
    let I := imgOf bs (imageLen slot L)
    let K := copyTables I (copyPwm I (copyNetwork I (copyPrograms I (imageRead slot L).2)))
    (startTls I slot bs K).setB F.LSM_CTL_LOCK true := by
  simp only [imageRead, imageLen] at hread
  simp [imageRead, imageLen, imageCopy, hver, hlive, hsub, hread]

end
end

/-- Settles O19: verification has one lemma for an active slot, the copy one for each outcome of the read of the slot. -/
theorem imagesAreVerifiedThenCopied : Obligations.ImagesAreVerifiedThenCopied := by
  intro l s slot bs L h v b I hlive hsub
  have hverify : exec (.imageVerification l) s = .next (s.setLane l (imageVerify L)) := rfl
  have hcopy : exec (.imageCopy l) s = .next (s.setLane l (imageCopy L)) := rfl
  refine ⟨?passed, ?refused, ?copied, ?unread⟩
  case passed =>
    intro hfw hnone hflag hpass
    rw [hverify, imageVerify_passed hlive hsub hfw hnone hflag hpass]
  case refused =>
    intro hfw hnone hflag hcause
    rw [hverify, imageVerify_refused hlive hsub hfw hnone hflag hcause]
  case copied =>
    intro hver hread
    rw [hcopy, imageCopy_read hlive hsub hver hread]
    rfl
  case unread =>
    intro hver hread
    rw [hcopy, imageCopy_unread hlive hsub hver hread]
    rfl

/-! Staging operations (R97, R98, R453) -/

theorem bootWrite_regs (f : BootHdr → BootHdr) (L : Lane) : (bootWrite f L).regs = L.regs := by
  unfold bootWrite
  dsimp only
  split <;> split <;> rfl

section
variable {L : Lane} {d : StorageDie} {r : Run}

theorem slotErase_eq {role op : Nat} {base : Nat → Nat} {done : Nat → Lane → Lane} (hop : runningOp L role op = some r) :
    slotErase role op base done (L, d) = finish role { r with progress := 2097152 } 0 stDone 0
      (done (targetSlot r) (clearRange (base (targetSlot r)) 2097152 L), d) := by
  simp [slotErase, hop, onL]

/-- A source of less than a page is one page of the copy. -/
theorem slotPages_one {role base : Nat} {bs : List Byte} {ld : LD} (hprog : r.progress = 0) (hpos : 0 < r.d.length)
    (hlen : r.d.length < 4096) (hread : (iovaReadN role r.d.ctx (r.d.src + 0) r.d.length ld).1 = .ok bs) :
    slotPages role base r 1 ld = finish role { r with progress := r.d.length } 0 stDone 0
      (onL (place base bs) (iovaReadN role r.d.ctx (r.d.src + 0) r.d.length ld).2) := by
  have hk : min 4096 (r.d.length - 0) = r.d.length := by omega
  rcases hr : iovaReadN role r.d.ctx (r.d.src + 0) r.d.length ld with ⟨x, ld1⟩
  rw [hr] at hread
  obtain rfl : x = .ok bs := hread
  simp only [slotPages, hprog, hk, if_neg hpos.ne', hr]
  simp only [Nat.zero_add, Nat.add_zero]

theorem slotWrite_one {role op : Nat} {base : Nat → Nat} {done : Nat → Lane → Lane} {bs : List Byte}
    (hop : runningOp L role op = some r) (hprog : r.progress = 0) (hpos : 0 < r.d.length) (hlen : r.d.length < 4096)
    (hread : (iovaReadN role r.d.ctx (r.d.src + 0) r.d.length (done (targetSlot r) L, d)).1 = .ok bs) :
    slotWrite role op base done (L, d) = finish role { r with progress := r.d.length } 0 stDone 0
      (onL (place (base (targetSlot r) + bitsOf r.d.w4 8 24 * 256) bs)
        (iovaReadN role r.d.ctx (r.d.src + 0) r.d.length (done (targetSlot r) L, d)).2) := by
  have hfuel : r.d.length / 4096 + 1 = 1 := by rw [Nat.div_eq_of_lt hlen]
  simp only [slotWrite, hop, hfuel, onL]
  exact slotPages_one hprog hpos hlen hread

theorem stageVerify_passed (hop : runningOp L 7 0x22 = some r) (hpass : (imgVerify (targetSlot r) L).1.cause = 0) :
    stageVerify (L, d) = finish 7 { r with progress := (imgVerify (targetSlot r) L).1.step } 0 stDone 0
      (stageSet true (targetSlot r) (imgReport (imgVerify (targetSlot r) L).1 (imgVerify (targetSlot r) L).2), d) := by
  simp [stageVerify, hop, hpass, toW]

theorem stageVerify_refused (hop : runningOp L 7 0x22 = some r) (hcause : (imgVerify (targetSlot r) L).1.cause ≠ 0) :
    stageVerify (L, d) = finish 7 { r with progress := (imgVerify (targetSlot r) L).1.step } 0 stDone
      (toW (imgVerify (targetSlot r) L).1.cause)
      (imgReport (imgVerify (targetSlot r) L).1 (imgVerify (targetSlot r) L).2, d) := by
  simp [stageVerify, hop, hcause]

/-- Before an image runs, the boot header alone names the pending slot. -/
theorem stageActivate_idle (hop : runningOp L 7 0x23 = some r) (hidle : L.b F.TLS_MS_CFG_IMG_VALID = false) :
    stageActivate (L, d) = finish 7 r 0 stDone 0
      (bootWrite (fun b => { b with imPend := BitVec.ofNat 8 (targetSlot r), imFlag := 1 }) L, d) := by
  simp [stageActivate, hop, onL, b_of_regs (bootWrite_regs _ L), hidle]

end

/-- Settles O20: each operation is one effect on the lane and the die, which ends its descriptor. -/
theorem stagingOperationsEndDone : Obligations.StagingOperationsEndDone := by
  intro l s r bs L k v at7 at9 q7 q9 hlive hprog
  refine ⟨?erase, ?fwErase, ?write, ?fwWrite, ?passed, ?refused, ?activate⟩
  case erase | fwErase => exact fun hop => exec_of_onDie hlive rfl (slotErase_eq hop)
  case write | fwWrite => exact fun hop hpos hlen hread => exec_of_onDie hlive rfl (slotWrite_one hop hprog hpos hlen hread)
  case passed => exact fun hop hpass => exec_of_onDie hlive rfl (stageVerify_passed hop hpass)
  case refused => exact fun hop hcause => exec_of_onDie hlive rfl (stageVerify_refused hop hcause)
  case activate => exact fun hop hidle => exec_of_onDie hlive rfl (stageActivate_idle hop hidle)

end Sys2Proof.Machine
end

section
/-! SUPPORT. Proofs of the statements about the rings and the LMMU: doorbells and ring control, the fetch of a head descriptor,
COPY and FILL, and what a final status leaves behind. -/

namespace Sys2Proof.Machine

/-- A command that is an effect on a live lane alone ends in what the effect makes of it. -/
theorem exec_of_whenLive {l : LaneId} {s : State} (hlive : (s.lane l).live = true) {c : Instr} {f : Lane → Lane} {K : Lane}
    (hc : exec c s = .next (s.onLane l (whenLive f))) (hf : f (s.lane l) = K) : exec c s = .next (s.setLane l K) :=
  exec_of_onLane hc (by rw [whenLive_live f _ hlive, hf])

/-- An engine that leaves the die as it is has an effect on its lane alone. -/
theorem withLD_same_die (s : State) (l : LaneId) (K : Lane) : s.withLD l (K, s.sto) = s.setLane l K := by cases l <;> rfl

/-! Doorbells (R129) -/

/-- The descriptors that ring `n` would hold with the written value as its PI. -/
def dbFill (n : Nat) (val : Word) (L : Lane) : Nat := (val.toNat % 65536 + 65536 - L.n (F.RINGn_CI_CI n)) % 65536

section
variable {L : Lane} {n : Nat} {val : Word}

theorem doorbell_taken (hen : L.b (F.RINGn_CFG_ENABLE n) = true) (hsize : dbFill n val L ≤ 2 ^ L.n (F.RINGn_CFG_LOG2SIZE n))
    (hfill : ringFill L n ≤ dbFill n val L) : doorbell n val L = L.putN (F.RINGn_PI_PI n) (val.toNat % 65536) := by
  rw [dbFill] at hsize hfill
  simp only [doorbell, hen, if_true, if_neg hsize.not_gt, if_neg hfill.not_gt]

theorem doorbell_over (hen : L.b (F.RINGn_CFG_ENABLE n) = true) (hsize : 2 ^ L.n (F.RINGn_CFG_LOG2SIZE n) < dbFill n val L) :
    doorbell n val L = dbRefuse n (F.RINGn_STAT_DB_OVER n) L := by
  rw [dbFill] at hsize
  simp only [doorbell, hen, if_true, if_pos hsize]

theorem doorbell_back (hen : L.b (F.RINGn_CFG_ENABLE n) = true) (hsize : dbFill n val L ≤ 2 ^ L.n (F.RINGn_CFG_LOG2SIZE n))
    (hfill : dbFill n val L < ringFill L n) : doorbell n val L = dbRefuse n (F.RINGn_STAT_DB_BACK n) L := by
  rw [dbFill] at hsize hfill
  simp only [doorbell, hen, if_true, if_neg hsize.not_gt, if_pos hfill]

theorem doorbell_disabled (hen : L.b (F.RINGn_CFG_ENABLE n) = false) : doorbell n val L =
    (L.putN (F.RINGn_PI_PI n) (val.toNat % 65536)).putN (F.RINGn_CI_CI n) (val.toNat % 65536) := by
  simp [doorbell, hen]

/-! Ring configuration (R130) -/

/-- The role, priority and size of a written RINGn_CFG taken over. -/
def cfgTaken (n : Nat) (val : Word) (L : Lane) : Lane :=
  ((L.putN (F.RINGn_CFG_ROLE n) (bitsOf val 20 4)).putN (F.RINGn_CFG_PRIO n) (bitsOf val 16 2)).putN
    (F.RINGn_CFG_LOG2SIZE n) (bitsOf val 0 4)

/-- ENABLE = 1 is taken, or refused with CFG_ERR, by the configuration written with it. -/
theorem ringCfg_enables (hen : L.b (F.RINGn_CFG_ENABLE n) = false) (hlock : L.b F.RING_CTL_LOCK = false)
    (hon : bitAt val 31 = true) (herr : bitAt val 30 = false) : ringCfg n val L =
      if enableOk (cfgTaken n val L) n then (cfgTaken n val L).setB (F.RINGn_CFG_ENABLE n) true
      else (cfgTaken n val L).setB (F.RINGn_CFG_CFG_ERR n) true := by
  simp only [ringCfg, hen, hlock, hon, herr, Bool.false_eq_true, if_false, if_true]
  rfl

/-- ENABLE = 0 with the configuration that stands is taken while no descriptor is in service. -/
theorem ringCfg_disables (hen : L.b (F.RINGn_CFG_ENABLE n) = true) (hbusy : L.b (F.RINGn_STAT_BUSY n) = false)
    (hoff : bitAt val 31 = false) (herr : bitAt val 30 = false) (hrole : bitsOf val 20 4 = ringRole L n)
    (hprio : bitsOf val 16 2 = ringPrio L n) (hsize : bitsOf val 0 4 = L.n (F.RINGn_CFG_LOG2SIZE n)) :
    ringCfg n val L = L.setB (F.RINGn_CFG_ENABLE n) false := by
  simp [ringCfg, hen, hbusy, hoff, herr, hrole, hprio, hsize]

theorem ringLeft_disabled (ld : LD) : ringLeft n false ld = ld := rfl

/-- A ring whose ENABLE is given back leaves its engine, of the role that it keeps, to other work. -/
theorem ringLeft_setB {d : StorageDie} (hs : smSorted L.regs = true) :
    ringLeft n true (L.setB (F.RINGn_CFG_ENABLE n) false, d) =
      engineNext (ringRole L n) (L.setB (F.RINGn_CFG_ENABLE n) false, d) := by
  have hen : (L.setB (F.RINGn_CFG_ENABLE n) false).b (F.RINGn_CFG_ENABLE n) = false := by
    rw [Lane.b, setB_eq, if_neg Bool.false_ne_true, put_zero_same hs]
    rfl
  have hkey : (F.RINGn_CFG_ROLE n).key ≠ (F.RINGn_CFG_ENABLE n).key := by simp [Fld.key, F.RINGn_CFG_ROLE, F.RINGn_CFG_ENABLE]
  have hrole : ringRole (L.setB (F.RINGn_CFG_ENABLE n) false) n = ringRole L n :=
    congrArg BitVec.toNat (fld_put_other _ hs hkey)
  simp [ringLeft, hen, hrole]

/-! ABORT of a ring (R140) -/

theorem ringAbort_running {d : StorageDie} {r : Run} (hrun : (getEng L (ringRole L n)).run = some r) (hring : r.ring = n) :
    ringAbort n (L, d) = (setEng (ringRole L n) { getEng L (ringRole L n) with run := some { r with abort := true } }
      (L.setB (F.RINGn_CTL_ABORT n) true), d) := by
  simp [ringAbort, hrun, hring]

theorem ringAbort_not_running {d : StorageDie} (hrun : ∀ x, (getEng L (ringRole L n)).run = some x → x.ring ≠ n) :
    ringAbort n (L, d) = ringAbort.ringAbortIdle n (ringRole L n) (getEng L (ringRole L n)) (L, d) := by
  rw [ringAbort]
  dsimp only
  split
  next r hr => rw [if_neg (hrun r hr)]
  next => rfl

section
variable {role : Nat} {e : Engine} {ld : LD}

theorem ringAbortIdle_held {p : Nat} {r : Run} (hheld : heldSlot e n = some (p, r)) : ringAbort.ringAbortIdle n role e ld =
    engineNext role (endStatus role { r with abort := true } 1 stAborted 0 (onL (setEng role (setSlot e p none)) ld)) := by
  simp [ringAbort.ringAbortIdle, hheld]

theorem ringAbortIdle_queued {r : Run} (hheld : heldSlot e n = none)
    (hqueued : e.queued.find? (fun q => decide (q.ring = n)) = some r) : ringAbort.ringAbortIdle n role e ld =
      engineNext role (endStatus role { r with abort := true } 1 stAborted 0
        (onL (setEng role { e with queued := e.queued.filter (fun x => decide (x.ring ≠ n)) }) ld)) := by
  simp [ringAbort.ringAbortIdle, hheld, hqueued]

theorem find_ring_none {xs : List Run} (h : ∀ x ∈ xs, x.ring ≠ n) : xs.find? (fun q => decide (q.ring = n)) = none :=
  List.find?_eq_none.mpr fun x hx => by simpa using h x hx

/-- A ring of which the engine holds nothing halts at once. -/
theorem ringAbortIdle_idle (hheld : heldSlot e n = none) (hqueued : ∀ x ∈ e.queued, x.ring ≠ n)
    (hrecv : ∀ x ∈ ld.1.ring.recv, x.ring ≠ n) :
    ringAbort.ringAbortIdle n role e ld = engineNext role (onL (ringHalt n 1) ld) := by
  simp only [ringAbort.ringAbortIdle, hheld, find_ring_none hqueued, find_ring_none hrecv]

end

/-! Invalidation of the LMMU (R138, R142) -/

theorem lmmuInv_idle (hbusy : L.b F.LMMU_INV_BUSY = false) : lmmuInv val L = { L.setB F.LMMU_INV_BUSY true with
    ring := { L.ring with inv := some (bitsOf val 16 2, bitsOf val 8 6, L.n F.LMMU_INV_IOVA_IOVA_PAGE) } } := by
  simp [lmmuInv, hbusy]

theorem lmmuInv_busy (hbusy : L.b F.LMMU_INV_BUSY = true) : lmmuInv val L = L := by simp [lmmuInv, hbusy]

theorem lmmuInvDone_some {iv : Nat × Nat × Nat} (hinv : L.ring.inv = some iv) : lmmuInvDone L =
    { L.setB F.LMMU_INV_BUSY false with ring := { L.ring with
        inv := none
        tlb0 := L.ring.tlb0.filter (tlbKeeps iv)
        tlb1 := L.ring.tlb1.filter (tlbKeeps iv)
        tlb2 := L.ring.tlb2.filter (tlbKeeps iv) } } := by
  simp [lmmuInvDone, hinv]

end

/-- Settles O21: each command is one effect on its lane, or on its lane and the die, taken case by case. -/
theorem doorbellsAndRingControl : Obligations.DoorbellsAndRingControl := by
  intro l s n val r p iv L v dNew size refused L1 e hlive
  have hcfg {K : Lane} (hen : L.b (F.RINGn_CFG_ENABLE n.val) = false) (hK : ringCfg n.val val L = K) :
      exec (.ringEnable l n val) s = .next (s.setLane l K) := by
    rw [← withLD_same_die]
    refine exec_of_onDie hlive rfl ?_
    dsimp only
    rw [hen, ringLeft_disabled, onL, hK]
  have habort {ld : LD} (hrun : ∀ x, e.run = some x → x.ring ≠ n.val)
      (hidle : ringAbort.ringAbortIdle n.val (ringRole L n.val) e (L, s.sto) = ld) :
      exec (.ringAbort l n) s = .next (s.withLD l ld) :=
    exec_of_onDie hlive rfl ((ringAbort_not_running hrun).trans hidle)
  refine ⟨?taken, ?beyond, ?back, ?indices, ?enabled, ?refused, ?disabled, exec_of_whenLive hlive rfl rfl, ?idle, ?held, ?queued,
    ?running, ?starts, ?busy, ?completes⟩
  case taken => exact fun hen hsize hfill => exec_of_whenLive hlive rfl (doorbell_taken hen hsize hfill)
  case beyond => exact fun hen hsize => exec_of_whenLive hlive rfl (doorbell_over hen hsize)
  case back => exact fun hen hsize hfill => exec_of_whenLive hlive rfl (doorbell_back hen hsize hfill)
  case indices => exact fun hen => exec_of_whenLive hlive rfl (doorbell_disabled hen)
  case enabled =>
    exact fun hen hlock hon herr hok => hcfg hen ((ringCfg_enables hen hlock hon herr).trans (if_pos hok))
  case refused =>
    exact fun hen hlock hon herr hbad =>
      hcfg hen ((ringCfg_enables hen hlock hon herr).trans (if_neg (Bool.eq_false_iff.mp hbad)))
  case disabled =>
    intro hen hbusy hoff herr hrole hprio hsize hsorted
    refine exec_of_onDie hlive rfl ?_
    dsimp only
    rw [hen, onL, ringCfg_disables hen hbusy hoff herr hrole hprio hsize, ringLeft_setB hsorted]
  case idle => exact fun hrun hheld hqueued hrecv => habort hrun (ringAbortIdle_idle hheld hqueued hrecv)
  case held => exact fun hrun hheld => habort hrun (ringAbortIdle_held hheld)
  case queued => exact fun hrun hheld hqueued => habort hrun (ringAbortIdle_queued hheld hqueued)
  case running =>
    intro hrun hring
    rw [← withLD_same_die]
    exact exec_of_onDie hlive rfl (ringAbort_running hrun hring)
  case starts => exact fun hbusy => exec_of_whenLive hlive rfl (lmmuInv_idle hbusy)
  case busy =>
    intro hbusy
    rw [exec_of_whenLive hlive rfl (lmmuInv_busy hbusy), setLane_lane_self]
  case completes => exact fun hinv => exec_of_whenLive hlive rfl (lmmuInvDone_some hinv)

/-! The fetch of a head descriptor (R131, R132) -/

/-- The eight words of ring `n`'s head descriptor, as its fetch reads them. -/
def headWords (n : Nat) (L : Lane) : Option (List Word) × Lane :=
  readWords (L.n (F.RINGn_BASE_BASE n) * 512 + 32 * (L.n (F.RINGn_CI_CI n) % 2 ^ L.n (F.RINGn_CFG_LOG2SIZE n))) 8 L

/-- The descriptor that its words give (R120). -/
def descOf (ws : List Word) : Desc :=
  ⟨nth ws 0 0, nth ws 1 0, nth ws 2 0, nth ws 3 0, nth ws 4 0, nth ws 5 0, nth ws 6 0, nth ws 7 0⟩

/-- The run of ring `n`'s head descriptor before a unit of it is done. -/
def freshRun (n : Nat) (L : Lane) (ws : List Word) : Run := ⟨n, L.n (F.RINGn_CI_CI n), descOf ws, 0, false, false, 0, []⟩

theorem descOf_mk (ws : List Word) :
    (⟨nth ws 0 0, nth ws 1 0, nth ws 2 0, nth ws 3 0, nth ws 4 0, nth ws 5 0, nth ws 6 0, nth ws 7 0⟩ : Desc) = descOf ws := rfl

/-- The engine takes ring `n`'s descriptor now, before a recorder capture that waits for a free engine (R134). -/
def fetchFree (n : Nat) (ld : LD) : Prop :=
  mayFetch n ld.1 = true ∧ ((getEng ld.1 (ringRole ld.1 n)).run.isSome = true ∨ captureWaits (ringRole ld.1 n) ld = false)

/-- The STORAGE engine takes the sectors of ring `n`'s descriptor where it is an accepted WRITE to the audit log (R376). -/
def auditTaken (role n : Nat) (ld : LD) : LD :=
  match role, ((getEng ld.1 role).run.toList ++ (getEng ld.1 role).queued).find? (fun x => decide (x.ring = n)) with
  | 1, some x => acceptStorage x ld
  | _, _ => ld

/-- The fetch acts on the descriptor where the engine takes it, and only there. -/
theorem fetchFree_iff {n : Nat} {ld : LD} : (mayFetch n ld.1 &&
    !((getEng ld.1 (ringRole ld.1 n)).run.isNone && captureWaits (ringRole ld.1 n) ld)) = true ↔ fetchFree n ld := by
  rw [fetchFree]
  cases (getEng ld.1 (ringRole ld.1 n)).run <;> simp

theorem descriptorFetch_barred {n : Nat} {ld : LD} (h : ¬ fetchFree n ld) :
    descriptorFetch n ld = engineNext (ringRole ld.1 n) ld :=
  if_neg (mt fetchFree_iff.mp h)

theorem descriptorFetch_free {n : Nat} {ld : LD} (h : fetchFree n ld) :
    descriptorFetch n ld = engineNext (ringRole ld.1 n) (auditTaken (ringRole ld.1 n) n (fetchRing parmsOf n ld)) :=
  if_pos (fetchFree_iff.mpr h)

section
variable {parms : ParmCheck} {L : Lane} {d : StorageDie} {n : Nat} {ws : List Word}

theorem fetchRing_unread (hread : (headWords n L).1 = none) :
    fetchRing parms n (L, d) = (haltAtFetch n 3 true (raise 0x03D (headWords n L).2), d) := by
  rcases hq : headWords n L with ⟨x, L1⟩
  obtain rfl : x = none := by rw [hq] at hread; exact hread
  rw [headWords] at hq
  simp only [fetchRing, hq]

/-- Where the descriptor is read, its checks follow on the lane that the read leaves. -/
theorem headWords_eq (hread : (headWords n L).1 = some ws) :
    readWords (L.n (F.RINGn_BASE_BASE n) * 512 + 32 * (L.n (F.RINGn_CI_CI n) % 2 ^ L.n (F.RINGn_CFG_LOG2SIZE n))) 8 L =
      (some ws, (headWords n L).2) := Prod.ext hread rfl

theorem fetchRing_denied (hread : (headWords n L).1 = some ws) (hctx : ctxOk (headWords n L).2 n (descOf ws).ctx = false) :
    fetchRing parms n (L, d) = (haltAtFetch n 4 (descOf ws).chain (raise 0x03F
      (ringLast n (L.n (F.RINGn_CI_CI n)) (ringRole L n) errCtx stFault (headWords n L).2)), d) := by
  simp only [fetchRing, headWords_eq hread, descOf_mk, hctx, Bool.not_false, if_true]

/-! Steps 1 to 3 pass: the descriptor is read, its context is permitted, its status word can be placed; its chain is whole. -/

variable {role pa : Nat} {T : Lane}
variable (hrole : ringRole L n = role) (hread : (headWords n L).1 = some ws)
  (hctx : ctxOk (headWords n L).2 n (descOf ws).ctx = true)
  (halign : (descOf ws).status % 16 = 0) (hrange : rangeOk (headWords n L).2 (descOf ws).ctx (descOf ws).status 16 = true)
  (htrans : translate role (descOf ws).ctx (descOf ws).status true (headWords n L).2 = (.ok pa, T))
  (hbroken : T.ring.broken.getLsbD n = false)
include hrole hread hctx halign hrange htrans hbroken

theorem fetchRing_unknown (hop : opInfo role (descOf ws).opcode (descOf ws).length = none) : fetchRing parms n (L, d) =
    if role = 6 then endAtFetch role (freshRun n L ws) 1 stRejected 0x100 (T, d)
    else endAtFetch role (freshRun n L ws) errParam stFault 0 (T, d) := by
  subst hrole
  simp only [fetchRing, headWords_eq hread, descOf_mk, hctx, halign, hrange, htrans, hbroken, hop, Bool.not_true,
    Bool.false_eq_true, ne_eq, not_true_eq_false, or_self, if_false]
  split <;> rfl

theorem fetchRing_starts {o : OpInfo} (hop : opInfo role (descOf ws).opcode (descOf ws).length = some o)
    (hres : reservedOk (descOf ws) = true) (hzero : o.lenZero = true → (descOf ws).length = 0)
    (hcount : o.counting = true → (descOf ws).length ≠ 0)
    (hsrc : rangeOk T (descOf ws).ctx (descOf ws).src o.src = true) (hdst : rangeOk T (descOf ws).ctx (descOf ws).dst o.dst = true)
    (hlen : lenOk role (descOf ws).opcode (descOf ws).length = true) (hparms : parms role (freshRun n L ws) (T, d) = none) :
    fetchRing parms n (L, d) = startRun role (freshRun n L ws) (T, d) := by
  subst hrole
  have hform : ¬ (o.lenZero && decide ((descOf ws).length ≠ 0)) = true := by simpa using hzero
  have hwork : ¬ (o.counting = true ∧ (descOf ws).length = 0) := fun h => hcount h.1 h.2
  rw [freshRun] at hparms ⊢
  simp only [fetchRing, headWords_eq hread, descOf_mk, hctx, halign, hrange, htrans, hbroken, hop, hres, hwork, hsrc, hdst, hlen,
    hparms, Bool.not_true, Bool.false_eq_true, ne_eq, not_true_eq_false, or_self, if_false]
  exact if_neg hform

end

/-- Settles O22: a free engine goes on from what the fetch leaves, and the fetch ends at the first check that fails. -/
theorem fetchChecksThenStarts : Obligations.FetchChecksThenStarts := by
  intro l s n ws o pa L role ci q d r t mine goesOn free hlive
  have hgo {ld : LD} (hfree : free) (hld : fetchRing parmsOf n.val (L, s.sto) = ld) :
      exec (.descriptorFetch l n) s = .next (goesOn ld) :=
    exec_of_onDie hlive rfl ((descriptorFetch_free (n := n.val) (ld := (L, s.sto)) hfree).trans (by rw [hld]; rfl))
  have htrans (h : t.1 = .ok pa) : t = (.ok pa, t.2) := Prod.ext h rfl
  refine ⟨?barred, ?unread, ?denied, ?unknown, ?starts⟩
  case barred => exact fun h => exec_of_onDie hlive rfl (descriptorFetch_barred h)
  case unread => exact fun hfree hread => hgo hfree (fetchRing_unread hread)
  case denied => exact fun hfree hread hctx => hgo hfree (fetchRing_denied hread hctx)
  case unknown =>
    intro hfree hread hctx halign hrange hok hbroken hop
    have hend := hgo hfree (fetchRing_unknown rfl hread hctx halign hrange (htrans hok) hbroken hop)
    refine ⟨fun h6 => ?_, fun h6 => ?_⟩
    · rwa [if_neg h6] at hend
    · rw [if_pos h6] at hend
      exact h6 ▸ hend
  case starts =>
    exact fun hfree hread hctx halign hrange hok hbroken hop hres hzero hcount hsrc hdst hlen hparms =>
      hgo hfree (fetchRing_starts rfl hread hctx halign hrange (htrans hok) hbroken hop hres hzero hcount hsrc hdst hlen hparms)

/-! COPY and FILL (R119, R135) -/

/-- `r` is no longer the running descriptor of its role's engine. -/
def runOver (role : Nat) (r : Run) (ld : LD) : Prop :=
  ∀ x, (getEng ld.1 role).run = some x → ¬ (x.ring = r.ring ∧ x.seq = r.seq)

theorem unitLoop_over {unit : Run → LD → LD} {role : Nat} {r : Run} (fuel : Nat) {ld : LD} (h : runOver role r ld) :
    unitLoop unit role r fuel ld = ld := by
  cases fuel with
  | zero => rfl
  | succ fuel =>
    rw [unitLoop]
    split
    next x hx => exact if_neg (h x hx)
    next => rfl

theorem unitLoop_once {unit : Run → LD → LD} {role : Nat} {r : Run} (fuel : Nat) {ld : LD}
    (hrun : (getEng ld.1 role).run = some r) (hover : runOver role r (unit r ld)) :
    unitLoop unit role r (fuel + 1) ld = unit r ld := by
  simp only [unitLoop, hrun, and_self, if_true]
  exact unitLoop_over fuel hover

theorem runningOp_eq_some {L : Lane} {role op : Nat} {r : Run} : runningOp L role op = some r ↔
    (getEng L role).run = some r ∧ ringRole L r.ring = role ∧ r.d.opcode = op := by
  rw [runningOp]
  cases (getEng L role).run with
  | none => simp
  | some x =>
    simp only [Option.ite_none_right_eq_some, Option.some.injEq]
    constructor
    · rintro ⟨h, rfl⟩
      exact ⟨rfl, h⟩
    · rintro ⟨rfl, h⟩
      exact ⟨h, rfl⟩

/-- A descriptor that its first unit ends is that unit. -/
theorem copyRun_once {op : Nat} {r : Run} {ld : LD} (hop : runningOp ld.1 0 op = some r) (hover : runOver 0 r (copyUnit r ld)) :
    copyRun op ld = copyUnit r ld := by
  simp only [copyRun, hop]
  exact unitLoop_once _ (runningOp_eq_some.mp hop).1 hover

/-- After a unit of `k` bytes the descriptor ends DONE with its last byte, or passes its boundary (R135). -/
def copyUnitDone (r : Run) (k : Nat) (ld : LD) : LD :=
  if r.progress + k = r.d.length then finish 0 { r with progress := r.progress + k } 0 stDone 0 ld
  else atBoundary 0 { r with progress := r.progress + k } ld

section
variable {r : Run} {ld : LD}

/-- A unit of 4096 bytes that is not the last. -/
theorem copyUnitDone_boundary (hmore : 4096 < r.d.length - r.progress) :
    copyUnitDone r 4096 ld = atBoundary 0 { r with progress := r.progress + 4096 } ld := if_neg (by omega)

/-- The one unit of a descriptor. -/
theorem copyUnitDone_whole (hstart : r.progress = 0) :
    copyUnitDone r r.d.length ld = finish 0 { r with progress := r.d.length } 0 stDone 0 ld := by
  simp [copyUnitDone, hstart]

section
variable {k : Nat} {bs : List Byte} (hk : min 4096 (r.d.length - r.progress) = k)
include hk

theorem copyUnit_copy (hop : r.d.opcode = 0x01) (hread : (iovaReadN 0 r.d.ctx (r.d.src + r.progress) k ld).1 = .ok bs)
    (halias : aliased (iovaReadN 0 r.d.ctx (r.d.src + r.progress) k ld).2.1 r.d = false)
    (hwrite : (iovaWrite 0 r.d.ctx (r.d.dst + r.progress) bs (iovaReadN 0 r.d.ctx (r.d.src + r.progress) k ld).2).1 = .ok ()) :
    copyUnit r ld = copyUnitDone r k
      (iovaWrite 0 r.d.ctx (r.d.dst + r.progress) bs (iovaReadN 0 r.d.ctx (r.d.src + r.progress) k ld).2).2 := by
  rcases hq : iovaReadN 0 r.d.ctx (r.d.src + r.progress) k ld with ⟨x, ld1⟩
  rw [hq] at hread halias hwrite
  obtain rfl : x = .ok bs := hread
  rcases hw : iovaWrite 0 r.d.ctx (r.d.dst + r.progress) bs ld1 with ⟨y, ld2⟩
  rw [hw] at hwrite
  obtain rfl : y = .ok () := hwrite
  simp [copyUnit, copyUnitDone, hop, hk, hq, halias, hw]

theorem copyUnit_unread {e : AccErr} (hop : r.d.opcode = 0x01)
    (hread : (iovaReadN 0 r.d.ctx (r.d.src + r.progress) k ld).1 = .error e) :
    copyUnit r ld = finishErr 0 r e (iovaReadN 0 r.d.ctx (r.d.src + r.progress) k ld).2 := by
  rcases hq : iovaReadN 0 r.d.ctx (r.d.src + r.progress) k ld with ⟨x, ld1⟩
  rw [hq] at hread
  obtain rfl : x = .error e := hread
  simp [copyUnit, hop, hk, hq]

theorem copyUnit_fill (hop : r.d.opcode = 0x02)
    (hbs : (List.range k).map (fun i => nth (wordBytes r.d.w4) ((r.progress + i) % 4) 0) = bs)
    (hwrite : (iovaWrite 0 r.d.ctx (r.d.dst + r.progress) bs ld).1 = .ok ()) :
    copyUnit r ld = copyUnitDone r k (iovaWrite 0 r.d.ctx (r.d.dst + r.progress) bs ld).2 := by
  rcases hw : iovaWrite 0 r.d.ctx (r.d.dst + r.progress) bs ld with ⟨y, ld2⟩
  rw [hw] at hwrite
  obtain rfl : y = .ok () := hwrite
  simp only [copyUnit, copyUnitDone, hop, hk, if_true, hbs, hw]

end

/-- A running COPY with more than a unit left does one unit at its boundary. -/
theorem descriptorBoundary_copy (hrun : (getEng ld.1 0).run = some r) (hrole : ringRole ld.1 r.ring = 0)
    (hmore : 4096 < r.d.length - r.progress) : descriptorBoundary 0 ld = copyUnit r ld := by
  simp [descriptorBoundary, boundaryUnit, hrun, hrole, hmore]

end

/-- Settles O23: the descriptor of one unit is that unit; a longer one does its first unit at its boundary. -/
theorem copyAndFillMoveTheirBytes : Obligations.CopyAndFillMoveTheirBytes := by
  intro l s r bs e L q w fin pat wf finF q1 w1 isOver hlive
  have hunit (hstart : r.progress = 0) (hlen : r.d.length ≤ 4096) : min 4096 (r.d.length - r.progress) = r.d.length := by omega
  refine ⟨?copy, ?unread, ?fill, ?boundary⟩
  case copy =>
    intro hop hstart hlen hread halias hwrite hover
    have hfin : copyUnit r (L, s.sto) = fin := by
      have h := copyUnit_copy (ld := (L, s.sto)) (bs := bs) (hunit hstart hlen) (runningOp_eq_some.mp hop).2.2
      rw [hstart] at h
      rw [h hread halias hwrite, copyUnitDone_whole hstart]
    exact exec_of_onDie hlive rfl ((copyRun_once hop (hfin ▸ hover)).trans hfin)
  case unread =>
    intro hop hstart hlen hread hover
    have hfin : copyUnit r (L, s.sto) = finishErr 0 r e q.2 := by
      have h := copyUnit_unread (ld := (L, s.sto)) (e := e) (hunit hstart hlen) (runningOp_eq_some.mp hop).2.2
      rw [hstart] at h
      exact h hread
    exact exec_of_onDie hlive rfl ((copyRun_once hop (hfin ▸ hover)).trans hfin)
  case fill =>
    intro hop hstart hlen hwrite hover
    have hfin : copyUnit r (L, s.sto) = finF := by
      have h := copyUnit_fill (ld := (L, s.sto)) (bs := pat) (hunit hstart hlen) (runningOp_eq_some.mp hop).2.2
      rw [hstart] at h
      rw [h rfl hwrite, copyUnitDone_whole hstart]
    exact exec_of_onDie hlive rfl ((copyRun_once hop (hfin ▸ hover)).trans hfin)
  case boundary =>
    intro hop hrole hmore hread halias hwrite
    obtain ⟨hrun, -, hcode⟩ := runningOp_eq_some.mp hop
    refine exec_of_onDie hlive rfl ((descriptorBoundary_copy hrun hrole hmore).trans ?_)
    rw [copyUnit_copy (min_eq_left hmore.le) hcode hread halias hwrite, copyUnitDone_boundary hmore]

/-! Final status (R123, R125, R131, R140) -/

/-- The final status word as it is written, after what the end of the descriptor shows in RINGn_LAST and raises (R452). -/
def finalWrite (role : Nat) (r : Run) (err st : Nat) (detail : Word) (ld : LD) : Bool × LD :=
  statusWrite role r err st detail (onL (fun L => cryptoEnd role r (ringLast r.ring r.seq role err st L)) ld)

/-- The ring moves on: CI advances and no descriptor is in service. -/
def ringMovesOn (n : Nat) (L : Lane) : Lane := (L.incMod (F.RINGn_CI_CI n)).setB (F.RINGn_STAT_BUSY n) false

/-- The ring moves on from a descriptor; a chain that did not end DONE is broken (R131). -/
def chainMovesOn (r : Run) (st : Nat) (L : Lane) : Lane :=
  if r.d.chain = true ∧ st ≠ stDone then setBroken r.ring true (ringMovesOn r.ring L) else ringMovesOn r.ring L

/-- What a final status that was `written`, or that could not be, leaves of the lane: an interrupt where it was asked for, or a
halt; and a halt where an abort was requested (R125, R140). -/
def statusLeaves (r : Run) (st : Nat) (written : Bool) (L : Lane) : Lane :=
  let K := chainMovesOn r st L
  let M := if written then (if r.d.irq then plicRaise (9 + r.ring) K else K)
    else ringHalt r.ring 2 (K.setB (F.RINGn_STAT_STWB_ERR r.ring) true)
  if r.abort then (ringHalt r.ring 1 M).setB (F.RINGn_CTL_ABORT r.ring) false else M

section
variable {role : Nat} {r : Run} {err st : Nat} {detail : Word} {ld : LD}

theorem cryptoEnd_signed (L : Lane) (hrole : role = 2) (hop : r.d.opcode = 3 ∨ r.d.opcode = 4) :
    cryptoEnd role r L = plicRaise 78 L := if_pos ⟨hrole, hop⟩

theorem cryptoEnd_other (L : Lane) (h : role ≠ 2 ∨ (r.d.opcode ≠ 3 ∧ r.d.opcode ≠ 4)) : cryptoEnd role r L = L :=
  if_neg (by tauto)

theorem chainMovesOn_single (L : Lane) (hchain : r.d.chain = false) : chainMovesOn r st L = ringMovesOn r.ring L := by
  simp [chainMovesOn, hchain]

theorem chainMovesOn_done (L : Lane) (hst : st = stDone) : chainMovesOn r st L = ringMovesOn r.ring L := by
  simp [chainMovesOn, hst]

theorem chainMovesOn_broken (L : Lane) (hchain : r.d.chain = true) (hst : st ≠ stDone) :
    chainMovesOn r st L = setBroken r.ring true (ringMovesOn r.ring L) := if_pos ⟨hchain, hst⟩

theorem endStatus_eq : endStatus role r err st detail ld =
    onL (statusLeaves r st (finalWrite role r err st detail ld).1) (finalWrite role r err st detail ld).2 := rfl

theorem endStatus_silent (habort : r.abort = false) (hwrite : (finalWrite role r err st detail ld).1 = true)
    (hirq : r.d.irq = false) : endStatus role r err st detail ld =
      (chainMovesOn r st (finalWrite role r err st detail ld).2.1, (finalWrite role r err st detail ld).2.2) := by
  simp [endStatus_eq, statusLeaves, onL, habort, hwrite, hirq]

theorem endStatus_irq (habort : r.abort = false) (hwrite : (finalWrite role r err st detail ld).1 = true) (hirq : r.d.irq = true) :
    endStatus role r err st detail ld = (plicRaise (9 + r.ring) (chainMovesOn r st (finalWrite role r err st detail ld).2.1),
      (finalWrite role r err st detail ld).2.2) := by
  simp [endStatus_eq, statusLeaves, onL, habort, hwrite, hirq]

theorem endStatus_aborted (habort : r.abort = true) (hwrite : (finalWrite role r err st detail ld).1 = true)
    (hirq : r.d.irq = false) : endStatus role r err st detail ld =
      ((ringHalt r.ring 1 (chainMovesOn r st (finalWrite role r err st detail ld).2.1)).setB (F.RINGn_CTL_ABORT r.ring) false,
        (finalWrite role r err st detail ld).2.2) := by
  simp [endStatus_eq, statusLeaves, onL, habort, hwrite, hirq]

theorem endStatus_unwritten (habort : r.abort = false) (hwrite : (finalWrite role r err st detail ld).1 = false) :
    endStatus role r err st detail ld = (ringHalt r.ring 2
      ((chainMovesOn r st (finalWrite role r err st detail ld).2.1).setB (F.RINGn_STAT_STWB_ERR r.ring) true),
        (finalWrite role r err st detail ld).2.2) := by
  simp [endStatus_eq, statusLeaves, onL, habort, hwrite]

end

/-- Settles O24: what the final status leaves behind is the ring moved on, with what its interrupt, its abort or its failed
write adds. -/
theorem finalStatusMovesTheRingOn : Obligations.FinalStatusMovesTheRingOn := by
  intro role r err st detail ld w L1 L2
  refine ⟨cryptoEnd_signed ld.1, cryptoEnd_other ld.1, fun habort hwrite => ⟨?single, ?singleIrq, ?broken, ?brokenIrq, ?done⟩,
    ?aborted, ?unwritten⟩
  case single =>
    intro hchain hirq
    rw [endStatus_silent habort hwrite hirq, chainMovesOn_single _ hchain]
    rfl
  case singleIrq =>
    intro hchain hirq
    rw [endStatus_irq habort hwrite hirq, chainMovesOn_single _ hchain]
    rfl
  case broken =>
    intro hchain hst hirq
    rw [endStatus_silent habort hwrite hirq, chainMovesOn_broken _ hchain hst]
    rfl
  case brokenIrq =>
    intro hchain hst hirq
    rw [endStatus_irq habort hwrite hirq, chainMovesOn_broken _ hchain hst]
    rfl
  case done =>
    intro _ hst hirq
    rw [endStatus_silent habort hwrite hirq, chainMovesOn_done _ hst]
    rfl
  case aborted =>
    intro habort hwrite hchain hirq
    rw [endStatus_aborted habort hwrite hirq, chainMovesOn_single _ hchain]
    rfl
  case unwritten =>
    intro habort hwrite hchain
    rw [endStatus_unwritten habort hwrite, chainMovesOn_single _ hchain]
    rfl

end Sys2Proof.Machine
end

section
/-! SUPPORT. Proofs of the statements about the transfers on a lane link: their checks, their receivers, the round's samples and votes. -/

namespace Sys2Proof.Machine

/-! Commands that a lane takes -/

theorem flushReq_none {L : Lane} {d : StorageDie} (h : L.tls.reqEnd = none) : flushReq (L, d) = (L, d) := by
  simp [flushReq, h]

section
variable {l : LaneId} {s : State} {c : Instr} {f : Lane → Lane} {K : Lane}

/-- A command after which an ended request completes ends in the lane that its effect makes, and in what the completion adds. -/
theorem exec_of_onLaneReq (hlive : (s.lane l).live = true) (hc : exec c s = .next (onLaneReq l f s)) (hf : f (s.lane l) = K) :
    exec c s = .next (s.withLD l (flushReq (K, s.sto))) :=
  exec_of_onDie hlive hc (by rw [onL, hf])

theorem exec_of_onLaneReq_none (hlive : (s.lane l).live = true) (hc : exec c s = .next (onLaneReq l f s))
    (hf : f (s.lane l) = K) (hend : K.tls.reqEnd = none) : exec c s = .next (s.setLane l K) := by
  rw [exec_of_onLaneReq hlive hc hf, flushReq_none hend, withLD_same_die]

theorem exec_of_whenLive_same (hlive : (s.lane l).live = true) (hc : exec c s = .next (s.onLane l (whenLive f)))
    (hf : f (s.lane l) = s.lane l) : exec c s = .next s := by
  rw [exec_of_whenLive hlive hc hf, setLane_lane_self]

end

/-! The checks of a received transfer (R155, R157, R491) -/

/-- What a good transfer of type `typ` carries on a link of a lane. -/
def XferRight (typ link : Nat) (x : Xfer) (L : Lane) : Prop :=
  xfTyp x = typ ∧ crcWords (x.hdr0 :: x.aux0 :: x.payload) = x.crc ∧ x.payload.length = bitsOf x.hdr0 7 6 + 1 ∧
    bitsOf x.hdr0 0 2 = laneNo (linkPeer L.id link) ∧
    (typ = 0 ∨ typ = 5 ∨ (voter L = false ∧ L.clv.tookNum = false) ∨ xfSeq x = L.ckpt.toNat % 65536)

section
variable {typ link : Nat} {x : Xfer} {L : Lane}

theorem checkXfer_right (harm : L.b F.PPR_CTL_ARMED = false) (h : XferRight typ link x L) :
    checkXfer typ link x L = (true, L) := by
  obtain ⟨htyp, hcrc, hcount, hpeer, hseq⟩ := h
  rcases hseq with h0 | h5 | ⟨hvote, htook⟩ | hseq
  · simp [checkXfer, pepper_unarmed _ _ _ harm, htyp, hcrc, hcount, hpeer, h0]
  · simp [checkXfer, pepper_unarmed _ _ _ harm, htyp, hcrc, hcount, hpeer, h5]
  · simp [checkXfer, pepper_unarmed _ _ _ harm, htyp, hcrc, hcount, hpeer, hvote, htook]
  · simp [checkXfer, pepper_unarmed _ _ _ harm, htyp, hcrc, hcount, hpeer, hseq]

theorem checkXfer_wrong (harm : L.b F.PPR_CTL_ARMED = false) (h : ¬ XferRight typ link x L) :
    checkXfer typ link x L = (false, discardXfer link L) := by
  simp only [checkXfer, pepper_unarmed _ _ _ harm]
  refine if_neg fun hgood => h ?_
  simpa [XferRight, and_assoc, or_assoc] using hgood

end

/-- Settles O28: with Pepper not armed no injector spoils the transfer, so that its own words decide. -/
theorem transfersAreCheckedOnArrival : Obligations.TransfersAreCheckedOnArrival := by
  intro typ link x L right harm
  exact ⟨checkXfer_right harm, checkXfer_wrong harm⟩

/-! A transfer on a link of a live lane -/

section
variable {typ link : Nat} {x : Xfer} {f bad : Lane → Lane} {L : Lane}

theorem onLink_down (h : linkIsUp L link = false) : onLink typ link x f bad L = L := by simp [onLink, h]

theorem onLink_good (h : linkIsUp L link = true) (hgood : (checkXfer typ link x L).1 = true) :
    onLink typ link x f bad L = f (checkXfer typ link x L).2 := by simp [onLink, h, hgood]

theorem onLink_bad (h : linkIsUp L link = true) (hbad : (checkXfer typ link x L).1 = false) :
    onLink typ link x f bad L = bad (checkXfer typ link x L).2 := by simp [onLink, h, hbad]

end

/-! The mailbox (R155, R165) -/

/-- The place of a MAILBOX transfer's words in the inbox of its link, in words and as an address. -/
def mbxBox (x : Xfer) : Nat := x.aux0.toNat % 4096
def mbxAddr (link : Nat) (x : Xfer) : Nat := mbxBase + 0x8000 + 0x4000 * link + 4 * mbxBox x

/-- The words that lie in the inbox, and the lane with them written. -/
def mbxWords (x : Xfer) : List Word := x.payload.take (4096 - mbxBox x)
def mbxWritten (link : Nat) (x : Xfer) (L : Lane) : Lane := (writeWords (mbxAddr link x) (mbxWords x) L).2

/-- The message that has begun to arrive on a link: its offset and its words. -/
def mbxHeld (link : Nat) (L : Lane) : Option (Nat × Nat) := if link = 0 then L.clv.mbx0 else L.clv.mbx1

/-- The message that is kept for the transfers still to come. -/
def mbxKeep (link : Nat) (m : Option (Nat × Nat)) (L : Lane) : Lane :=
  withClv (fun k => if link = 0 then { k with mbx0 := m } else { k with mbx1 := m }) L

/-- The message with this transfer. -/
def mbxMsg (link : Nat) (x : Xfer) (L : Lane) : Nat × Nat :=
  match mbxHeld link L with
  | some (o, n) => if o + n = mbxBox x then (o, n + (mbxWords x).length) else (mbxBox x, (mbxWords x).length)
  | none => (mbxBox x, (mbxWords x).length)

/-- The arrival of a whole message is recorded. -/
def mbxGot (link : Nat) (m : Nat × Nat) (L : Lane) : Lane :=
  plicRaise 52 ((((L.setB F.LLK_MBX_RX_VALID true).putN F.LLK_MBX_RX_FROM link).putN F.LLK_MBX_RX_LEN_W m.2).putN
    F.LLK_MBX_RX_OFF_W m.1)

theorem writeWords_clv_of_noEcc {a : Nat} (ws : List Word) (L : Lane) (h : memIndex a = none) :
    (writeWords a ws L).2.clv = L.clv := by
  have hparts : partWords a (wordsBytes ws).length = [] := by simp [partWords, h]
  simp [writeWords, writeBytes, hparts, eccScan]

section
variable {link : Nat} {x : Xfer} {L : Lane}

/-- The inboxes have no ECC words (R37). -/
theorem mbxAddr_noEcc (hlink : link < 2) : memIndex (mbxAddr link x) = none := by
  have hbox : mbxBox x < 4096 := Nat.mod_lt _ (by decide)
  have hlo : 0x60008000 ≤ mbxAddr link x := by rw [mbxAddr, mbxBase]; omega
  have hhi : mbxAddr link x < 0x60010000 := by rw [mbxAddr, mbxBase]; omega
  generalize mbxAddr link x = a at hlo hhi
  have hout {base size : Nat} (h : base + size ≤ 0x60008000) : inRange a base size = false :=
    (inRange_eq_false a base size).mpr (.inr (h.trans hlo))
  have hrom : ¬ a < 0x10000 := by omega
  simp [memIndex, hrom, hout, sramBase, emramBase, pBase, xBase, yBase, netBase, tlBase, lpeBase]

theorem mbxHeld_written (hlink : link < 2) : mbxHeld link (mbxWritten link x L) = mbxHeld link L := by
  simp only [mbxHeld, mbxWritten, writeWords_clv_of_noEcc _ L (mbxAddr_noEcc hlink)]

theorem mbxMsg_first (h : mbxHeld link L = none) : mbxMsg link x L = (mbxBox x, (mbxWords x).length) := by simp [mbxMsg, h]

theorem mbxMsg_next {o n : Nat} (h : mbxHeld link L = some (o, n)) (hnext : o + n = mbxBox x) :
    mbxMsg link x L = (o, n + (mbxWords x).length) := by simp [mbxMsg, h, hnext]

theorem mailboxIn_part (hlast : xfLast x = false) :
    mailboxIn link x L = mbxKeep link (some (mbxMsg link x L)) (mbxWritten link x L) :=
  if_neg (Bool.eq_false_iff.mp hlast)

/-- The last transfer of a message; a message that software has not taken yet is overrun. -/
theorem mailboxIn_last (hlast : xfLast x = true) :
    mailboxIn link x L = mbxGot link (mbxMsg link x L) (mbxKeep link none
      (if (mbxWritten link x L).b F.LLK_MBX_RX_VALID then (mbxWritten link x L).setB F.LLK_MBX_RX_OVR true
       else mbxWritten link x L)) := if_pos hlast

theorem mailboxIn_whole (hlast : xfLast x = true) (hfree : (mbxWritten link x L).b F.LLK_MBX_RX_VALID = false) :
    mailboxIn link x L = mbxGot link (mbxMsg link x L) (mbxKeep link none (mbxWritten link x L)) := by
  rw [mailboxIn_last hlast, if_neg (Bool.eq_false_iff.mp hfree)]

theorem mailboxIn_overrun (hlast : xfLast x = true) (hvalid : (mbxWritten link x L).b F.LLK_MBX_RX_VALID = true) :
    mailboxIn link x L = mbxGot link (mbxMsg link x L)
      (mbxKeep link none ((mbxWritten link x L).setB F.LLK_MBX_RX_OVR true)) := by
  rw [mailboxIn_last hlast, if_pos hvalid]

end

/-- Settles O29: a good transfer is handed to its receiver with the lane that its checks leave; a message's place in the inbox is
that of its first transfer, since the inboxes have no ECC words whose read could raise a source. -/
theorem transfersReachTheirReceivers : Obligations.TransfersReachTheirReceivers := by
  intro l s link x stamp o n L c box ws M keep got hlive
  have hmailbox {K : Lane} (hup : linkIsUp L link.val = true) (hgood : (c 5).1 = true) (hK : mailboxIn link.val x (c 5).2 = K) :
      exec (.mailboxTransfer l link x) s = .next (s.setLane l K) :=
    exec_of_whenLive hlive rfl ((onLink_good hup hgood).trans hK)
  have hheld : mbxHeld link.val M = mbxHeld link.val (c 5).2 := mbxHeld_written link.isLt
  refine ⟨fun hdown => ?_, fun hup hgood => ?_, fun hup hbad => ?_, fun hup hgood => ?_, fun hup hgood hstate => ?_,
    fun hup hgood hnone => ?_, fun hup hgood hsome hnext => ?_, fun hup hgood => ?_⟩
  · exact exec_of_whenLive_same hlive rfl (onLink_down hdown)
  · exact exec_of_whenLive hlive rfl (onLink_good hup hgood)
  · exact exec_of_whenLive hlive rfl (onLink_bad hup hbad)
  · exact exec_of_whenLive hlive rfl (onLink_good hup hgood)
  · exact exec_of_whenLive hlive rfl ((onLink_good hup hgood).trans (if_pos hstate))
  · have hmsg : mbxMsg link.val x (c 5).2 = (box, ws.length) := mbxMsg_first (hheld.symm.trans hnone)
    refine ⟨fun hlast => hmailbox hup hgood ?_, fun hlast hvalid => hmailbox hup hgood ?_,
      fun hlast hvalid => hmailbox hup hgood ?_⟩
    · rw [mailboxIn_part hlast, hmsg]; rfl
    · rw [mailboxIn_whole hlast hvalid, hmsg]; rfl
    · rw [mailboxIn_overrun hlast hvalid, hmsg]; rfl
  · have hmsg : mbxMsg link.val x (c 5).2 = (o, n + ws.length) := mbxMsg_next (hheld.symm.trans hsome) hnext
    refine ⟨fun hlast => hmailbox hup hgood ?_, fun hlast hvalid => hmailbox hup hgood ?_⟩
    · rw [mailboxIn_part hlast, hmsg]; rfl
    · rw [mailboxIn_whole hlast hvalid, hmsg]; rfl
  · exact exec_of_whenLive hlive rfl (onLink_good hup hgood)

/-! The round's samples, votes and deadlines (R145 to R153) -/

section
variable {link : Nat} {x : Xfer} {L : Lane}

@[simp] theorem putRxV_tls (v : RxVote) : (putRxV link v L).tls = L.tls := rfl

theorem putRxV_prov (v : RxVote) : (putRxV link v L).clv.prov = L.clv.prov := by
  simp only [putRxV, withClv]
  split <;> rfl

/-- A vote that arrives before the provisional vector is formed is kept for the vote (R153). -/
theorem voteIn_kept (hround : (hear true link L).clv.round = true) (hvote : (hear true link L).clv.voteDone = false)
    (hdone : (rxV (hear true link L) link).done = false) (hprov : (hear true link L).clv.prov = none) :
    voteIn link x L = putRxV link ⟨x.payload, decide (x.payload.length = nVote (hear true link L)), x.aux0, x.aux1,
      BitVec.ofNat 4 (xfFlags x)⟩ (hear true link L) := by
  simp [voteIn, hround, hvote, hdone, putRxV_prov, hprov]

theorem sampleDeadline_waiting (hround : L.clv.round = true) (hprov : L.clv.prov = none) : sampleDeadline L =
    provStep ((otherMembers L).foldl (fun a m => if (rxS a (linkOf a m)).done then a
      else raise 0x06E (a.inc F.CLV_ERR_DROP_CNT)) L) := if_pos ⟨hround, hprov⟩

theorem sampleDeadline_closed (hround : L.clv.round = false) : sampleDeadline L = L := by simp [sampleDeadline, hround]

theorem voteStep_closed (hround : L.clv.round = false) : voteStep L = L := by simp [voteStep, hround]

end

/-- Settles O30: each receipt and each deadline is the effect of its step on the lane; what it ends of a mode request completes. -/
theorem roundsCollectSamplesAndVotes : Obligations.RoundsCollectSamplesAndVotes := by
  intro l s link x L c1 c2 V hlive
  refine ⟨fun hup hgood => ?_, fun hup hgood hround hvote hdone hprov hend => ?_, fun hround hprov => ?_,
    fun _ _ _ => ?_, fun hround hend => ⟨?_, ?_⟩⟩
  · exact exec_of_onLaneReq hlive rfl (onLink_good hup hgood)
  · exact exec_of_onLaneReq_none hlive rfl ((onLink_good hup hgood).trans (voteIn_kept hround hvote hdone hprov)) hend
  · exact exec_of_onLaneReq hlive rfl (sampleDeadline_waiting hround hprov)
  · exact exec_of_onLaneReq hlive rfl rfl
  · exact (exec_of_onLaneReq_none hlive rfl (sampleDeadline_closed hround) hend).trans (congrArg _ (setLane_lane_self s l))
  · exact (exec_of_onLaneReq_none hlive rfl (voteStep_closed hround) hend).trans (congrArg _ (setLane_lane_self s l))

end Sys2Proof.Machine
end

section
/-! SUPPORT. Proof of the statement about release, formation and re-integration: first what Pepper's injectors leave of a lane's fields, since
the second link's TIME transfer goes out after they have met the first. -/

namespace Sys2Proof.Machine

/-! What Pepper's injectors leave: a field at or below PPR_CTL.ARMED. An armed lane lists ARMED, so that an injector's entry that
goes lies beyond it and hides nothing before it. -/

theorem smFind_erase_below {α : Type} {m : List (Nat × α)} {j a k : Nat} (ha : smFind m a ≠ none) (hja : j ≤ a) (hak : a < k) :
    smFind (smErase m k) j = smFind m j := by
  induction m with
  | nil => rfl
  | cons c r ih =>
    obtain ⟨i, v⟩ := c
    have hia : i ≤ a := by
      by_contra hlt
      exact ha (by simp [smFind, Nat.ne_of_gt (Nat.lt_of_not_le hlt), Nat.lt_of_not_le hlt])
    have hik : i ≠ k := by omega
    have hki : ¬ k < i := by omega
    simp only [smErase, hik, hki, if_false, smFind]
    by_cases hij : i = j
    · simp [hij]
    by_cases hji : j < i
    · simp [hij, hji]
    have hne : i ≠ a := by omega
    have har : smFind r a ≠ none := by simpa [smFind, hne, Nat.not_lt.mpr hia] using ha
    simp [hij, hji, ih har]

/-- `K` holds the fields up to PPR_CTL.ARMED as `L` does. -/
def SameToArmed (L K : Lane) : Prop := ∀ j, j ≤ F.PPR_CTL_ARMED.key → smFind K.regs j = smFind L.regs j

theorem sameToArmed_refl (L : Lane) : SameToArmed L L := fun _ _ => rfl

theorem SameToArmed.trans {L K M : Lane} (h : SameToArmed L K) (k : SameToArmed K M) : SameToArmed L M :=
  fun j hj => (k j hj).trans (h j hj)

theorem SameToArmed.fld {L K : Lane} (h : SameToArmed L K) {f : Fld} (hf : f.key ≤ F.PPR_CTL_ARMED.key) : K.fld f = L.fld f := by
  rw [Lane.fld, smGet, h f.key hf]
  rfl

theorem SameToArmed.b {L K : Lane} (h : SameToArmed L K) {f : Fld} (hf : f.key ≤ F.PPR_CTL_ARMED.key) : K.b f = L.b f := by
  rw [Lane.b, h.fld hf]
  rfl

theorem SameToArmed.armed {L K : Lane} (h : SameToArmed L K) (harm : L.b F.PPR_CTL_ARMED = true) :
    K.b F.PPR_CTL_ARMED = true := (h.b le_rfl).trans harm

theorem armed_listed {L : Lane} (harm : L.b F.PPR_CTL_ARMED = true) : smFind L.regs F.PPR_CTL_ARMED.key ≠ none := by
  intro hnone
  have hfld : L.fld F.PPR_CTL_ARMED = 0 := by rw [Lane.fld, smGet, hnone]; rfl
  simp [Lane.b, hfld] at harm

theorem sameToArmed_put {L : Lane} (harm : L.b F.PPR_CTL_ARMED = true) {f : Fld} (v : Word) (hf : F.PPR_CTL_ARMED.key < f.key) :
    SameToArmed L (L.put f v) := by
  intro j hj
  simp only [Lane.put, smPut]
  split
  · exact smFind_erase_below (armed_listed harm) hj hf
  · rw [smFind_set, if_neg (by omega)]

theorem ppr_keys_beyond_armed (i : Nat) : F.PPR_CTL_ARMED.key < (F.PPR_INJi_CNT_CNT i).key ∧
    F.PPR_CTL_ARMED.key < F.PPR_STAT_ACT_CNT.key ∧ F.PPR_CTL_ARMED.key < (F.PPR_INJi_CFG_EN i).key := by
  simp only [Fld.key, F.PPR_CTL_ARMED, F.PPR_INJi_CNT_CNT, F.PPR_STAT_ACT_CNT, F.PPR_INJi_CFG_EN]
  omega

theorem sameToArmed_pprActed {L : Lane} (harm : L.b F.PPR_CTL_ARMED = true) (i : Nat) : SameToArmed L (pprActed i L) := by
  obtain ⟨hcnt, hact, hen⟩ := ppr_keys_beyond_armed i
  have h1 : SameToArmed L (L.inc (F.PPR_INJi_CNT_CNT i)) := sameToArmed_put harm _ hcnt
  have h2 : SameToArmed L ((L.inc (F.PPR_INJi_CNT_CNT i)).inc F.PPR_STAT_ACT_CNT) := h1.trans (sameToArmed_put (h1.armed harm) _ hact)
  intro j hj
  rw [pprActed, plicRaise_regs]
  split
  · exact (h2.trans (sameToArmed_put (h2.armed harm) _ hen)) j hj
  · exact h2 j hj

theorem sameToArmed_pprMeets {L : Lane} (harm : L.b F.PPR_CTL_ARMED = true) (i : Nat) : SameToArmed L (pprMeets i L).2 := by
  have hacts {p : PprSt} : SameToArmed L (pprActed i { L with ppr := p }) :=
    sameToArmed_pprActed (L := { L with ppr := p }) harm i
  unfold pprMeets
  split
  · exact hacts
  · dsimp only
    split
    · exact hacts
    · exact sameToArmed_refl L
  · dsimp only
    split
    · exact hacts
    · exact sameToArmed_refl L
  · exact hacts

/-- One injector meets an eligible event of a kind and target. -/
def pepperStep (kind target : Nat) (ok : Word → Bool) (r : Option Word × Lane) (i : Nat) : Option Word × Lane :=
  if r.2.b (F.PPR_INJi_CFG_EN i) && decide (r.2.n (F.PPR_INJi_CFG_KIND i) = kind) &&
      decide (r.2.n (F.PPR_INJi_CFG_TARGET i) = target) && ok (r.2.fld (F.PPR_INJi_PARAM_PARAM i)) then
    (if (pprMeets i r.2).1 then (match r.1 with | some q => some q | none => some (r.2.fld (F.PPR_INJi_PARAM_PARAM i))) else r.1,
      (pprMeets i r.2).2)
  else r

theorem pepper_armed (kind target : Nat) (ok : Word → Bool) {L : Lane} (harm : L.b F.PPR_CTL_ARMED = true) :
    pepper kind target ok L = (List.range 8).foldl (pepperStep kind target ok) (none, L) := if_pos harm

theorem pepperStep_lane (kind target : Nat) (ok : Word → Bool) (r : Option Word × Lane) (i : Nat) :
    (pepperStep kind target ok r i).2 = r.2 ∨ (pepperStep kind target ok r i).2 = (pprMeets i r.2).2 := by
  unfold pepperStep
  split
  · exact .inr rfl
  · exact .inl rfl

theorem sameToArmed_pepperSteps (kind target : Nat) (ok : Word → Bool) (is : List Nat) (r : Option Word × Lane)
    (harm : r.2.b F.PPR_CTL_ARMED = true) : SameToArmed r.2 (is.foldl (pepperStep kind target ok) r).2 := by
  induction is generalizing r with
  | nil => exact sameToArmed_refl r.2
  | cons i is ih =>
    have hstep : SameToArmed r.2 (pepperStep kind target ok r i).2 := by
      rcases pepperStep_lane kind target ok r i with h | h <;> rw [h]
      · exact sameToArmed_refl r.2
      · exact sameToArmed_pprMeets harm i
    exact hstep.trans (ih _ (hstep.armed harm))

theorem sameToArmed_pepper (kind target : Nat) (ok : Word → Bool) (L : Lane) : SameToArmed L (pepper kind target ok L).2 := by
  cases harm : L.b F.PPR_CTL_ARMED with
  | false => rw [pepper_unarmed kind target ok harm]; exact sameToArmed_refl L
  | true => rw [pepper_armed kind target ok harm]; exact sameToArmed_pepperSteps kind target ok _ _ harm

theorem sameToArmed_launch (link n : Nat) (L : Lane) : SameToArmed L (launch link n L) := by
  unfold launch
  split
  · exact List.foldlRecOn (motive := SameToArmed L) _ _ (sameToArmed_refl L) fun a ha _ _ => ha.trans (sameToArmed_pepper _ _ _ a)
  · exact sameToArmed_refl L

theorem linkIsUp_launch {link : Nat} (hlink : link < 2) (k n : Nat) (L : Lane) : linkIsUp (launch k n L) link = linkIsUp L link := by
  refine (sameToArmed_launch k n L).b ?_
  simp only [Fld.key, F.PPR_CTL_ARMED, F.LLK_LINKl_STAT_UP]
  omega

/-! The time exchange of a cycle (R336) -/

/-- The TIME transfer of a cycle goes out on a link. -/
def timeSent (link : Nat) (t : Int) (A : Lane) : Lane :=
  launch link 1 (setPeer link (fun p => { p with sPrev := p.sLast, sLast := at8 t, sent := true }) A)

/-- The TIME transfer of a cycle goes out on a link that is up, once. -/
def timeOut (link : Nat) (t : Int) (A : Lane) : Lane :=
  if linkIsUp A link && !(peerOf A link).sent then timeSent link t A else A

section
variable {link : Nat} {t : Int} {A : Lane}

theorem timeSend_eq : timeSend t A = timeOut 1 t (timeOut 0 t A) := rfl

theorem timeOut_goes (hup : linkIsUp A link = true) (hsent : (peerOf A link).sent = false) : timeOut link t A = timeSent link t A := by
  simp [timeOut, hup, hsent]

theorem timeOut_stays (h : linkIsUp A link = true → (peerOf A link).sent = true) : timeOut link t A = A := by
  refine if_neg fun hgo => ?_
  obtain ⟨hup, hsent⟩ := Bool.and_eq_true_iff.mp hgo
  simp [h hup] at hsent

theorem linkIsUp_timeSent {k : Nat} (hk : k < 2) : linkIsUp (timeSent link t A) k = linkIsUp A k := linkIsUp_launch hk _ _ _

theorem timeSend_none (h : ∀ k, k < 2 → linkIsUp A k = true → (peerOf A k).sent = true) : timeSend t A = A := by
  rw [timeSend_eq, timeOut_stays (h 0 (by decide)), timeOut_stays (h 1 (by decide))]

theorem timeSend_next (hup : linkIsUp A 0 = true) (hsent : (peerOf A 0).sent = false) (hdown : linkIsUp A 1 = false) :
    timeSend t A = timeSent 0 t A := by
  rw [timeSend_eq, timeOut_goes hup hsent, timeOut_stays]
  simp [linkIsUp_timeSent, hdown]

end

/-! The release of the voted vector (R146) -/

/-- The words that a round releases: a word without a voted value keeps the previous one. -/
def releasedWords (L : Lane) : List Word := (List.range (nVote L)).map (fun i =>
  ((if L.clv.voteDone then nth L.clv.voted i none else none).getD (nth L.clv.lastVoted i 0)))

/-- The released words are written and forwarded to their destinations. -/
def releaseWith (words : List Word) (L : Lane) : Lane :=
  cdspIrq 0 (withNte (fun n => { n with rel := true, relSeen := [] }) ((List.range (nVote L)).foldl
    (fun a j => voteDeliver j (nth words j 0) a) (withClv (fun c => { c with released := true, lastVoted := words })
      (writeWords (votedOff L) words (if L.clv.late || !L.clv.voteDone then raise 0x06A (L.inc F.CLV_ERR_LATE_CNT) else L)).2)))

section
variable {L : Lane}

theorem releaseVoted_open (hround : L.clv.round = true) (hrel : L.clv.released = false) :
    releaseVoted L = releaseWith (releasedWords L) L := by
  refine (if_neg (by simp [hround, hrel])).trans (congrArg (releaseWith · L) (List.map_congr_left fun i _ => ?_))
  cases (if L.clv.voteDone then nth L.clv.voted i none else none) <;> rfl

theorem voteRel_open (hround : L.clv.round = true) (hrel : L.clv.released = false) : voteRel L =
    timeSend (ntNow (checkpointRecord (drain (releaseVoted L)))) (checkpointRecord (drain (releaseVoted L))) := by
  simp [voteRel, hround, hrel]

theorem voteRel_closed (h : L.clv.round = false ∨ L.clv.released = true) : voteRel L = L := by
  rcases h with h | h <;> simp [voteRel, h]

theorem reintBist_passed (hstate : L.n F.CLV_STAT_REINT_STATE = 1) (hdone : ∀ r, r < L.n F.BSC_STAT_NSLICE → r ∈ L.bsc.done) :
    reintBist L = withClv (fun c => { c with reintReady := true, reintAge := 0, rxC0 := default, rxC1 := default })
      (L.putN F.CLV_STAT_REINT_STATE 2) := by
  refine if_pos ⟨hstate, List.all_eq_true.mpr fun r hr => ?_⟩
  exact List.contains_iff_mem.mpr (hdone r (List.mem_range.mp hr))

end

/-- Settles O31: each command is the effect of its step on the lane. The exchange on the second link finds that link as it was:
Pepper's injectors, which meet the transfer sent on the first, change no field of a link (`linkIsUp_launch`). -/
theorem releaseFormationAndReintegration : Obligations.ReleaseFormationAndReintegration := by
  intro l peer s val L M words hlive
  refine ⟨fun hround hrel => ?_, fun hclosed => ?_, fun A t => timeSend_none, fun A t => timeSend_next,
    fun hform => ?_, fun hform => ?_, releaseVoted_open, fun hbit => ?_, fun hbit => ?_, fun hstate hdone => ?_, fun hpeer => ?_⟩
  · exact exec_of_onDie hlive rfl (by rw [onL, voteRel_open hround hrel])
  · exact exec_of_onDie hlive rfl (by rw [onL, voteRel_closed hclosed])
  · exact exec_of_whenLive hlive rfl (if_pos hform)
  · exact exec_of_whenLive_same hlive rfl (if_neg (Bool.eq_false_iff.mp hform))
  · exact exec_of_whenLive hlive rfl (if_pos hbit)
  · exact exec_of_whenLive_same hlive rfl (if_neg (Bool.eq_false_iff.mp hbit))
  · exact exec_of_whenLive hlive rfl (reintBist_passed hstate hdone)
  · exact exec_of_whenLive hlive rfl (if_neg hpeer)

end Sys2Proof.Machine
end

section
/-! SUPPORT. Proof of the statement about lane links and mailbox messages. -/

namespace Sys2Proof.Machine

/-! A link goes down (R157) -/

/-- A link that was up is shown down, with source 0x06C and PLIC source 53. -/
def linkDowned (link : Nat) (L : Lane) : Lane :=
  plicRaise 53 (raise 0x06C (putQuiet link 0 (L.setB (F.LLK_LINKl_STAT_UP link) false)))

section
variable {l : LaneId} {s : State} {link : Fin 2} {L : Lane}

theorem linkDrop_noMembers (hup : linkIsUp L link.val = true) (hnone : otherMembers (linkDowned link.val L) = []) :
    linkDrop link.val L = linkDowned link.val L := by
  rw [linkDowned] at hnone
  simp only [linkDrop, hup, if_true, hnone]
  rfl

/-- A second effect on the lane and the die that a first one leaves. -/
theorem onDie_withLD (f : LD → LD) (ld : LD) : onDie l f (s.withLD l ld) = s.withLD l (if ld.1.live then f ld else ld) := by
  simp only [onDie, State.onLaneDie, lane_withLD_same]
  split <;> cases l <;> rfl

theorem onLaneReq_live {f : Lane → Lane} (hlive : (s.lane l).live = true) :
    onLaneReq l f s = s.withLD l (flushReq (f (s.lane l), s.sto)) := by
  rw [onLaneReq, onDie_live l _ s hlive]
  rfl

theorem exec_blockLockLoss (hlive : (s.lane l).live = true) : exec (.blockLockLoss l link) s = .next (s.withLD l
    (let d := flushReq (linkDrop link.val (s.lane l), s.sto)
     if d.1.live then mbLost d else d)) := by
  have hexec : exec (.blockLockLoss l link) s = .next (onDie l mbLost (onLaneReq l (linkDrop link.val) s)) := rfl
  rw [hexec, onLaneReq_live hlive, onDie_withLD]

theorem exec_linkDown (hlive : (s.lane l).live = true) : exec (.linkDown l link) s = .next (onDie l mbLost
    (s.withLD l (flushReq (if 4 ≤ quietOf (s.lane l) link.val then linkDrop link.val (s.lane l) else s.lane l, s.sto)))) :=
  congrArg (fun t => Host.Outcome.next (onDie l mbLost t)) (onLaneReq_live hlive)

theorem exec_linkDown_quiet (hlive : (s.lane l).live = true) (hquiet : 4 ≤ quietOf (s.lane l) link.val) :
    exec (.linkDown l link) s = exec (.blockLockLoss l link) s := by
  rw [exec_linkDown hlive, if_pos hquiet, exec_blockLockLoss hlive, onDie_withLD]

theorem exec_linkDown_early (hlive : (s.lane l).live = true) (hquiet : quietOf (s.lane l) link.val < 4)
    (hend : (s.lane l).tls.reqEnd = none) (hlost : mbLost (s.lane l, s.sto) = (s.lane l, s.sto)) :
    exec (.linkDown l link) s = .next s := by
  rw [exec_linkDown hlive, if_neg hquiet.not_ge, flushReq_none hend, onDie_withLD, hlost, ite_self, withLD_same_die, setLane_lane_self]

/-! Link training (R158) -/

/-- The link has come up with its peer's digest. -/
def linkTrained (link : Nat) (t : TrainInfo) (L : Lane) : Lane :=
  plicRaise 53 (putQuiet link 0 (withClv (fun c =>
    if link = 0 then { c with dig0 := t.digest, digDiff0 := false, train0 := 0 }
    else { c with dig1 := t.digest, digDiff1 := false, train1 := 0 })
    ((((L.inc (F.LLK_LINKl_STAT_TRAIN_CNT link)).setB (F.LLK_LINKl_STAT_UP link) true).setB
      (F.LLK_LINKl_STAT_TRAINED link) true).putN (F.LLK_LINKl_STAT_PEER link) (laneNo (linkPeer L.id link)))))

/-- An attempt that ends outside substate 0x3 leaves the link as its result makes it: nothing is given up. -/
theorem linkTraining_comesUp {k : Nat} {t : TrainInfo} (hdown : linkIsUp L k = false) (hmay : mayTrain L = true)
    (hpeer : t.letter = linkPeer L.id k) (hsub : substate (linkTrained k t L) ≠ 3) :
    linkTraining k (some t) L = linkTrained k t L := by
  rw [linkTrained] at hsub ⊢
  simp only [linkTraining, hdown, hmay, hpeer, if_true, hsub, ne_eq, not_false_eq_true, decide_true, Bool.or_true, decide_false,
    Bool.false_and, Bool.not_true, Bool.or_self, Bool.false_eq_true, if_false]

theorem linkTraining_fails {k : Nat} (hdown : linkIsUp L k = false) (hmay : mayTrain L = true)
    (hsub : substate (L.inc (F.LLK_LINKl_STAT_TRAIN_CNT k)) ≠ 3) :
    linkTraining k none L = L.inc (F.LLK_LINKl_STAT_TRAIN_CNT k) := by
  simp [linkTraining, hdown, hmay, hsub]

end

/-! Messages (R165) -/

section
variable {r : Run} {ld : LD}

theorem mbSend_sent {bs : List Byte} (hop : runningOp ld.1 3 0x01 = some r) (hwait : r.aux ≠ 1)
    (hup : linkIsUp ld.1 (mbLink r) = true) (hread : (iovaReadN 3 r.d.ctx r.d.src r.d.length ld).1 = .ok bs) :
    mbSend ld = onL (fun L => setEng 3 { getEng L 3 with run := some { r with aux := 1 } }
      (launch (mbLink r) (xfers (r.d.length / 4)) L)) (iovaReadN 3 r.d.ctx r.d.src r.d.length ld).2 := by
  obtain ⟨ld1, hpair⟩ : ∃ ld1, iovaReadN 3 r.d.ctx r.d.src r.d.length ld = (.ok bs, ld1) := ⟨_, Prod.ext hread rfl⟩
  simp [mbSend, hop, hwait, hup, hpair]

theorem mbSend_down (hop : runningOp ld.1 3 0x01 = some r) (hwait : r.aux ≠ 1) (hdown : linkIsUp ld.1 (mbLink r) = false) :
    mbSend ld = mbFault (finish 3 r errLink stFault 0 ld) := by
  simp [mbSend, hop, hwait, hdown]

theorem mbAcked_done (hop : runningOp ld.1 3 0x01 = some r) (hsent : r.aux = 1) :
    mbAcked ld = finish 3 { r with progress := r.d.length } 0 stDone 0 ld := by
  simp [mbAcked, hop, hsent]

end

/-- Settles O32: a link that drops is taken with what it ends of a mode request, and then with the message on its way. -/
theorem linksAndMessages : Obligations.LinksAndMessages := by
  intro l s link t r bs L q D up hlive
  refine ⟨fun _ => exec_blockLockLoss hlive, fun _ hquiet => exec_linkDown_quiet hlive hquiet,
    fun _ hquiet hend hlost => exec_linkDown_early hlive hquiet hend hlost, linkDrop_noMembers,
    fun hdown hmay hpeer hsub => ?_, fun hdown hmay hsub => ?_, fun hop hwait hup hread => ?_, fun hop hwait hdown => ?_,
    fun hop hsent => ?_⟩
  · exact exec_of_whenLive hlive rfl (linkTraining_comesUp hdown hmay hpeer hsub)
  · exact exec_of_whenLive hlive rfl (linkTraining_fails hdown hmay hsub)
  · exact exec_of_onDie hlive rfl (mbSend_sent hop hwait hup hread)
  · exact exec_of_onDie hlive rfl (mbSend_down hop hwait hdown)
  · exact exec_of_onDie hlive rfl (mbAcked_done hop hsent)

end Sys2Proof.Machine
end

section
/-! SUPPORT. Proof of the statement about raising a fault source: what a reaction and everything that follows from it leave alone. -/

namespace Sys2Proof.Machine

/-! What a reaction leaves alone -/

/-- Memory outside the loop engine's is as before. -/
def MemKept (L K : Lane) : Prop :=
  smSorted L.mem = true → smSorted K.mem = true ∧ ∀ a, (a < lpeBase ∨ lpeBase + 0x10000 ≤ a) → K.rdB a = L.rdB a

/-- The parts of a lane that raising a source does not touch. -/
def keptPart (L : Lane) : RingSt × NteSt × Nat × PwrSt × OtpSt × LaneId × CgwSt :=
  (L.ring, L.nte, L.time, L.pwr, L.otp, L.id, L.cgw)

/-- `K` is `L` but for what raising a source may change. -/
structure Kept (L K : Lane) : Prop where
  part : keptPart K = keptPart L
  mem : MemKept L K

/-- `K` is `L` but for what a reaction may change: it does not count. -/
structure Reacts (L K : Lane) : Prop extends Kept L K where
  cnt : K.lsm.cnt = L.lsm.cnt

theorem memKept_of_eq {L K : Lane} (h : K.mem = L.mem) : MemKept L K :=
  fun hs => ⟨h ▸ hs, fun a _ => by rw [Lane.rdB, h]; rfl⟩

theorem MemKept.trans {L K M : Lane} (h : MemKept L K) (k : MemKept K M) : MemKept L M := fun hs =>
  ⟨(k (h hs).1).1, fun a ha => ((k (h hs).1).2 a ha).trans ((h hs).2 a ha)⟩

theorem kept_of_eq {L K : Lane} (h : keptPart K = keptPart L) (hm : K.mem = L.mem) : Kept L K := ⟨h, memKept_of_eq hm⟩

theorem kept_refl (L : Lane) : Kept L L := kept_of_eq rfl rfl

theorem Kept.trans {L K M : Lane} (h : Kept L K) (k : Kept K M) : Kept L M := ⟨k.part.trans h.part, h.mem.trans k.mem⟩

/-- An update of parts that a reaction may change. -/
theorem reacts_of_eq {L K : Lane} (h : keptPart K = keptPart L) (hm : K.mem = L.mem) (hc : K.lsm.cnt = L.lsm.cnt) : Reacts L K :=
  ⟨kept_of_eq h hm, hc⟩

theorem reacts_refl (L : Lane) : Reacts L L := reacts_of_eq rfl rfl rfl

theorem Reacts.trans {L K M : Lane} (h : Reacts L K) (k : Reacts K M) : Reacts L M :=
  ⟨h.toKept.trans k.toKept, k.cnt.trans h.cnt⟩

/-- Either branch of a test: `h` where it fails, `k` where it holds. -/
theorem Reacts.ite {L A B : Lane} (p : Prop) [Decidable p] (h : Reacts L A) (k : Reacts L B) : Reacts L (if p then B else A) := by
  split
  · exact k
  · exact h

theorem Kept.ite {L A B : Lane} (p : Prop) [Decidable p] (h : Kept L A) (k : Kept L B) : Kept L (if p then B else A) := by
  split
  · exact k
  · exact h

theorem reacts_foldl {α : Type} {f : Lane → α → Lane} {xs : List α} (hf : ∀ a, ∀ x ∈ xs, Reacts a (f a x)) (L : Lane) :
    Reacts L (xs.foldl f L) := by
  induction xs generalizing L with
  | nil => exact reacts_refl L
  | cons x xs ih =>
    obtain ⟨hx, hxs⟩ : (∀ a, Reacts a (f a x)) ∧ ∀ a, ∀ y ∈ xs, Reacts a (f a y) :=
      ⟨fun a => hf a x List.mem_cons_self, fun a y hy => hf a y (List.mem_cons_of_mem x hy)⟩
    exact (hx L).trans (ih hxs _)

theorem kept_foldl {α : Type} {f : Lane → α → Lane} (hf : ∀ a x, Kept a (f a x)) (xs : List α) (L : Lane) :
    Kept L (xs.foldl f L) := by
  induction xs generalizing L with
  | nil => exact kept_refl L
  | cons x xs ih => exact (hf L x).trans (ih _)

theorem reacts_put (L : Lane) (f : Fld) (v : Word) : Reacts L (L.put f v) := reacts_of_eq rfl rfl rfl

theorem reacts_plicRaise (n : Nat) (L : Lane) : Reacts L (plicRaise n L) := by
  unfold plicRaise
  split
  · exact reacts_of_eq rfl rfl rfl
  · exact reacts_of_eq rfl rfl rfl

/-! Reads of LPE memory, as injectors meet them (R39, R431) -/

theorem reacts_pprActed (i : Nat) (L : Lane) : Reacts L (pprActed i L) := by
  have hcounts : Reacts L ((L.inc (F.PPR_INJi_CNT_CNT i)).inc F.PPR_STAT_ACT_CNT) := (reacts_put L _ _).trans (reacts_put _ _ _)
  unfold pprActed
  exact (hcounts.ite _ (hcounts.trans (reacts_put _ _ _))).trans (reacts_plicRaise 81 _)

theorem reacts_pprMeets (i : Nat) (L : Lane) : Reacts L (pprMeets i L).2 := by
  have hmeets (p : PprSt) : Reacts L { L with ppr := p } := reacts_of_eq rfl rfl rfl
  have hacts (p : PprSt) : Reacts L (pprActed i { L with ppr := p }) := (hmeets p).trans (reacts_pprActed i _)
  unfold pprMeets
  split
  · exact hacts _
  · dsimp only
    split
    · exact hacts _
    · exact hmeets _
  · dsimp only
    split
    · exact hacts _
    · exact hmeets _
  · exact hacts _

theorem reacts_pepperSteps (kind target : Nat) (ok : Word → Bool) (is : List Nat) (r : Option Word × Lane) :
    Reacts r.2 (is.foldl (pepperStep kind target ok) r).2 := by
  induction is generalizing r with
  | nil => exact reacts_refl r.2
  | cons i is ih =>
    have hstep : Reacts r.2 (pepperStep kind target ok r i).2 := by
      rcases pepperStep_lane kind target ok r i with h | h <;> rw [h]
      · exact reacts_refl r.2
      · exact reacts_pprMeets i r.2
    exact hstep.trans (ih _)

theorem reacts_pepper (kind target : Nat) (ok : Word → Bool) (L : Lane) : Reacts L (pepper kind target ok L).2 := by
  cases harm : L.b F.PPR_CTL_ARMED with
  | false => rw [pepper_unarmed kind target ok harm]; exact reacts_refl L
  | true => rw [pepper_armed kind target ok harm]; exact reacts_pepperSteps kind target ok _ (none, L)

theorem reacts_eccLook (m a : Nat) (L : Lane) : Reacts L (eccLook m a L).2 := by
  have hinject : Reacts L (eccInject m a L).2 := reacts_pepper _ _ _ L
  exact hinject.trans ((reacts_refl _).ite _ (reacts_of_eq rfl rfl rfl))

theorem reacts_eccLater (m a : Nat) (L : Lane) : Reacts L (eccLater m a L).2 := by
  have hlook := reacts_eccLook m a L
  unfold eccLater
  split
  · next h => rw [h] at hlook; exact hlook
  · next h => rw [h] at hlook; exact hlook.trans (reacts_of_eq rfl rfl rfl)

theorem reacts_lpeLater (a : Nat) (L : Lane) : Reacts L (lpeLater a L).2 := reacts_eccLater 7 a L

/-! Slots of the loop engine forced off (R230 to R236) -/

theorem memKept_wrBytes {a : Nat} {vs : List Byte} (ha : lpeBase ≤ a) (hn : a + vs.length ≤ lpeBase + 0x10000) (L : Lane) :
    MemKept L (L.wrBytes a vs) := by
  induction vs generalizing a L with
  | nil => exact memKept_of_eq rfl
  | cons v vs ih =>
    rw [List.length_cons] at hn
    have hbyte : MemKept L (L.wrB a v) := fun hs =>
      ⟨smPut_sorted _ _ _ _ hs, fun b hb => by rw [rdB_wrB L a b v hs, if_neg (by omega)]⟩
    exact hbyte.trans (ih (by omega) (by omega) _)

theorem reacts_lpePut {a : Nat} (ha : lpeBase ≤ a) (hn : a + 4 ≤ lpeBase + 0x10000) (v : Word) (L : Lane) :
    Reacts L (lpePut a v L) := by
  have hpart : keptPart (L.wrW a v) = keptPart L := by simp [keptPart, Lane.wrW]
  have hcnt : (L.wrW a v).lsm.cnt = L.lsm.cnt := by simp [Lane.wrW]
  have hw : Reacts L (L.wrW a v) := ⟨⟨hpart, memKept_wrBytes (vs := wordBytes v) ha hn L⟩, hcnt⟩
  have hups (u : List (Nat × UpsetKind)) (A : Lane) : Reacts A { A with upsets := u } := reacts_of_eq rfl rfl rfl
  exact hw.trans (hups _ _)

theorem reacts_setSlotAct (s : Nat) (v : Bool) (L : Lane) : Reacts L (setSlotAct s v L) := by
  unfold setSlotAct
  exact (reacts_put L _ _).ite _ (reacts_put L _ _)

theorem reacts_outDeliver (w0 v : Word) (L : Lane) : Reacts L (outDeliver w0 v L) := by
  unfold outDeliver
  split
  · exact (reacts_refl L).ite _ (reacts_put L _ _)
  · exact reacts_put L _ _
  · exact reacts_put L _ _
  · exact reacts_refl L

theorem reacts_slotPut {s : Nat} (hs : s < 64) {off : Nat} (hoff : off ≤ 28) (v : Word) (L : Lane) :
    Reacts L (lpePut (slotSt s + off) v L) := by
  refine reacts_lpePut ?_ ?_ v L <;> rw [slotSt] <;> omega

theorem reacts_slotStop {s : Nat} (hs : s < 64) (L : Lane) : Reacts L (slotStop s L) := by
  have hact : Reacts L (setSlotAct s false (lpePut (slotSt s) 0 (lpeLater (slotSt s + 24) (lpeLater (slotCfg s) L).2).2)) :=
    (((reacts_lpeLater _ L).trans (reacts_lpeLater _ _)).trans (reacts_slotPut hs (off := 0) (by decide) 0 _)).trans
      (reacts_setSlotAct s false _)
  unfold slotStop
  dsimp only
  generalize setSlotAct s false (lpePut (slotSt s) 0 (lpeLater (slotSt s + 24) (lpeLater (slotCfg s) L).2).2) = A at hact ⊢
  generalize (lpeLater (slotSt s + 24) (lpeLater (slotCfg s) L).2).1 = status
  generalize (lpeLater (slotCfg s) L).1 = config
  have hmodel (m : Prop) [Decidable m] : Reacts L (if m then lpePut (slotSt s + 20) 0 (lpePut (slotSt s + 16) 0 A) else A) :=
    hact.ite m ((hact.trans (reacts_slotPut hs (off := 16) (by decide) 0 _)).trans (reacts_slotPut hs (off := 20) (by decide) 0 _))
  have hstatus (w : Word) (m : Prop) [Decidable m] := (hmodel m).trans (reacts_slotPut hs (off := 24) (by decide) w _)
  cases config with
  | none =>
    cases status with
    | none => exact hmodel _
    | some w => exact hstatus _ _
  | some w0 =>
    cases status with
    | none => exact (hmodel _).ite _ ((hmodel _).trans (reacts_outDeliver w0 0 _))
    | some w => exact (hstatus _ _).ite _ ((hstatus _ _).trans (reacts_outDeliver w0 0 _))

theorem reacts_forEach {f : Nat → Lane → Lane} {xs : List Nat} (hf : ∀ x ∈ xs, ∀ a, Reacts a (f x a)) (L : Lane) :
    Reacts L (forEach xs f L) := reacts_foldl (fun a x hx => hf x hx a) L

theorem reacts_lpeForceOff (L : Lane) : Reacts L (lpeForceOff L) := by
  refine (reacts_forEach (fun s hs a => ?_) L).trans (reacts_put _ _ _)
  exact (reacts_refl a).ite _ (reacts_slotStop (List.mem_range.mp hs) a)

/-! Motor engines and valve groups made safe (R163, R266, R295) -/

theorem reacts_setMe (e : Nat) (m : MeSt) (L : Lane) : Reacts L (setMe e m L) := reacts_of_eq rfl rfl rfl

theorem reacts_meEvent (e v : Nat) (L : Lane) : Reacts L (meEvent e v L) := by
  have hstat : Reacts L (L.setBit (F.MEe_EVSTAT_EV e) v true) := reacts_put L _ _
  have hplic := hstat.ite (L.bit (F.MEe_EVSEL_PLIC e) v = true) (hstat.trans (reacts_plicRaise (58 + e) _))
  unfold meEvent
  exact hplic.ite _ (hplic.trans (reacts_setMe e _ _))

theorem reacts_setRegime (e r : Nat) (L : Lane) : Reacts L (setRegime e r L) := by
  have havail (A : Lane) : Reacts A (meAvail e A) := reacts_put A _ _
  unfold setRegime
  exact (((reacts_put L _ _).trans (havail _)).trans (reacts_meEvent e 0 _)).ite _ (havail L)

theorem reacts_forceEngine (e : Nat) (L : Lane) : Reacts L (forceEngine e L) := by
  have hregime (r : Nat) : Reacts L (setRegime e r ((L.setB (F.MEe_STAT_FORCED e) true).setB (F.MEe_STAT_CHOP_REQ e) false)) :=
    ((reacts_put L _ _).trans (reacts_put _ _ _)).trans (reacts_setRegime e r _)
  unfold forceEngine
  exact (((hregime 7).trans (reacts_meEvent e 3 _)).ite _ (hregime 7)).ite _
    (((hregime 8).trans (reacts_setMe e _ _)).ite _ (hregime 8))

theorem reacts_eventBits (stat : Fld) (en : Word) (map : Nat → Option Nat) (bits : Word) (L : Lane) :
    Reacts L (eventBits stat en map bits L) := by
  unfold eventBits
  refine (reacts_put L _ _).trans (reacts_foldl (fun a i _ => ?_) _)
  split
  · split
    · exact reacts_plicRaise _ a
    · exact reacts_refl a
  · exact reacts_refl a

theorem reacts_giveUp (g : Nat) (L : Lane) : Reacts L (giveUp g L) := by
  have hgrp (x : DeiGrp) (A : Lane) : Reacts A (setGrp g x A) := reacts_of_eq rfl rfl rfl
  have hclaim : Reacts L (((setGrp g default (L.setBit (F.DEI_GRPg_STAT_CLAIMS g) (laneNo L.id) false)).putN
      (F.DEI_GRPg_STAT_STATE g) 0).setB (F.DEI_GRPg_STAT_MIR_VALID g) false) :=
    (((reacts_put L _ _).trans (hgrp _ _)).trans (reacts_put _ _ _)).trans (reacts_put _ _ _)
  have hchannels (A : Lane) : Reacts A ((List.range 8).foldl (fun a k =>
      if L.bit (F.DEI_GRPg_CTL_CHMASK g) k then a.setB (F.VDU_CHk_STAT_EN k) false else a) A) :=
    reacts_foldl (fun a k _ => (reacts_refl a).ite _ (reacts_put a _ _)) A
  have hmirror (m : BitVec 4) (A : Lane) : Reacts A { A with lpe := { A.lpe with mirSet := m } } := reacts_of_eq rfl rfl rfl
  have howner (A : Lane) : Reacts A (((A.setB (F.DEI_GRPg_STAT_OWN g) false).setB (F.DEI_GRPg_STAT_DRIVE g) false).putN
      (F.DEI_GRPg_STAT_OWNER g) 3) := ((reacts_put A _ _).trans (reacts_put _ _ _)).trans (reacts_put _ _ _)
  unfold giveUp
  exact hclaim.ite _ ((((hclaim.trans (hchannels _)).trans (hmirror _ _)).trans (howner _)).trans (reacts_eventBits _ _ _ _ _))

theorem reacts_safeOutputs (L : Lane) : Reacts L (safeOutputs L) :=
  ((reacts_forceEngine 0 L).trans (reacts_forceEngine 1 _)).trans (reacts_forEach (fun g _ a => reacts_giveUp g a) _)

/-! The reaction of a class (R169, R390) -/

theorem reacts_setMembers (m : BitVec 3) (L : Lane) : Reacts L (setMembers m L) := reacts_of_eq rfl rfl rfl

theorem reacts_excludeSelf (L : Lane) : Reacts L (excludeSelf L) := by
  have hset (m : BitVec 3) : Reacts L (((setMembers m L).setB F.CLV_STAT_EXCL true).setB F.TLS_MS_STAT_EXCL true) :=
    (reacts_setMembers m L).trans ((reacts_put _ _ _).trans (reacts_put _ _ _))
  have hloss (A : Lane) : Reacts A { A with clv := { A.clv with unsaid := true }, tls := { A.tls with lossDue := true } } :=
    reacts_of_eq rfl rfl rfl
  unfold excludeSelf
  exact (reacts_refl L).ite _ (((hset _).trans (hloss _)).trans (reacts_plicRaise 51 _))

theorem reacts_reactClass (cls : Nat) (L : Lane) : Reacts L (reactClass cls L) := by
  have hsafe : Reacts L (lpeForceOff ((excludeSelf (safeOutputs L)).setB F.LSM_STAT_SAFE true)) :=
    (((reacts_safeOutputs L).trans (reacts_excludeSelf _)).trans (reacts_put _ _ _)).trans (reacts_lpeForceOff _)
  unfold reactClass
  split
  · exact reacts_refl L
  · exact reacts_of_eq rfl rfl rfl
  · exact reacts_of_eq rfl rfl rfl
  · dsimp only
    generalize lpeForceOff ((excludeSelf (safeOutputs L)).setB F.LSM_STAT_SAFE true) = A at hsafe ⊢
    split
    · exact hsafe.trans (reacts_of_eq rfl rfl rfl)
    · exact hsafe.trans (reacts_of_eq rfl rfl rfl)

theorem reacts_evrQueue (typ : Nat) (w : Word) (L : Lane) : Reacts L (evrQueue typ w L).1 := by
  unfold evrQueue
  split
  · split <;> exact reacts_of_eq rfl rfl rfl
  · exact reacts_of_eq rfl rfl rfl

theorem reacts_winStart (trig : Nat) (L : Lane) : Reacts L (winStart trig L).1 := by
  unfold winStart
  split <;> exact reacts_of_eq rfl rfl rfl

/-- A trigger while recording runs: the lane and the window, if there is one. -/
def winTaken (trig : Nat) (L : Lane) : Lane × Option Nat :=
  match winOpen L with
  | some w =>
    if L.time + 30000000000 - (w.time - 30000000000) ≤ 120000000000 then
      ({ L with evr := { L.evr with winEnd := L.time + 30000000000 } }, some w.win)
    else if winFree L = none then (L, none)
    else ({ L with evr := { L.evr with nextTrig := some trig } }, some w.win)
  | none => winStart trig L

theorem reacts_winTaken (trig : Nat) (L : Lane) : Reacts L (winTaken trig L).1 := by
  unfold winTaken
  split
  · split
    · exact reacts_of_eq rfl rfl rfl
    · split
      · exact reacts_refl L
      · exact reacts_of_eq rfl rfl rfl
  · exact reacts_winStart trig L

theorem reacts_winTrigger (trig : Nat) (L : Lane) : Reacts L (winTrigger trig L).1 := by
  have htaken := reacts_winTaken trig L
  rw [winTaken] at htaken
  unfold winTrigger
  split
  · exact reacts_refl L
  · split
    · exact reacts_of_eq rfl rfl rfl
    · dsimp only
      split
      · exact (htaken.trans (reacts_evrQueue 6 _ _)).trans (reacts_plicRaise 76 _)
      · exact htaken.trans (reacts_put _ _ _)

/-- LSM_LAST names the reaction, and LSM_STAT the highest class taken. -/
def reactionNoted (src cls : Nat) (L : Lane) : Lane :=
  let A := ((L.putN F.LSM_LAST_CKPT_LO (L.ckpt.toNat % 256)).putN F.LSM_LAST_CLASS cls).putN F.LSM_LAST_SOURCE src
  A.putN F.LSM_STAT_MAXCLS (max cls (A.n F.LSM_STAT_MAXCLS))

theorem reacts_takeReaction (src cls : Nat) (L : Lane) : Reacts L (takeReaction src cls L) := by
  have hnoted : Reacts L (reactionNoted src cls L) := reacts_of_eq rfl rfl rfl
  have hany (A : Lane) : Reacts A { (A.setB F.LSM_STAT_ANY true) with clv := { A.clv with quiet := 0 } } := reacts_of_eq rfl rfl rfl
  have hreact := ((hnoted.ite (0 < cls) (hnoted.trans (hany _))).trans (reacts_plicRaise (3 + cls) _)).trans
    (reacts_reactClass cls _)
  unfold takeReaction
  exact hreact.ite _ (hreact.trans (reacts_winTrigger 1 _))

/-! What one raising does, case by case (R169, R171) -/

/-- LSM_RAWn shows the source, and the lane knows when its self-check has failed. -/
def raiseNoted (src : Nat) (L : Lane) : Lane :=
  let A := L.setBit (F.LSM_RAWn_RAW (src / 32)) (src % 32) true
  if selfFailSource src then { A with lsm := { A.lsm with selfFail := true } } else A

/-- The count of the source steps, stopping at 15. -/
def raiseCounted (src : Nat) (L : Lane) : Lane :=
  let A := raiseNoted src L
  { A with lsm := { A.lsm with cnt := smPut A.lsm.cnt src 0 (min 15 (raiseCount L src + 1)) } }

section
variable {src f : Nat} {L : Lane}

theorem raiseCore_unlocked (hlock : L.b F.LSM_CTL_LOCK = false) : raiseCore src L = (raiseNoted src L, 7) := by
  simp [raiseCore, hlock, raiseNoted]

theorem raiseCore_table (hlock : L.b F.LSM_CTL_LOCK = true) (hf : forcedClass src = none)
    (hhit : lsmThresh L src ≤ raiseCount L src) :
    raiseCore src L = (takeReaction src (lsmClass L src) (raiseCounted src L), lsmClass L src) := by
  simp [raiseCore, hlock, hf, hhit, raiseCounted, raiseNoted]

theorem raiseCore_below (hlock : L.b F.LSM_CTL_LOCK = true) (hf : forcedClass src = none)
    (hbelow : raiseCount L src < lsmThresh L src) : raiseCore src L = (raiseCounted src L, 7) := by
  simp [raiseCore, hlock, hf, hbelow.not_ge, raiseCounted, raiseNoted]

theorem raiseCore_forced_below (hlock : L.b F.LSM_CTL_LOCK = true) (hf : forcedClass src = some f)
    (hbelow : raiseCount L src < lsmThresh L src) : raiseCore src L = (takeReaction src f (raiseCounted src L), f) := by
  simp [raiseCore, hlock, hf, hbelow.not_ge, raiseCounted, raiseNoted]

/-- A forced class below the table's is taken first. -/
theorem raiseCore_forced_table (hlock : L.b F.LSM_CTL_LOCK = true) (hf : forcedClass src = some f)
    (hhit : lsmThresh L src ≤ raiseCount L src) :
    raiseCore src L = (takeReaction src (max f (lsmClass L src))
      (if f < lsmClass L src then takeReaction src f (raiseCounted src L) else raiseCounted src L), max f (lsmClass L src)) := by
  by_cases h : f < lsmClass L src <;> simp [raiseCore, hlock, hf, hhit, raiseCounted, raiseNoted, h]

theorem raiseCore_class_forced (hlock : L.b F.LSM_CTL_LOCK = true) (hf : forcedClass src = some f) :
    (raiseCore src L).2 = if lsmThresh L src ≤ raiseCount L src then max f (lsmClass L src) else f := by
  split
  · next hhit => rw [raiseCore_forced_table hlock hf hhit]
  · next hbelow => rw [raiseCore_forced_below hlock hf (Nat.lt_of_not_le hbelow)]

/-- Once the table is locked a raising counts, and then reacts at most. -/
theorem reacts_raiseCore (hlock : L.b F.LSM_CTL_LOCK = true) : Reacts (raiseCounted src L) (raiseCore src L).1 := by
  rcases Nat.lt_or_ge (raiseCount L src) (lsmThresh L src) with hbelow | hhit
  · cases hf : forcedClass src with
    | none => rw [raiseCore_below hlock hf hbelow]; exact reacts_refl _
    | some f => rw [raiseCore_forced_below hlock hf hbelow]; exact reacts_takeReaction src f _
  · cases hf : forcedClass src with
    | none => rw [raiseCore_table hlock hf hhit]; exact reacts_takeReaction src _ _
    | some f =>
      rw [raiseCore_forced_table hlock hf hhit]
      exact ((reacts_refl _).ite _ (reacts_takeReaction src f _)).trans (reacts_takeReaction src _ _)

theorem raiseNoted_regs : (raiseNoted src L).regs = (L.setBit (F.LSM_RAWn_RAW (src / 32)) (src % 32) true).regs := by
  unfold raiseNoted
  split <;> rfl

theorem raiseNoted_cnt : (raiseNoted src L).lsm.cnt = L.lsm.cnt := by
  unfold raiseNoted
  split <;> rfl

theorem reacts_raiseNoted (src : Nat) (L : Lane) : Reacts L (raiseNoted src L) := by
  have hraw : Reacts L (L.setBit (F.LSM_RAWn_RAW (src / 32)) (src % 32) true) := reacts_put L _ _
  exact hraw.ite _ (hraw.trans (reacts_of_eq rfl rfl rfl))

theorem bitAt_setBit_same (w : Word) {i : Nat} (hi : i < 32) : bitAt (setBit w i true) i = true := by
  rw [bitAt, setBit, if_pos rfl, BitVec.getLsbD_or, BitVec.getLsbD_ofNat, Nat.testBit_two_pow_self, decide_eq_true hi]
  simp

theorem bit_setBit_same {f : Fld} {i : Nat} (hs : smSorted L.regs = true) (hw : f.w = 32) (hi : i < 32) :
    (L.setBit f i true).bit f i = true := by
  rw [Lane.bit, laneSetBit_eq, fld_put L f f _ hs (fun _ => rfl), if_pos rfl, hw, toW, Nat.mod_eq_of_lt (BitVec.isLt _),
    BitVec.ofNat_toNat, BitVec.setWidth_eq, bitAt_setBit_same _ hi]

theorem raiseNoted_raw (hs : smSorted L.regs = true) :
    (raiseNoted src L).bit (F.LSM_RAWn_RAW (src / 32)) (src % 32) = true := by
  rw [Lane.bit, fld_of_regs raiseNoted_regs]
  exact bit_setBit_same hs rfl (Nat.mod_lt _ (by decide))

/-- A field below the RAW registers is as before. -/
theorem raiseCounted_b (hs : smSorted L.regs = true) {g : Fld} (hg : g.key < (F.LSM_RAWn_RAW 0).key) :
    (raiseCounted src L).b g = L.b g := by
  have hkey : g.key ≠ (F.LSM_RAWn_RAW (src / 32)).key := by
    simp only [Fld.key, F.LSM_RAWn_RAW] at hg ⊢
    omega
  have hregs : (raiseCounted src L).regs = (L.setBit (F.LSM_RAWn_RAW (src / 32)) (src % 32) true).regs := raiseNoted_regs
  rw [b_of_regs hregs, Lane.b, laneSetBit_eq, fld_put_other _ hs hkey]
  rfl

theorem raiseCount_raiseCounted (hs : smSorted L.lsm.cnt = true) :
    raiseCount (raiseCounted src L) src = min 15 (raiseCount L src + 1) := by
  have hcnt : (raiseCounted src L).lsm.cnt = smPut L.lsm.cnt src 0 (min 15 (raiseCount L src + 1)) :=
    congrArg (smPut · src 0 (min 15 (raiseCount L src + 1))) raiseNoted_cnt
  rw [raiseCount, hcnt, smGet_put _ _ _ _ _ _ hs (fun _ => rfl), if_pos rfl]

theorem raiseCount_raiseCore (hlock : L.b F.LSM_CTL_LOCK = true) (hs : smSorted L.lsm.cnt = true) :
    raiseCount (raiseCore src L).1 src = min 15 (raiseCount L src + 1) := by
  rw [← raiseCount_raiseCounted hs, raiseCount, (reacts_raiseCore hlock).cnt]
  rfl

end

theorem kept_raiseCore (src : Nat) (L : Lane) : Kept L (raiseCore src L).1 := by
  have hnoted := (reacts_raiseNoted src L).toKept
  cases hlock : L.b F.LSM_CTL_LOCK with
  | false => rw [raiseCore_unlocked hlock]; exact hnoted
  | true =>
    have hcounted : Kept L (raiseCounted src L) := hnoted.trans (kept_of_eq rfl rfl)
    exact hcounted.trans (reacts_raiseCore hlock).toKept

/-! What follows from a raising -/

theorem kept_raiseRec (src : Nat) (L : Lane) : Kept L (raiseRec src L) := by
  have hqueue (w : Word) : Kept L (evrQueue 2 w (raiseCore src L).1).1 :=
    (kept_raiseCore src L).trans (reacts_evrQueue 2 w _).toKept
  unfold raiseRec
  dsimp only
  split
  · exact (hqueue _).trans (kept_raiseCore 0x0E8 _)
  · exact hqueue _

theorem kept_cdspPend (n : Nat) (L : Lane) : Kept L (cdspPend n L) := by
  unfold cdspPend
  split
  · exact (reacts_put L _ _).toKept.trans (kept_raiseRec 0x02D _)
  · exact kept_of_eq rfl rfl

theorem kept_meFlush (L : Lane) : Kept L (meFlush L) :=
  kept_foldl (fun a e => kept_foldl (fun b _ => (kept_refl b).ite _
    ((reacts_setMe e _ b).toKept.trans (kept_cdspPend (3 + e) _))) _ a) _ L

theorem kept_eccNote (k : UpsetKind) (m a : Nat) (L : Lane) : Kept L (eccNote k m a L) := by
  unfold eccNote
  split
  · exact kept_refl L
  · split
    · dsimp only
      split <;> exact kept_of_eq rfl rfl
    · exact kept_of_eq rfl rfl

theorem kept_eccFlush (L : Lane) : Kept L (eccFlush L) := by
  have hclear : Kept L { L with lsm := { L.lsm with eccDue := [] } } := kept_of_eq rfl rfl
  refine hclear.trans (kept_foldl (fun a e => ?_) _ _)
  have hnote := kept_eccNote e.1 e.2.1 e.2.2 a
  split
  · exact hnote.trans (kept_raiseRec _ _)
  · exact hnote

theorem kept_blockFlush (L : Lane) : Kept L (blockFlush L) :=
  kept_foldl (fun a e => (kept_refl a).ite _ (((reacts_setMe e _ a).toKept.trans (kept_raiseRec _ _)).trans
    (reacts_meEvent e 5 _).toKept)) _ L

theorem kept_raise (src : Nat) (L : Lane) : Kept L (raise src L) :=
  (((((kept_raiseRec src L).trans (kept_meFlush _)).trans (kept_blockFlush _)).trans (kept_eccFlush _)).trans
    (kept_blockFlush _)).trans (kept_meFlush _)

/-- Settles O59: by the lock, by whether the source has a forced class, and by its count against THRESH; the frame is that of
everything that a raising sets off (`kept_raise`). -/
theorem raisedSourcesReactPastTheirThreshold : Obligations.RaisedSourcesReactPastTheirThreshold := by
  intro L src hs _
  refine ⟨fun hlock => ?_, fun hlock hf hhit => ?_, fun hlock hf hbelow => ?_, raiseCount_raiseCore, fun hlock hsrc => ?_,
    fun hlock hsrc => ?_, ?_, fun hwf => ((kept_raise src L).mem (memWf_sorted hwf)).2⟩
  · rw [raiseCore_unlocked hlock]
    exact ⟨rfl, raiseNoted_raw hs, raiseNoted_cnt⟩
  · rw [raiseCore_table hlock hf hhit]
  · rw [raiseCore_below hlock hf hbelow]
    exact ⟨rfl, raiseCounted_b hs (by decide), raiseCounted_b hs (by decide)⟩
  · exact raiseCore_class_forced hlock (if_pos hsrc)
  · exact raiseCore_class_forced hlock (by rw [hsrc]; rfl)
  · simpa only [keptPart, Prod.mk.injEq] using (kept_raise src L).part

end Sys2Proof.Machine
end

section
/-! SUPPORT. Proofs of the statements about the control DSP's ALU and immediate instructions: the command of an instruction, the
words that decode to it, and what a saturating result is. -/

namespace Sys2Proof.Machine

/-! The command of an instruction -/

section
variable {s : State} {l : LaneId} {c : Instr} {ldc : Bool} {ok : Lane → Bool} {act : Lane → Lane}

/-- Where the CDSP issues, the command of a legal instruction is its issue. -/
theorem exec_dspDo_issue (hrun : dspRuns (s.lane l) = true) (hc : exec c s = .next (s.onLane l (fun A => dspDo ldc (ok A) act A)))
    (hok : ok (s.lane l) = true) : exec c s = .next (s.setLane l (issue ldc act (s.lane l))) :=
  exec_of_onLane hc (by simp [dspDo, hrun, hok])

/-- An illegal one is the fault. -/
theorem exec_dspDo_illegal (hrun : dspRuns (s.lane l) = true)
    (hc : exec c s = .next (s.onLane l (fun A => dspDo ldc (ok A) act A))) (hok : ok (s.lane l) = false) : exec c s = .next (s.setLane l (illegal 0x02A (s.lane l))) :=
  exec_of_onLane hc (by simp [dspDo, hrun, hok])

end

/-! Fields of an instruction word (R210, R213) -/

theorem bitsOf64_div (w : Word64) (lo n : Nat) : bitsOf64 w lo n = w.toNat / 2 ^ lo % 2 ^ n := by
  rw [bitsOf64, Nat.shiftRight_eq_div_pow]

section
variable {op rd ra rb : Nat} {imm : Word} (hop : op < 64) (hd : rd < 64) (ha : ra < 64) (hb : rb < 64)
include hop hd ha hb

theorem aluWord_toNat : (aluWord op rd ra rb imm).toNat =
    2 ^ 62 + op * 2 ^ 56 + rd * 2 ^ 50 + ra * 2 ^ 44 + rb * 2 ^ 38 + imm.toNat := by
  rw [aluWord, BitVec.toNat_ofNat]
  omega

theorem aluWord_format : bitsOf64 (aluWord op rd ra rb imm) 62 2 = 1 := by
  rw [bitsOf64_div, aluWord_toNat hop hd ha hb]
  omega

theorem aluWord_aop : bitsOf64 (aluWord op rd ra rb imm) 56 6 = op := by
  rw [bitsOf64_div, aluWord_toNat hop hd ha hb]
  omega

theorem aluWord_rdst : bitsOf64 (aluWord op rd ra rb imm) 50 6 = rd := by
  rw [bitsOf64_div, aluWord_toNat hop hd ha hb]
  omega

theorem aluWord_rsa : bitsOf64 (aluWord op rd ra rb imm) 44 6 = ra := by
  rw [bitsOf64_div, aluWord_toNat hop hd ha hb]
  omega

theorem aluWord_rsb : bitsOf64 (aluWord op rd ra rb imm) 38 6 = rb := by
  rw [bitsOf64_div, aluWord_toNat hop hd ha hb]
  omega

theorem aluWord_padding : bitsOf64 (aluWord op rd ra rb imm) 32 6 = 0 := by
  rw [bitsOf64_div, aluWord_toNat hop hd ha hb]
  omega

theorem aluWord_imm : lo32 (aluWord op rd ra rb imm) = imm := by
  apply BitVec.eq_of_toNat_eq
  rw [lo32, BitVec.toNat_setWidth, aluWord_toNat hop hd ha hb]
  omega

end

section
variable {l : LaneId} {w : Word64}

/-- What the table allows the fields of an ALU word: a code that is not reserved, D registers, unused fields clear (R213,
R214). -/
def AluLegal (w : Word64) : Prop :=
  bitsOf64 w 32 6 = 0 ∧ bitsOf64 w 56 6 < 0x15 ∧
  (2 ≤ bitsOf64 w 56 6 → bitsOf64 w 50 6 < 16 ∧ bitsOf64 w 44 6 < 16 ∧ bitsOf64 w 38 6 < 16) ∧
  (bitsOf64 w 56 6 ∈ [0, 6, 10, 11, 12, 13, 16, 17, 20] → bitsOf64 w 38 6 = 0) ∧
  (bitsOf64 w 56 6 ∈ [1, 2, 3, 4, 5, 7, 8, 9, 14, 15, 16, 17, 18, 19] → lo32 w = 0) ∧
  (bitsOf64 w 56 6 = 0 → bitsOf64 w 44 6 = 0) ∧ (bitsOf64 w 56 6 = 1 → bitsOf64 w 38 6 = 0)

theorem aluLegal_of_decAlu {i : Instr} (h : decAlu l w = some i) : AluLegal w := by
  simp only [decAlu, ite_not] at h
  split at h
  case isFalse => cases h
  next hpad =>
  refine ⟨hpad, ?_⟩
  split at h
  · next hop => simp_all
  · next hop => simp_all
  · split at h
    · cases h
    · split at h <;> simp_all

/-- A word of the ALU format that the table does not allow is no instruction. -/
theorem decDsp_eq_none_of_alu (htyp : bitsOf64 w 62 2 = 1) (h : ¬ AluLegal w) : decDsp l w = none := by
  rw [decDsp, htyp]
  exact Option.eq_none_iff_forall_ne_some.mpr fun i hi => h (aluLegal_of_decAlu hi)
end

/-- Each AOP code of R214 decodes to its instruction. -/
theorem decDsp_aluWord (l : LaneId) (rd ra rb : BitVec 4) (imm : Word) (n m : BitVec 6) :
    let dec := fun (op b : Nat) (i : Word) => decDsp l (aluWord op rd.toNat ra.toNat b i)
    let r := rb.toNat
    dec 0x02 r 0 = some (.add l rd ra rb) ∧ dec 0x03 r 0 = some (.sub l rd ra rb) ∧ dec 0x04 r 0 = some (.adds l rd ra rb) ∧
    dec 0x05 r 0 = some (.subs l rd ra rb) ∧ dec 0x06 0 imm = some (.addi l rd ra imm) ∧ dec 0x07 r 0 = some (.and l rd ra rb) ∧
    dec 0x08 r 0 = some (.or l rd ra rb) ∧ dec 0x09 r 0 = some (.xor l rd ra rb) ∧ dec 0x0A 0 imm = some (.shl l rd ra imm) ∧
    dec 0x0B 0 imm = some (.shls l rd ra imm) ∧ dec 0x0C 0 imm = some (.shra l rd ra imm) ∧
    dec 0x0D 0 imm = some (.shrl l rd ra imm) ∧ dec 0x0E r 0 = some (.min l rd ra rb) ∧ dec 0x0F r 0 = some (.max l rd ra rb) ∧
    dec 0x10 0 0 = some (.abss l rd ra) ∧ dec 0x11 0 0 = some (.negs l rd ra) ∧ dec 0x12 r 0 = some (.selneg l rd ra rb) ∧
    dec 0x13 r 0 = some (.selz l rd ra rb) ∧ dec 0x14 0 imm = some (.clamp l rd ra imm) ∧
    decDsp l (aluWord 0 n.toNat 0 0 imm) = some (.ldi l n imm) ∧
    decDsp l (aluWord 1 n.toNat m.toNat 0 0) = some (.mov l n m) := by
  have hd : rd.toNat < 16 := rd.isLt
  have ha : ra.toNat < 16 := ra.isLt
  have hb : rb.toNat < 16 := rb.isLt
  have six {k : Nat} (hk : k < 16) : k < 64 := by omega
  simp [decDsp, decAlu, aluWord_format, aluWord_aop, aluWord_rdst, aluWord_rsa, aluWord_rsb, aluWord_padding, aluWord_imm,
    hd, ha, hb, Nat.not_le.mpr, six, n.isLt, m.isLt]

/-! Saturating results (R214) -/

theorem sat32_eq_self {x : Int} (hlo : -(2 ^ 31) ≤ x) (hhi : x < 2 ^ 31) : sat32 x = x := by
  rw [sat32, if_neg (by omega), if_neg (by omega)]

theorem sat32_of_ge {x : Int} (h : 2 ^ 31 ≤ x) : sat32 x = 2147483647 := by
  rw [sat32, if_neg (by omega), if_pos (by omega)]

theorem sat32_of_lt {x : Int} (h : x < -(2 ^ 31)) : sat32 x = -2147483648 := by
  rw [sat32, if_pos (by omega)]

theorem satD_inside {x : Int} (n : Nat) (L : Lane) (h : sat32 x = x) : satD n x L = setD n (BitVec.ofInt 32 x) L := by
  rw [satD, satW, h, if_pos rfl]

theorem satD_outside {x : Int} (n : Nat) (L : Lane) (h : sat32 x ≠ x) :
    satD n x L = setD n (BitVec.ofInt 32 (sat32 x)) (setBank { dspBank L with sat := true } L) := by
  rw [satD, satW, if_neg h]

/-! Registers of LDI and MOV (R213) -/

theorem dstReg_data {n : Nat} (h : n < 16) (v : Word) : dstReg n v = setD n v := by
  funext L
  simp [dstReg, h]

theorem srcReg_data {n : Nat} (h : n < 16) (L : Lane) : srcReg n L = (dReg L n, L) := by simp [srcReg, h]

theorem dstOk_data {n : Nat} (h : n < 16) : dstOk n = true := by
  simp only [dstOk, decide_eq_true_eq]
  omega

theorem srcOk_data {n : Nat} (h : n < 16) : srcOk n = true := by
  simp only [srcOk, decide_eq_true_eq]
  omega

/-- The immediate of LDI has more bits than the pointer, base or length register that it is for. -/
theorem ldiWide_iff (n : Nat) (imm : Word) :
    (0x18 ≤ n ∧ n < 0x30) ∧ bitsOf imm 18 14 ≠ 0 ↔ 0x18 ≤ n ∧ n < 0x30 ∧ 2 ^ 18 ≤ imm.toNat := by
  rw [bitsOf, Nat.shiftRight_eq_div_pow]
  omega

section
variable {l : LaneId} {s : State} (hrun : dspRuns (s.lane l) = true) {n m : BitVec 6} {imm : Word}
include hrun

theorem exec_ldi (hdst : dstOk n.toNat = true) (himm : n.toNat < 0x18 ∨ 0x30 ≤ n.toNat ∨ imm.toNat < 2 ^ 18) :
    exec (.ldi l n imm) s = .next (s.setLane l (issue false (dstReg n.toNat imm) (s.lane l))) := by
  refine exec_dspDo_issue hrun rfl ?_
  rw [hdst, Bool.true_and, Bool.not_eq_true', decide_eq_false_iff_not, ldiWide_iff]
  omega

theorem exec_ldi_wide (hlo : 0x18 ≤ n.toNat) (hhi : n.toNat < 0x30) (himm : 2 ^ 18 ≤ imm.toNat) :
    exec (.ldi l n imm) s = .next (s.setLane l (illegal 0x02A (s.lane l))) := by
  refine exec_dspDo_illegal hrun rfl ?_
  rw [decide_eq_true ((ldiWide_iff _ _).mpr ⟨hlo, hhi, himm⟩), Bool.not_true, Bool.and_false]

theorem exec_mov (hdst : dstOk n.toNat = true) (hsrc : srcOk m.toNat = true) : exec (.mov l n m) s = .next (s.setLane l
    (issue false (fun A => dstReg n.toNat (srcReg m.toNat A).1 (srcReg m.toNat A).2) (s.lane l))) :=
  exec_dspDo_issue hrun rfl (by rw [hdst, hsrc, Bool.and_self])

theorem exec_mov_data (hn : n.toNat < 16) (hm : m.toNat < 16) : exec (.mov l n m) s = .next (s.setLane l
    (issue false (fun A => setD n.toNat (dReg A m.toNat) A) (s.lane l))) := by
  simpa only [dstReg_data hn, srcReg_data hm] using exec_mov hrun (dstOk_data hn) (srcOk_data hm)

end

/-- Settles O33: an instruction's command is its issue (`exec_dspDo_issue`), or the fault of its illegal form; what decodes holds
what the table allows its fields (`AluLegal`). -/
theorem aluInstructionsGiveTheTablesResults : Obligations.AluInstructionsGiveTheTablesResults := by
  intro l s rd ra rb imm n m x w L dec r a b k put sat bad
  refine ⟨decDsp_aluWord l rd ra rb imm n m, fun htyp h => decDsp_eq_none_of_alu htyp fun ⟨hpad, haop, _⟩ => ?_,
    fun htyp hop h => decDsp_eq_none_of_alu htyp fun ⟨_, _, hdreg, _⟩ => ?_,
    fun htyp hop h => decDsp_eq_none_of_alu htyp fun ⟨_, _, _, hrsb, _⟩ => h (hrsb hop),
    fun htyp hop h => decDsp_eq_none_of_alu htyp fun ⟨_, _, _, _, himm, _⟩ => h (himm hop),
    fun htyp hop h => decDsp_eq_none_of_alu htyp fun ⟨_, _, _, _, _, hrsa, _⟩ => h (hrsa hop),
    fun htyp hop h => decDsp_eq_none_of_alu htyp fun ⟨_, _, _, _, _, _, hrsb⟩ => h (hrsb hop),
    fun hlo hhi => satD_inside _ L (sat32_eq_self hlo hhi), fun h => ?_, fun h => ?_,
    fun hrun => ?_⟩
  · omega
  · have := hdreg hop
    omega
  · rw [satD_outside _ L (by rw [sat32_of_ge h]; omega), sat32_of_ge h]
    rfl
  · rw [satD_outside _ L (by rw [sat32_of_lt h]; omega), sat32_of_lt h]
    rfl
  have legal {c : Instr} {act : Lane → Lane} (hc : exec c s = .next (s.onLane l (dspDo false true act))) :
      exec c s = .next (s.setLane l (issue false act L)) := exec_dspDo_issue hrun hc rfl
  refine ⟨legal rfl, legal rfl, legal rfl, legal rfl, legal rfl, legal rfl, legal rfl, legal rfl, legal rfl, legal rfl, legal rfl,
    legal rfl, legal rfl, legal rfl, legal rfl, legal rfl, legal rfl, legal rfl,
    fun h => exec_dspDo_issue hrun rfl (decide_eq_true h), fun h => exec_dspDo_illegal hrun rfl (decide_eq_false h.not_gt),
    fun hn => dstReg_data hn imm ▸ exec_ldi hrun (dstOk_data hn) (.inl (by omega)), exec_ldi hrun,
    fun hn => exec_dspDo_illegal hrun rfl (by rw [hn, Bool.false_and]), exec_ldi_wide hrun, exec_mov_data hrun, exec_mov hrun,
    fun h => exec_dspDo_illegal hrun rfl ?_⟩
  rcases h with h | h <;> simp [h]

end Sys2Proof.Machine
end

section
/-! SUPPORT. Proof of the statement about what an ALU instruction leaves alone: what the parts of an issue do to the bank in use,
and what an issue is where nothing else waits for it. -/

namespace Sys2Proof.Machine

/-! The bank in use (R182, R205) -/

section
variable {L K : Lane} {b c : DspBank}

theorem dspBank_main (h : L.b F.CDSP_STAT_BANK = false) : dspBank L = L.dsp.main := by simp [dspBank, h]
theorem dspBank_shadow (h : L.b F.CDSP_STAT_BANK = true) : dspBank L = L.dsp.shadow := by simp [dspBank, h]

theorem setBank_main (h : L.b F.CDSP_STAT_BANK = false) : setBank b L = { L with dsp := { L.dsp with main := b } } := by
  simp [setBank, h]
theorem setBank_shadow (h : L.b F.CDSP_STAT_BANK = true) : setBank b L = { L with dsp := { L.dsp with shadow := b } } := by
  simp [setBank, h]

/-- Only the register fields and the banks decide which bank is in use. -/
theorem dspBank_congr (hb : K.b F.CDSP_STAT_BANK = L.b F.CDSP_STAT_BANK) (hm : K.dsp.main = L.dsp.main)
    (hs : K.dsp.shadow = L.dsp.shadow) : dspBank K = dspBank L := by
  rw [dspBank, dspBank, hb, hm, hs]

@[simp] theorem dspBank_setBank : dspBank (setBank b L) = b := by
  cases h : L.b F.CDSP_STAT_BANK with
  | false => rw [setBank_main h]; exact dspBank_main h
  | true => rw [setBank_shadow h]; exact dspBank_shadow h

@[simp] theorem setBank_dspBank : setBank (dspBank L) L = L := by
  cases h : L.b F.CDSP_STAT_BANK with
  | false => rw [setBank_main h, dspBank_main h]
  | true => rw [setBank_shadow h, dspBank_shadow h]

@[simp] theorem setBank_setBank : setBank c (setBank b L) = setBank c L := by
  cases h : L.b F.CDSP_STAT_BANK with
  | false => rw [setBank_main h, setBank_main h]; exact setBank_main h
  | true => rw [setBank_shadow h, setBank_shadow h]; exact setBank_shadow h

/-- Of a lane only the banks differ. -/
theorem setBank_shape (b : DspBank) (L : Lane) :
    ∃ m h, setBank b L = { L with dsp := { L.dsp with main := m, shadow := h } } := by
  cases h : L.b F.CDSP_STAT_BANK with
  | false => exact ⟨b, L.dsp.shadow, setBank_main h⟩
  | true => exact ⟨L.dsp.main, b, setBank_shadow h⟩

theorem setBank_keeps {β : Type} (g : Lane → β)
    (hg : ∀ m h, g { L with dsp := { L.dsp with main := m, shadow := h } } = g L) : g (setBank b L) = g L := by
  obtain ⟨m, h, heq⟩ := setBank_shape b L
  rw [heq, hg]

@[simp] theorem setBank_regs : (setBank b L).regs = L.regs := setBank_keeps (fun A => A.regs) fun _ _ => rfl
@[simp] theorem setBank_mem : (setBank b L).mem = L.mem := setBank_keeps (fun A => A.mem) fun _ _ => rfl
@[simp] theorem setBank_ring : (setBank b L).ring = L.ring := setBank_keeps (fun A => A.ring) fun _ _ => rfl
@[simp] theorem setBank_plic : (setBank b L).plic = L.plic := setBank_keeps (fun A => A.plic) fun _ _ => rfl
@[simp] theorem setBank_flow : (setBank b L).dsp.flow = L.dsp.flow := setBank_keeps (fun A => A.dsp.flow) fun _ _ => rfl
@[simp] theorem setBank_out : (setBank b L).dsp.out = L.dsp.out := setBank_keeps (fun A => A.dsp.out) fun _ _ => rfl
@[simp] theorem setBank_haltReq : (setBank b L).dsp.haltReq = L.dsp.haltReq := setBank_keeps (fun A => A.dsp.haltReq) fun _ _ => rfl
@[simp] theorem setBank_saved : (setBank b L).dsp.saved = L.dsp.saved := setBank_keeps (fun A => A.dsp.saved) fun _ _ => rfl
@[simp] theorem setBank_fromIdle : (setBank b L).dsp.fromIdle = L.dsp.fromIdle := setBank_keeps (fun A => A.dsp.fromIdle) fun _ _ => rfl
@[simp] theorem setBank_budget : (setBank b L).dsp.budget = L.dsp.budget := setBank_keeps (fun A => A.dsp.budget) fun _ _ => rfl

@[simp] theorem setBank_n (f : Fld) : (setBank b L).n f = L.n f := by
  rw [Lane.n, Lane.n, fld_of_regs setBank_regs]

end

/-! Flow of control (R195 to R198) -/

section
variable {L : Lane} {f : DspFlow}

@[simp] theorem setFlow_flow : (setFlow f L).dsp.flow = f := rfl
@[simp] theorem setFlow_out : (setFlow f L).dsp.out = L.dsp.out := rfl
@[simp] theorem setFlow_haltReq : (setFlow f L).dsp.haltReq = L.dsp.haltReq := rfl
@[simp] theorem setFlow_mem : (setFlow f L).mem = L.mem := rfl
@[simp] theorem setFlow_ring : (setFlow f L).ring = L.ring := rfl
@[simp] theorem setFlow_plic : (setFlow f L).plic = L.plic := rfl

theorem setFlow_fld (hs : smSorted L.regs = true) {g : Fld} (hg : g.key ≠ F.CDSP_STAT_LDEPTH.key) :
    (setFlow f L).fld g = L.fld g := fld_put_other _ hs hg

theorem dspBank_setFlow (hs : smSorted L.regs = true) : dspBank (setFlow f L) = dspBank L :=
  dspBank_congr (by rw [Lane.b, setFlow_fld hs (by decide)]; rfl) rfl rfl

/-- Outside a loop, and but for a further iteration of a REP, the next instruction follows. -/
theorem flowStep_straight (hrep : L.dsp.flow.rep ≤ 1) (hloops : L.dsp.flow.loops = []) : flowStep L =
    setFlow { L.dsp.flow with rep := 0 } (setBank { dspBank L with pc := ((dspBank L).pc + 1) % 131072 } L) := by
  simp [flowStep, loopNext, hloops, hrep.not_gt]

end

/-! One cycle (R207) -/

section
variable {L : Lane}

theorem outCycle_none (k : Nat) (hout : L.dsp.out = []) : outCycle k L = L := by
  have h : { L.dsp with out := [] } = L.dsp := by rw [← hout]
  simp [outCycle, hout, h]

theorem landDue_none (all : Bool) (hfly : (dspBank L).fly = []) : landDue all L = L := by
  have h : { dspBank L with fly := [] } = dspBank L := by rw [← hfly]
  simp [landDue, hfly, landAll, h]

/-- What a cycle counts beside the bank's own count: the task's cycles and budget, and how long pending sources have waited. -/
def dspCounts (k : Nat) (L : Lane) : DspSt :=
  { L.dsp with
    cycles := L.dsp.cycles + k
    budget := L.dsp.budget.map (fun n => n - k)
    heldTask := L.dsp.heldTask.map (fun t => (t.1, t.2 - k))
    wait := (List.range 8).map (fun n => nth L.dsp.wait n 0 + (if L.bit F.CDSP_STAT_IRQ_PEND n then k else 0)) }

theorem dspCycle_eq (k : Nat) (L : Lane) : dspCycle k L =
    { setBank { dspBank L with cyc := (dspBank L).cyc + k } (outCycle k L) with
      dsp := dspCounts k (setBank { dspBank L with cyc := (dspBank L).cyc + k } (outCycle k L)) } := rfl

variable (k : Nat) (hout : L.dsp.out = [])
include hout

theorem dspCycle_none : dspCycle k L = { setBank { dspBank L with cyc := (dspBank L).cyc + k } L with
      dsp := dspCounts k (setBank { dspBank L with cyc := (dspBank L).cyc + k } L) } := by
  rw [dspCycle_eq, outCycle_none k hout]

theorem dspCycle_regs : (dspCycle k L).regs = L.regs := by rw [dspCycle_none k hout]; exact setBank_regs
theorem dspCycle_mem : (dspCycle k L).mem = L.mem := by rw [dspCycle_none k hout]; exact setBank_mem
theorem dspCycle_ring : (dspCycle k L).ring = L.ring := by rw [dspCycle_none k hout]; exact setBank_ring
theorem dspCycle_plic : (dspCycle k L).plic = L.plic := by rw [dspCycle_none k hout]; exact setBank_plic
theorem dspCycle_haltReq : (dspCycle k L).dsp.haltReq = L.dsp.haltReq := by rw [dspCycle_none k hout]; exact setBank_haltReq

theorem dspBank_dspCycle : dspBank (dspCycle k L) = { dspBank L with cyc := (dspBank L).cyc + k } := by
  rw [dspCycle_none k hout]
  exact dspBank_setBank

end

/-! An issue for which nothing else waits (R195) -/

theorem dspRuns_state {L : Lane} (h : dspRuns L = true) : L.n F.CDSP_STAT_STATE = 1 ∨ L.n F.CDSP_STAT_STATE = 2 := by
  simp only [dspRuns, Bool.and_eq_true, Bool.or_eq_true, decide_eq_true_eq] at h
  omega

/-- The CDSP issues, and no result, output, transfer, loop, further iteration of a REP or halt waits for the issue. -/
structure Straight (L : Lane) : Prop where
  sorted : smSorted L.regs = true
  runs : dspRuns L = true
  fly : (dspBank L).fly = []
  redir : (dspBank L).redir = none
  haltReq : L.dsp.haltReq = false
  rep : L.dsp.flow.rep ≤ 1
  loops : L.dsp.flow.loops = []
  out : L.dsp.out = []

theorem straight_of_quiet {L : Lane} (hs : smSorted L.regs = true) (hq : dspQuiet L) : Straight L := by
  obtain ⟨hrun, hfly, hredir, hhalt, hrep, hloops, hout⟩ := hq
  exact ⟨hs, hrun, hfly, hredir, hhalt, by omega, hloops, hout⟩

section
variable {L : Lane} (h : Straight L) {act : Lane → Lane} {b : DspBank} (hact : act L = setBank b L)
include h hact

/-- The flow and PC after the instruction, before its cycle passes. -/
theorem flowStep_act : flowStep (act L) =
    setFlow { L.dsp.flow with rep := 0 } (setBank { b with pc := (b.pc + 1) % 131072 } L) := by
  rw [hact, flowStep_straight]
  · simp
  · simpa using h.rep
  · simpa using h.loops

/-- An instruction that sets only the bank in use steps PC, and one cycle passes. -/
theorem issue_straight : issue false act L =
    dspCycle 1 (setFlow { L.dsp.flow with rep := 0 } (setBank { b with pc := (b.pc + 1) % 131072 } L)) := by
  have hstate : (act L).n F.CDSP_STAT_STATE = 1 ∨ (act L).n F.CDSP_STAT_STATE = 2 := by
    rw [hact, setBank_n]
    exact dspRuns_state h.runs
  have hhalt : (dspCycle 1 (flowStep (act L))).dsp.haltReq = false := by
    rw [flowStep_act h hact, dspCycle_haltReq 1 (by simpa using h.out)]
    simpa using h.haltReq
  rw [← flowStep_act h hact]
  simp [issue, landDue_none false h.fly, h.redir, hstate, hhalt]

theorem issue_straight_bank : dspBank (issue false act L) = { b with pc := (b.pc + 1) % 131072, cyc := b.cyc + 1 } := by
  rw [issue_straight h hact, dspBank_dspCycle 1 (by simpa using h.out), dspBank_setFlow (by simpa using h.sorted),
    dspBank_setBank]

theorem issue_straight_mem : (issue false act L).mem = L.mem := by
  rw [issue_straight h hact, dspCycle_mem 1 (by simpa using h.out), setFlow_mem, setBank_mem]

theorem issue_straight_ring : (issue false act L).ring = L.ring := by
  rw [issue_straight h hact, dspCycle_ring 1 (by simpa using h.out), setFlow_ring, setBank_ring]

theorem issue_straight_plic : (issue false act L).plic = L.plic := by
  rw [issue_straight h hact, dspCycle_plic 1 (by simpa using h.out), setFlow_plic, setBank_plic]

theorem issue_straight_fld {g : Fld} (hg : g.key ≠ F.CDSP_STAT_LDEPTH.key) : (issue false act L).fld g = L.fld g := by
  rw [issue_straight h hact, fld_of_regs (dspCycle_regs 1 (by simpa using h.out)), setFlow_fld (by simpa using h.sorted) hg,
    fld_of_regs setBank_regs]

end

/-! What an ALU instruction writes (R214) -/

/-- The bank as an instruction leaves it that writes data register `n` and SAT at most. -/
def destOnly (n : Nat) (b c : DspBank) : Prop :=
  ∃ d sat, c = { b with d := d, sat := sat } ∧ ∀ k, k ≠ n → nth d k 0 = nth b.d k 0

/-- An instruction's effect writes data register `n` and SAT of the bank in use at most. -/
def writesDest (n : Nat) (act : Lane → Lane) : Prop := ∀ A, ∃ c, act A = setBank c A ∧ destOnly n (dspBank A) c

theorem nth_setNth_other {α : Type} (xs : List α) (n : Nat) (v d : α) {k : Nat} (hk : k ≠ n) :
    nth (setNth xs n v) k d = nth xs k d := by
  simp [nth, setNth, List.getD_eq_getElem?_getD, List.getElem?_set_ne hk.symm]

theorem writesDest_setD (n : Nat) (f : Lane → Word) : writesDest n (fun A => setD n (f A) A) := fun A =>
  ⟨_, rfl, _, (dspBank A).sat, rfl, fun _ hk => nth_setNth_other _ _ _ _ hk⟩

theorem writesDest_satD (n : Nat) (f : Lane → Int) : writesDest n (fun A => satD n (f A) A) := fun A => by
  dsimp only
  by_cases h : sat32 (f A) = f A
  · rw [satD_inside n A h]
    exact writesDest_setD n (fun A => BitVec.ofInt 32 (f A)) A
  · rw [satD_outside n A h]
    exact ⟨_, by rw [setD, setBank_setBank, dspBank_setBank], _, true, rfl, fun _ hk => nth_setNth_other _ _ _ _ hk⟩

theorem writesDest_if (n : Nat) (p : Lane → Prop) [DecidablePred p] (f : Lane → Word) :
    writesDest n (fun A => if p A then setD n (f A) A else A) := fun A => by
  dsimp only
  split
  · exact writesDest_setD n f A
  · exact ⟨dspBank A, setBank_dspBank.symm, _, _, rfl, fun _ _ => rfl⟩

/-- Each three-register instruction issues, and writes its destination at most. -/
theorem alu_writesDest {l : LaneId} {s : State} {rd ra rb : BitVec 4} {imm : Word} {c : Instr}
    (hrun : dspRuns (s.lane l) = true)
    (hc : c ∈ [Instr.add l rd ra rb, .sub l rd ra rb, .addi l rd ra imm, .adds l rd ra rb, .subs l rd ra rb, .and l rd ra rb,
      .or l rd ra rb, .xor l rd ra rb, .shl l rd ra imm, .shrl l rd ra imm, .shra l rd ra imm, .shls l rd ra imm,
      .min l rd ra rb, .max l rd ra rb, .abss l rd ra, .negs l rd ra, .selneg l rd ra rb, .selz l rd ra rb]) :
    ∃ act, writesDest rd.toNat act ∧ exec c s = .next (s.setLane l (issue false act (s.lane l))) := by
  have legal {c : Instr} {act : Lane → Lane} (hact : writesDest rd.toNat act)
      (he : exec c s = .next (s.onLane l (dspDo false true act))) :
      ∃ act, writesDest rd.toNat act ∧ exec c s = .next (s.setLane l (issue false act (s.lane l))) :=
    ⟨act, hact, exec_dspDo_issue hrun he rfl⟩
  have word := @writesDest_setD rd.toNat
  have sat := @writesDest_satD rd.toNat
  have sel := @writesDest_if rd.toNat
  simp only [List.mem_cons, List.not_mem_nil, or_false] at hc
  rcases hc with rfl | rfl | rfl | rfl | rfl | rfl | rfl | rfl | rfl | rfl | rfl | rfl | rfl | rfl | rfl | rfl | rfl | rfl
  exacts [legal (word _) rfl, legal (word _) rfl, legal (word _) rfl, legal (sat _) rfl, legal (sat _) rfl, legal (word _) rfl,
    legal (word _) rfl, legal (word _) rfl, legal (word _) rfl, legal (word _) rfl, legal (word _) rfl, legal (sat _) rfl,
    legal (word _) rfl, legal (word _) rfl, legal (sat _) rfl, legal (sat _) rfl, legal (sel _ _) rfl, legal (sel _ _) rfl]

/-- Settles O34: the instruction writes its destination and SAT at most (`alu_writesDest`), and the issue around it steps PC and
counts one cycle (`issue_straight`). -/
theorem aluInstructionsChangeOnlyTheirRegister : Obligations.AluInstructionsChangeOnlyTheirRegister := by
  intro l s rd ra rb imm c L B hc hs hq
  have h := straight_of_quiet hs hq
  obtain ⟨act, hdest, hexec⟩ := alu_writesDest h.runs hc
  obtain ⟨b, hact, d, sat, rfl, hd⟩ := hdest L
  have hbank := issue_straight_bank h hact
  refine ⟨_, hexec, onlyLane_onLane l s (issue false act), ?_⟩
  simp only [lane_setLane_same]
  rw [hbank]
  exact ⟨hd, rfl, rfl, rfl, rfl, rfl, rfl, rfl, issue_straight_mem h hact, issue_straight_ring h hact, issue_straight_plic h hact,
    fun f hf => issue_straight_fld h hact hf⟩

end Sys2Proof.Machine
end

section
/-! SUPPORT. Proof of the statement about the control DSP's control instructions: what each does where it is legal, and what makes
it illegal. -/

namespace Sys2Proof.Machine

section
variable {L : Lane}

theorem noSlot_of_none (h : (dspBank L).redir = none) : noSlot L = true := by rw [noSlot, h]; rfl

theorem noSlot_of_some (h : (dspBank L).redir ≠ none) : noSlot L = false := by
  rw [noSlot, Option.isNone_eq_false_iff, Option.isSome_iff_ne_none]
  exact h

/-! The return stack (R215) -/

theorem dspCall_pushes {t : Nat} (h : L.dsp.flow.stack.length < 8) : dspCall t L =
    transfer 0 t (setFlow { L.dsp.flow with stack := ((dspBank L).pc + 3) % 131072 :: L.dsp.flow.stack } L) := by
  simp [dspCall, h.not_ge]

theorem dspCall_full {t : Nat} (h : 8 ≤ L.dsp.flow.stack.length) : dspCall t L = illegal 0x02B L := by simp [dspCall, h]

theorem dspRet_empty (h : L.dsp.flow.stack = []) : dspRet L = illegal 0x02B L := by simp [dspRet, h]

theorem dspRet_pops {top : Nat} {rest : List Nat} (h : L.dsp.flow.stack = top :: rest) : dspRet L =
    transfer 0 top (setFlow { L.dsp.flow with stack := rest } L) := by simp [dspRet, h]

/-! Loops and repeats (R197, R198) -/

theorem dspLoop_bank (hs : smSorted L.regs = true) (k t : Nat) :
    dspBank (dspLoop k t L) = { dspBank L with pc := ((dspBank L).pc + 1) % 131072 } := by
  rw [dspLoop, dspBank_setFlow (by simpa using hs), dspBank_setBank]

theorem dspLoop_mem (k t : Nat) : (dspLoop k t L).mem = L.mem := by rw [dspLoop, setFlow_mem, setBank_mem]

theorem dspRep_mem (k : Nat) : (dspRep k L).mem = L.mem := by rw [dspRep, setFlow_mem, setBank_mem]

end

section
variable {l : LaneId} {s : State} (hrun : dspRuns (s.lane l) = true) {t : BitVec 17} {k : BitVec 16}
include hrun

theorem exec_loop (hslot : noSlot (s.lane l) = true) (hk : k ≠ 0) (hdepth : (s.lane l).dsp.flow.loops.length < 2) :
    exec (.loop l k t) s = .next (s.setLane l (dspLoop k.toNat t.toNat (s.lane l))) := by
  refine exec_of_onLane rfl ?_
  have hok : (noSlot (s.lane l) && decide (k ≠ 0) && decide ((s.lane l).dsp.flow.loops.length < 2)) = true := by
    rw [hslot, decide_eq_true hk, decide_eq_true hdepth, Bool.and_self, Bool.and_self]
  simp only [hrun, hok, if_true]

theorem exec_loop_illegal (h : noSlot (s.lane l) = false ∨ k = 0 ∨ 2 ≤ (s.lane l).dsp.flow.loops.length) :
    exec (.loop l k t) s = .next (s.setLane l (illegal 0x02A (s.lane l))) := by
  refine exec_of_onLane rfl ?_
  have hbad : (noSlot (s.lane l) && decide (k ≠ 0) && decide ((s.lane l).dsp.flow.loops.length < 2)) = false := by
    rcases h with h | h | h
    · rw [h, Bool.false_and, Bool.false_and]
    · rw [h, decide_eq_false (not_not_intro rfl), Bool.and_false, Bool.false_and]
    · rw [decide_eq_false h.not_gt, Bool.and_false]
  simp only [hrun, hbad, if_true, Bool.false_eq_true, if_false]

theorem exec_rep (hslot : noSlot (s.lane l) = true) (hk : k ≠ 0) (hmost : k.toNat ≤ 4096) :
    exec (.rep l k) s = .next (s.setLane l (dspRep k.toNat (s.lane l))) := by
  refine exec_of_onLane rfl ?_
  have hok : (noSlot (s.lane l) && decide (k ≠ 0 ∧ k.toNat ≤ 4096)) = true := by
    rw [hslot, decide_eq_true ⟨hk, hmost⟩, Bool.and_self]
  simp only [hrun, hok, if_true]

theorem exec_rep_illegal (h : noSlot (s.lane l) = false ∨ k = 0 ∨ 4096 < k.toNat) :
    exec (.rep l k) s = .next (s.setLane l (illegal 0x02A (s.lane l))) := by
  refine exec_of_onLane rfl ?_
  have hbad : (noSlot (s.lane l) && decide (k ≠ 0 ∧ k.toNat ≤ 4096)) = false := by
    rcases h with h | h | h <;> simp [h]
  simp only [hrun, hbad, if_true, Bool.false_eq_true, if_false]

end

/-- Settles O37: a control instruction issues where no delay slot is open and its own condition holds, and is illegal elsewhere;
LOOP and REP take no issue. -/
theorem controlInstructionsSteerTheProgram : Obligations.ControlInstructionsSteerTheProgram := by
  intro l s t k code top rest L f B bad slots hs hrun
  have legal {c : Instr} {ok : Lane → Bool} {act : Lane → Lane}
      (hc : exec c s = .next (s.onLane l (fun A => dspDo false (ok A) act A))) (hok : ok L = true) :
      exec c s = .next (s.setLane l (issue false act L)) := exec_dspDo_issue hrun hc hok
  have ill {c : Instr} {ok : Lane → Bool} {act : Lane → Lane}
      (hc : exec c s = .next (s.onLane l (fun A => dspDo false (ok A) act A))) (hok : ok L = false) : exec c s = bad :=
    exec_dspDo_illegal hrun hc hok
  have inState {p q : Nat} (h : L.n F.CDSP_STAT_STATE = q) (hpq : p ≠ q) :
      (noSlot L && decide (L.n F.CDSP_STAT_STATE = p)) = false := by
    rw [h, decide_eq_false hpq.symm, Bool.and_false]
  have atEnd {p : Nat} (hr : B.redir = none) (h : L.n F.CDSP_STAT_STATE = p) :
      (noSlot L && decide (L.n F.CDSP_STAT_STATE = p)) = true := by
    rw [noSlot_of_none hr, decide_eq_true h, Bool.and_self]
  refine ⟨legal rfl rfl, fun hr => legal rfl (noSlot_of_none hr), fun hr => ?_, fun hr => legal rfl (noSlot_of_none hr),
    fun hr => legal rfl (noSlot_of_none hr), dspCall_pushes, dspCall_full, dspRet_empty, dspRet_pops,
    fun hr hk hdepth => ⟨_, exec_loop hrun (noSlot_of_none hr) hk hdepth, rfl, by rw [dspLoop_bank hs], dspLoop_mem _ _⟩,
    fun h => exec_loop_illegal hrun (.inr h),
    fun hr hk hmost => ⟨_, exec_rep hrun (noSlot_of_none hr) hk hmost, rfl, rfl, dspRep_mem _⟩,
    fun h => exec_rep_illegal hrun (.inr h), fun hr h => legal rfl (atEnd hr h), fun h => ill rfl (inState h (by decide)),
    fun hr h => legal rfl (atEnd hr h), fun h => ill rfl (inState h (by decide)), legal rfl rfl, rfl, legal rfl rfl,
    fun hr hhalt hrep hloops hfly hout => ?_⟩
  · have hslot := noSlot_of_some hr
    have hand (p : Bool) : (noSlot L && p) = false := by rw [hslot, Bool.false_and]
    exact ⟨ill rfl hslot, ill rfl hslot, ill rfl hslot, exec_loop_illegal hrun (.inl hslot), exec_rep_illegal hrun (.inl hslot),
      ill rfl (hand _), ill rfl (hand _)⟩
  · rw [issue_straight_bank ⟨hs, hrun, hfly, hr, hhalt, hrep, hloops, hout⟩ (act := id) setBank_dspBank.symm]
    exact ⟨rfl, rfl⟩

end Sys2Proof.Machine
end

section
/-! SUPPORT. Proof of the statement about the control DSP's MAC-pair operations: the words that decode to them, their issue, the
terms they form and the limits of an accumulator. -/

namespace Sys2Proof.Machine

/-! Fields of a word of the parallel format (R210, R212) -/

theorem bitsOf64_add (w : Word64) (lo k n : Nat) : bitsOf64 w (lo + k) n = w.toNat / 2 ^ lo / 2 ^ k % 2 ^ n := by
  rw [bitsOf64_div, pow_add, Nat.div_div_eq_div_mul]

theorem moveCode_lt (m : Move) : moveCode m < 2 ^ 13 := by
  obtain ⟨kind, reg, ptr, upd⟩ := m
  cases kind <;> simp only [moveCode] <;> omega

/-- A move field that holds the code of a move decodes to it. -/
theorem moveOf_of_code {w : Word64} {lo : Nat} {m : Move} (h : bitsOf64 w lo 13 = moveCode m) : moveOf w lo = some m := by
  obtain ⟨kind, reg, ptr, upd⟩ := m
  rw [bitsOf64_div] at h
  have hreg : bitsOf64 w (lo + 6) 4 = reg.toNat := by
    rw [bitsOf64_add]
    cases kind <;> simp only [moveCode] at h <;> omega
  have hptr : bitsOf64 w (lo + 3) 3 = ptr.toNat := by
    rw [bitsOf64_add]
    cases kind <;> simp only [moveCode] at h <;> omega
  have hupd : bitsOf64 w lo 3 = upd.toNat := by
    rw [bitsOf64_div]
    cases kind <;> simp only [moveCode] at h <;> omega
  have hkind : moveKindOf (bitsOf64 w (lo + 10) 3) = some kind := by
    have hcode : bitsOf64 w (lo + 10) 3 = moveCode ⟨kind, reg, ptr, upd⟩ / 2 ^ 10 := by
      rw [bitsOf64_add, ← h]
      omega
    have htop (c : Nat) : (c * 2 ^ 10 + reg.toNat * 2 ^ 6 + ptr.toNat * 2 ^ 3 + upd.toNat) / 2 ^ 10 = c := by omega
    rw [hcode]
    cases kind <;> simp only [moveCode, htop] <;> rfl
  simp [moveOf, hkind, hreg, hptr, hupd]

section
variable {op : Nat} (g : MacArgs) (hop : op < 32)
include hop

theorem macWord_toNat : (macWord op g).toNat =
    op * 2 ^ 57 + g.mpair.toNat * 2 ^ 55 + g.mra.toNat * 2 ^ 51 + g.mrb.toNat * 2 ^ 47 + g.mrc.toNat * 2 ^ 43 + g.mrd.toNat * 2 ^ 39 + moveCode g.x * 2 ^ 26 + moveCode g.y * 2 ^ 13 ∧
    moveCode g.x < 2 ^ 13 ∧ moveCode g.y < 2 ^ 13 := by
  have hx := moveCode_lt g.x
  have hy := moveCode_lt g.y
  refine ⟨?_, hx, hy⟩
  rw [macWord, BitVec.toNat_ofNat]
  omega

theorem macWord_format : bitsOf64 (macWord op g) 62 2 = 0 := by
  have hword := macWord_toNat g hop
  rw [bitsOf64_div]
  omega

theorem macWord_mop : bitsOf64 (macWord op g) 57 5 = op := by
  have hword := macWord_toNat g hop
  rw [bitsOf64_div]
  omega

theorem macWord_mpair : bitsOf64 (macWord op g) 55 2 = g.mpair.toNat := by
  have hword := macWord_toNat g hop
  rw [bitsOf64_div]
  omega

theorem macWord_mra : bitsOf64 (macWord op g) 51 4 = g.mra.toNat := by
  have hword := macWord_toNat g hop
  rw [bitsOf64_div]
  omega

theorem macWord_mrb : bitsOf64 (macWord op g) 47 4 = g.mrb.toNat := by
  have hword := macWord_toNat g hop
  rw [bitsOf64_div]
  omega

theorem macWord_mrc : bitsOf64 (macWord op g) 43 4 = g.mrc.toNat := by
  have hword := macWord_toNat g hop
  rw [bitsOf64_div]
  omega

theorem macWord_mrd : bitsOf64 (macWord op g) 39 4 = g.mrd.toNat := by
  have hword := macWord_toNat g hop
  rw [bitsOf64_div]
  omega

theorem macWord_padding : bitsOf64 (macWord op g) 0 13 = 0 := by
  have hword := macWord_toNat g hop
  rw [bitsOf64_div]
  omega

theorem macWord_x : moveOf (macWord op g) 26 = some g.x := by
  have hword := macWord_toNat g hop
  refine moveOf_of_code ?_
  rw [bitsOf64_div]
  omega

theorem macWord_y : moveOf (macWord op g) 13 = some g.y := by
  have hword := macWord_toNat g hop
  refine moveOf_of_code ?_
  rw [bitsOf64_div]
  omega

end

/-- The instruction that a MOP code of R211 names for the fields of a word; none for a reserved code, and for a shift with a
register field. -/
def mopInstr (l : LaneId) (op : Nat) (g : MacArgs) : Option Instr :=
  match op with
  | 0 => some (.macPairNop l g.x g.y)
  | 1 => some (.mpy l g)
  | 2 => some (.mac l g)
  | 3 => some (.msu l g)
  | 4 => some (.macsu l g)
  | 5 => some (.clr l g.mpair g.x g.y)
  | 6 => if g.mrb = 0 ∧ g.mrc = 0 ∧ g.mrd = 0 then some (.asr l g.mpair g.mra g.x g.y) else none
  | 7 => if g.mrb = 0 ∧ g.mrc = 0 ∧ g.mrd = 0 then some (.asl l g.mpair g.mra g.x g.y) else none
  | 8 => some (.lda l g.mpair g.mra g.mrc g.x g.y)
  | _ => none

theorem decDsp_par {l : LaneId} {w : Word64} (hfmt : bitsOf64 w 62 2 = 0) : decDsp l w = decPar l w := by simp [decDsp, hfmt]

theorem decPar_eq {l : LaneId} {w : Word64} {x y : Move} (hx : moveOf w 26 = some x) (hy : moveOf w 13 = some y) :
    decPar l w = if bitsOf64 w 0 13 ≠ 0 then none else mopInstr l (bitsOf64 w 57 5)
      ⟨BitVec.ofNat 2 (bitsOf64 w 55 2), BitVec.ofNat 4 (bitsOf64 w 51 4), BitVec.ofNat 4 (bitsOf64 w 47 4),
        BitVec.ofNat 4 (bitsOf64 w 43 4), BitVec.ofNat 4 (bitsOf64 w 39 4), x, y⟩ := by
  simp only [decPar, hx, hy]
  rfl

theorem decDsp_macWord (l : LaneId) (g : MacArgs) {op : Nat} (hop : op < 32) : decDsp l (macWord op g) = mopInstr l op g := by
  rw [decDsp_par (macWord_format g hop), decPar_eq (macWord_x g hop) (macWord_y g hop), macWord_mop g hop,
    macWord_mpair g hop, macWord_mra g hop, macWord_mrb g hop, macWord_mrc g hop, macWord_mrd g hop, macWord_padding g hop]
  simp

theorem mopInstr_shift {l : LaneId} {g : MacArgs} (h : g.mrb ≠ 0 ∨ g.mrc ≠ 0 ∨ g.mrd ≠ 0) :
    mopInstr l 6 g = none ∧ mopInstr l 7 g = none := by
  have hbad : ¬ (g.mrb = 0 ∧ g.mrc = 0 ∧ g.mrd = 0) := by simpa only [not_and_or] using h
  exact ⟨if_neg hbad, if_neg hbad⟩

theorem mopInstr_reserved (l : LaneId) (g : MacArgs) {op : Nat} (h : 9 ≤ op) : mopInstr l op g = none := by
  obtain ⟨n, rfl⟩ := Nat.exists_eq_add_of_le' h
  rfl

theorem decDsp_eq_none_of_mop (l : LaneId) {w : Word64} (hfmt : bitsOf64 w 62 2 = 0) (h : 9 ≤ bitsOf64 w 57 5) :
    decDsp l w = none := by
  rw [decDsp_par hfmt]
  cases hx : moveOf w 26 with
  | none => simp [decPar, hx]
  | some x =>
    cases hy : moveOf w 13 with
    | none => simp [decPar, hx, hy]
    | some y => rw [decPar_eq hx hy, mopInstr_reserved l _ h, ite_self]

/-! Issue of a parallel instruction (R210) -/

section
variable {l : LaneId} {s : State} {c : Instr} {x y : Move} {ok : Bool} {mac : Lane → Lane} (hrun : dspRuns (s.lane l) = true)
  (hc : exec c s = .next (s.onLane l (parallel x y ok mac)))
include hrun hc

theorem exec_parallel (hok : ok = true) (hx : moveOk true x = true) (hy : moveOk false y = true) :
    exec c s = .next (s.setLane l
      (issue (decide (x.kind = .ldc)) (fun A => doMove false y (doMove true x (mac A))) (s.lane l))) :=
  exec_dspDo_issue (ok := fun _ => ok && moveOk true x && moveOk false y) hrun hc (by simp [hok, hx, hy])

theorem exec_parallel_illegal (hok : ok = false) : exec c s = .next (s.setLane l (illegal 0x02A (s.lane l))) :=
  exec_dspDo_illegal (ok := fun _ => ok && moveOk true x && moveOk false y) hrun hc (by simp [hok])

end

/-! The limits of an accumulator (R181) -/

theorem acc72_below {v : Int} (h : v < -(2 ^ 71)) : acc72 v = (BitVec.ofInt 72 (-(2 ^ 71)), true) := by rw [acc72, if_pos h]

theorem acc72_above {v : Int} (h : 2 ^ 71 - 1 < v) : acc72 v = (BitVec.ofInt 72 (2 ^ 71 - 1), true) := by
  rw [acc72, if_neg (by omega), if_pos h]

theorem acc72_inside {v : Int} (hlo : -(2 ^ 71) ≤ v) (hhi : v ≤ 2 ^ 71 - 1) : acc72 v = (BitVec.ofInt 72 v, false) := by
  rw [acc72, if_neg (by omega), if_neg (by omega)]

theorem acc72_value (v : Int) : (acc72 v).1.toInt = max (-(2 ^ 71)) (min v (2 ^ 71 - 1)) := by
  have exact72 {x : Int} (hlo : -(2 ^ 71) ≤ x) (hhi : x ≤ 2 ^ 71 - 1) : (BitVec.ofInt 72 x).toInt = x :=
    BitVec.toInt_ofInt_eq_self (by decide) hlo (Int.lt_of_le_sub_one hhi)
  rcases lt_or_ge v (-(2 ^ 71)) with h | hlo
  · rw [acc72_below h, exact72 (by omega) (by omega)]
    omega
  · rcases lt_or_ge (2 ^ 71 - 1) v with h | hhi
    · rw [acc72_above h, exact72 (by omega) (by omega)]
      omega
    · rw [acc72_inside hlo hhi, exact72 hlo hhi]
      omega

theorem acc72_limited (v : Int) : (acc72 v).2 = true ↔ v < -(2 ^ 71) ∨ 2 ^ 71 - 1 < v := by
  rcases lt_or_ge v (-(2 ^ 71)) with h | hlo
  · rw [acc72_below h]
    exact iff_of_true rfl (.inl h)
  · rcases lt_or_ge (2 ^ 71 - 1) v with h | hhi
    · rw [acc72_above h]
      exact iff_of_true rfl (.inr h)
    · rw [acc72_inside hlo hhi]
      exact iff_of_false Bool.false_ne_true (by omega)

theorem accF_setAcc {L : Lane} {n : Nat} (v : Int) (hn : n < (dspBank L).aF.length) :
    accF (setAcc n v L) n = (acc72 v).1.toInt := by
  simp [accF, setAcc, flyTo, nth, setNth, hn]

/-- Settles O35: a word made of the table's fields decodes to what its MOP code names (`mopInstr`); the command is the issue of
the operation and the two moves (`exec_parallel`); an accumulator takes its value within its limits (`acc72_value`). -/
theorem macOperationsActOnTheSelectedAccumulators : Obligations.MacOperationsActOnTheSelectedAccumulators := by
  intro l s g mp a c k x y su n v w L dec go A B C D
  have decodes {op : Nat} {m : MacArgs} (hop : op < 32) : dec op m = mopInstr l op m := decDsp_macWord l m hop
  refine ⟨⟨decodes (by decide), decodes (by decide), decodes (by decide), decodes (by decide), decodes (by decide),
      decodes (by decide), decodes (by decide), decodes (by decide), decodes (by decide)⟩,
    fun h => ?_, decDsp_eq_none_of_mop l,
    fun hrun hx hy hgx hgy => ?_, ⟨rfl, rfl, rfl, rfl⟩, fun h => ?_, fun h => ?_, fun h => ?_, fun h => ?_, rfl, rfl,
    acc72_value v, acc72_limited v, fun hn => (accF_setAcc v hn).trans (acc72_value v)⟩
  · rw [decodes (by decide), decodes (by decide)]
    exact mopInstr_shift h
  · have both {c : Instr} {mac : Lane → Lane} (hc : exec c s = .next (s.onLane l (parallel x y true mac))) :
        exec c s = go x y mac := exec_parallel hrun hc rfl hx hy
    have args {c : Instr} {mac : Lane → Lane} (hc : exec c s = .next (s.onLane l (parallel g.x g.y true mac))) :
        exec c s = go g.x g.y mac := exec_parallel hrun hc rfl hgx hgy
    refine ⟨both rfl, args rfl, args rfl, args rfl, args rfl, both rfl, both rfl, both rfl, ?_, ?_, ?_⟩
    · rintro rfl
      exact both rfl
    · rintro rfl
      exact both rfl
    · rintro (rfl | rfl)
      · exact exec_parallel_illegal hrun (ok := false) rfl rfl
      · exact exec_parallel_illegal hrun (ok := false) rfl rfl
  all_goals
    rw [macTerms, h]
    rfl

end Sys2Proof.Machine
end

section
/-! SUPPORT. What raising a fault source and releasing held outputs leave of the control DSP: a reaction does not touch it, and
what follows from a raising moves only the waits of its pending sources. -/

namespace Sys2Proof.Machine

/-! Reactions leave the control DSP as it is (R169, R236, R266, R295, R390) -/

section
variable (L : Lane)

@[simp] theorem pprActed_dsp (i : Nat) : (pprActed i L).dsp = L.dsp := by
  simp only [pprActed, plicRaise_dsp]
  split <;> rfl

@[simp] theorem pprMeets_dsp (i : Nat) : (pprMeets i L).2.dsp = L.dsp := by
  unfold pprMeets
  split
  · exact pprActed_dsp _ i
  · dsimp only
    split
    · exact pprActed_dsp _ i
    · rfl
  · dsimp only
    split
    · exact pprActed_dsp _ i
    · rfl
  · exact pprActed_dsp _ i

theorem pepperSteps_dsp (kind target : Nat) (ok : Word → Bool) (is : List Nat) (r : Option Word × Lane) :
    (is.foldl (pepperStep kind target ok) r).2.dsp = r.2.dsp := by
  induction is generalizing r with
  | nil => rfl
  | cons i is ih =>
    rw [List.foldl_cons, ih]
    rcases pepperStep_lane kind target ok r i with h | h <;> simp [h]

@[simp] theorem pepper_dsp (kind target : Nat) (ok : Word → Bool) : (pepper kind target ok L).2.dsp = L.dsp := by
  cases harm : L.b F.PPR_CTL_ARMED with
  | false => rw [pepper_unarmed kind target ok harm]
  | true => rw [pepper_armed kind target ok harm, pepperSteps_dsp]

@[simp] theorem eccInject_dsp (m a : Nat) : (eccInject m a L).2.dsp = L.dsp := pepper_dsp L _ _ _

@[simp] theorem eccLook_dsp (m a : Nat) : (eccLook m a L).2.dsp = L.dsp := by
  simp only [eccLook]
  split <;> simp

@[simp] theorem eccLater_dsp (m a : Nat) : (eccLater m a L).2.dsp = L.dsp := by
  have hlook := eccLook_dsp L m a
  unfold eccLater
  split
  · next h => rw [h] at hlook; exact hlook
  · next h => rw [h] at hlook; exact hlook

@[simp] theorem lpeLater_dsp (a : Nat) : (lpeLater a L).2.dsp = L.dsp := eccLater_dsp L 7 a

@[simp] theorem lpePut_dsp (a : Nat) (v : Word) : (lpePut a v L).dsp = L.dsp := by simp [lpePut, Lane.wrW]

@[simp] theorem setSlotAct_dsp (s : Nat) (v : Bool) : (setSlotAct s v L).dsp = L.dsp := by
  unfold setSlotAct
  split <;> rfl

@[simp] theorem outDeliver_dsp (w0 v : Word) : (outDeliver w0 v L).dsp = L.dsp := by
  unfold outDeliver
  split
  · split <;> rfl
  all_goals rfl

@[simp] theorem slotStop_dsp (s : Nat) : (slotStop s L).dsp = L.dsp := by
  unfold slotStop
  dsimp only
  cases (lpeLater (slotCfg s) L).1 <;> cases (lpeLater (slotSt s + 24) (lpeLater (slotCfg s) L).2).1 <;>
    simp [apply_ite Lane.dsp]

/-- What every step of a fold keeps, the fold keeps. -/
theorem foldl_keeps {α β : Type} {g : Lane → β} {f : Lane → α → Lane} (hf : ∀ a x, g (f a x) = g a) (xs : List α) (L : Lane) :
    g (xs.foldl f L) = g L := by
  induction xs generalizing L with
  | nil => rfl
  | cons x xs ih => rw [List.foldl_cons, ih, hf]

theorem forEach_keeps {β : Type} {g : Lane → β} {f : Nat → Lane → Lane} (hf : ∀ x a, g (f x a) = g a) (xs : List Nat) (L : Lane) :
    g (forEach xs f L) = g L := foldl_keeps (fun a x => hf x a) xs L

theorem ite_keeps {β : Type} {g : Lane → β} {L A : Lane} (p : Prop) [Decidable p] (h : g A = g L) :
    g (if p then A else L) = g L := by
  split
  · exact h
  · rfl

@[simp] theorem lpeForceOff_dsp : (lpeForceOff L).dsp = L.dsp :=
  forEach_keeps (g := Lane.dsp) (fun s a => ite_keeps _ (slotStop_dsp a s)) _ L

@[simp] theorem meEvent_dsp (e v : Nat) : (meEvent e v L).dsp = L.dsp := by
  simp [meEvent, setMe, apply_ite Lane.dsp]

@[simp] theorem setRegime_dsp (e r : Nat) : (setRegime e r L).dsp = L.dsp := by
  simp [setRegime, meAvail, apply_ite Lane.dsp]

@[simp] theorem forceEngine_dsp (e : Nat) : (forceEngine e L).dsp = L.dsp := by
  simp [forceEngine, setMe, apply_ite Lane.dsp]

@[simp] theorem eventBits_dsp (stat : Fld) (en : Word) (map : Nat → Option Nat) (bits : Word) :
    (eventBits stat en map bits L).dsp = L.dsp := by
  refine (foldl_keeps (g := Lane.dsp) (fun a i => ?_) _ _).trans rfl
  refine ite_keeps (g := Lane.dsp) _ ?_
  split
  · exact plicRaise_dsp _ a
  · rfl

@[simp] theorem giveUp_dsp (g : Nat) : (giveUp g L).dsp = L.dsp := by
  have hchannels (A : Lane) : ((List.range 8).foldl (fun a k =>
      if L.bit (F.DEI_GRPg_CTL_CHMASK g) k then a.setB (F.VDU_CHk_STAT_EN k) false else a) A).dsp = A.dsp :=
    foldl_keeps (fun a k => ite_keeps (A := a.setB (F.VDU_CHk_STAT_EN k) false) _ rfl) _ A
  unfold giveUp
  dsimp only
  split
  · simp [deiEvent, hchannels, setGrp]
  · rfl

@[simp] theorem safeOutputs_dsp : (safeOutputs L).dsp = L.dsp := by
  refine (forEach_keeps (g := Lane.dsp) (fun g a => giveUp_dsp a g) _ _).trans ?_
  simp

@[simp] theorem excludeSelf_dsp : (excludeSelf L).dsp = L.dsp := by
  simp [excludeSelf, setMembers, apply_ite Lane.dsp]

@[simp] theorem reactClass_dsp (cls : Nat) : (reactClass cls L).dsp = L.dsp := by
  unfold reactClass
  split
  · rfl
  · rfl
  · rfl
  · dsimp only
    split <;> simp

@[simp] theorem evrQueue_dsp (typ : Nat) (w : Word) : (evrQueue typ w L).1.dsp = L.dsp := by
  unfold evrQueue
  split
  · split <;> rfl
  · rfl

@[simp] theorem winTaken_dsp (trig : Nat) : (winTaken trig L).1.dsp = L.dsp := by
  unfold winTaken winStart
  split
  · split
    · rfl
    · split <;> rfl
  · split <;> rfl

@[simp] theorem winTrigger_dsp (trig : Nat) : (winTrigger trig L).1.dsp = L.dsp := by
  have htaken := winTaken_dsp L trig
  rw [winTaken] at htaken
  unfold winTrigger
  split
  · rfl
  · split
    · rfl
    · dsimp only
      split
      · rw [plicRaise_dsp, evrQueue_dsp]
        exact htaken
      · exact htaken

@[simp] theorem takeReaction_dsp (src cls : Nat) : (takeReaction src cls L).dsp = L.dsp := by
  have hreact (A : Lane) : (reactClass cls (plicRaise (3 + cls) A)).dsp = A.dsp := by simp
  unfold takeReaction
  exact ((ite_keeps (g := Lane.dsp) _ (winTrigger_dsp _ 1)).trans (hreact _)).trans (ite_keeps (g := Lane.dsp) _ rfl)

@[simp] theorem raiseCounted_dsp (src : Nat) : (raiseCounted src L).dsp = L.dsp := ite_keeps (g := Lane.dsp) _ rfl

@[simp] theorem raiseCore_dsp (src : Nat) : (raiseCore src L).1.dsp = L.dsp := by
  cases hlock : L.b F.LSM_CTL_LOCK with
  | false =>
    rw [raiseCore_unlocked hlock]
    exact raiseCounted_dsp L src
  | true =>
    rcases Nat.lt_or_ge (raiseCount L src) (lsmThresh L src) with hbelow | hhit
    · cases hf : forcedClass src with
      | none => rw [raiseCore_below hlock hf hbelow, raiseCounted_dsp]
      | some f => rw [raiseCore_forced_below hlock hf hbelow, takeReaction_dsp, raiseCounted_dsp]
    · cases hf : forcedClass src with
      | none => rw [raiseCore_table hlock hf hhit, takeReaction_dsp, raiseCounted_dsp]
      | some f =>
        rw [raiseCore_forced_table hlock hf hhit, takeReaction_dsp]
        exact (ite_keeps (g := Lane.dsp) _ (takeReaction_dsp _ src f)).trans (raiseCounted_dsp L src)

@[simp] theorem raiseRec_dsp (src : Nat) : (raiseRec src L).dsp = L.dsp := by
  simp only [raiseRec]
  split <;> simp

/-! What follows from a raising (R203) -/

/-- The control DSP beside the waits of its pending sources and the outputs it holds. -/
def dspKept (L : Lane) : DspSt := { L.dsp with wait := [], out := [] }

theorem dspKept_of_dsp {L K : Lane} (h : K.dsp = L.dsp) : dspKept K = dspKept L := by rw [dspKept, h]; rfl

@[simp] theorem dspKept_cdspPend (n : Nat) : dspKept (cdspPend n L) = dspKept L := by
  unfold cdspPend
  split
  · exact dspKept_of_dsp (raiseRec_dsp _ _)
  · rfl

@[simp] theorem dspKept_meFlush : dspKept (meFlush L) = dspKept L := by
  refine forEach_keeps (fun e a => forEach_keeps (fun v b => ?_) _ a) _ L
  split
  · exact (dspKept_cdspPend _ _).trans (dspKept_of_dsp (setMe_dsp ..))
  · rfl

@[simp] theorem eccNote_dsp (k : UpsetKind) (m a : Nat) : (eccNote k m a L).dsp = L.dsp := by
  simp [eccNote, apply_ite Lane.dsp]

@[simp] theorem eccFlush_dsp : (eccFlush L).dsp = L.dsp := by
  refine (foldl_keeps (g := Lane.dsp) (fun a e => ?_) _ _).trans rfl
  split <;> simp

@[simp] theorem blockFlush_dsp : (blockFlush L).dsp = L.dsp :=
  forEach_keeps (fun e a => ite_keeps _ (by simp [setMe])) _ L

@[simp] theorem dspKept_raise (src : Nat) : dspKept (raise src L) = dspKept L := by
  simp [raise, settle, dspKept_of_dsp (blockFlush_dsp _), dspKept_of_dsp (eccFlush_dsp _), dspKept_of_dsp (raiseRec_dsp _ _)]

/-! Memory as the control DSP writes it (R38, R207) -/

theorem dspKept_eccRaise (k : UpsetKind) (m a : Nat) : dspKept (eccRaise k m a L) = dspKept L := by
  unfold eccRaise
  split <;> simp [dspKept_of_dsp (eccNote_dsp _ _ _ _)]

theorem dspKept_eccRead (m a : Nat) : dspKept (eccRead m a L).2 = dspKept L := by
  have hlook := dspKept_of_dsp (eccLook_dsp L m a)
  unfold eccRead
  split
  · next h => rw [h] at hlook; exact hlook
  · next h => rw [h] at hlook; exact (dspKept_eccRaise _ _ _ _).trans hlook

theorem dspKept_eccScan (ws : List Nat) : dspKept (eccScan L ws).2 = dspKept L := by
  induction ws generalizing L with
  | nil => rfl
  | cons w ws ih =>
    rw [eccScan]
    split
    · exact ih L
    · next m _ =>
      dsimp only
      split
      · exact (ih _).trans (dspKept_eccRead L m w)
      · exact dspKept_eccRead L m w

theorem dspKept_writeBytes (a : Nat) (bs : List Byte) : dspKept (writeBytes a bs L).2 = dspKept L := by
  unfold writeBytes
  dsimp only
  split
  · exact dspKept_eccScan L _
  · exact (dspKept_of_dsp (wrBytes_dsp _ a bs)).trans (dspKept_eccScan L _)

theorem dspKept_outOne (o : DspOut) : dspKept (outOne L o) = dspKept L := by
  cases o with
  | store a bs => exact dspKept_writeBytes L a bs
  | bell code => exact dspKept_of_dsp (plicRaise_dsp _ _)

/-- Releasing held outputs leaves the control DSP as it is beside them. -/
theorem dspKept_outCycle (k : Nat) : dspKept (outCycle k L) = dspKept L :=
  (foldl_keeps (f := fun a (o : DspOut × Nat) => outOne a o.1) (fun a o => dspKept_outOne a o.1) _ _).trans rfl

end
end Sys2Proof.Machine
end

section
/-! SUPPORT. Proof of the statement about the control DSP's events: the end of what runs, doorbells, debug, and the entry of an
interrupt. -/

namespace Sys2Proof.Machine

/-! An event that finds nothing to act on (log entry 3), and one that acts -/

theorem exec_of_onLane_same {l : LaneId} {s : State} {c : Instr} {f : Lane → Lane} (hc : exec c s = .next (s.onLane l f))
    (hf : f (s.lane l) = s.lane l) : exec c s = .next s := by
  rw [hc, onLane_eq_self hf]

section
variable {L : Lane}

/-! The end of what runs (R193, R208) -/

theorem budgetOut_iff : budgetOut L = true ↔ L.dsp.budget = some 0 := decide_eq_true_iff

theorem overrun_ends (hlive : L.live = true) (htask : taskOn L = true) (hout : budgetOut L = true)
    (hhalt : L.b F.CDSP_STAT_HALTED = false) : overrun L = plicRaise 55 (raise 0x029 ((taskEnd 2 L).inc F.CDSP_ERR_OVR_CNT)) :=
  if_pos ⟨hlive, htask, hout, by simp [hhalt]⟩

theorem overrun_same (h : taskOn L = false ∨ budgetOut L = false) : overrun L = L := by
  refine if_neg fun ⟨_, htask, hout, _⟩ => ?_
  rcases h with h | h <;> simp_all

theorem illegal_task {src : Nat} (h : taskOn (raise src (L.inc F.CDSP_ERR_ILL_CNT)) = true) :
    illegal src L = plicRaise 55 (taskEnd 3 (raise src (L.inc F.CDSP_ERR_ILL_CNT))) := by
  simp [illegal, h]

theorem illegal_noTask {src : Nat} (h : taskOn (raise src (L.inc F.CDSP_ERR_ILL_CNT)) = false) :
    illegal src L = plicRaise 55 ((setFlow default ((landDue true (outCycle 2
      (raise src (L.inc F.CDSP_ERR_ILL_CNT)))).putN F.CDSP_STAT_STATE 0)).setB F.CDSP_STAT_BANK false) := by
  simp [illegal, h]

/-- The stop of both copies (R208). -/
def lockstepStopped (A : Lane) : Lane := plicRaise 55 (raise 0x028 ((A.setB F.CDSP_STAT_LSTOP true).putN F.CDSP_STAT_STATE 3))

/-- The lane with what the CDSP holds discarded (R208). -/
def outDiscarded (L : Lane) : Lane := { L with dsp := { L.dsp with out := [] } }

theorem cdspLockstep_stops (hstop : L.b F.CDSP_STAT_LSTOP = false) : cdspLockstep L =
    lockstepStopped (if taskOn (outDiscarded L) then taskEnd 4 (outDiscarded L) else outDiscarded L) :=
  if_neg (Bool.eq_false_iff.mp hstop)

theorem cdspLockstep_task (hstop : L.b F.CDSP_STAT_LSTOP = false) (htask : taskOn (outDiscarded L) = true) :
    cdspLockstep L = lockstepStopped (taskEnd 4 (outDiscarded L)) := by
  rw [cdspLockstep_stops hstop, if_pos htask]

theorem cdspLockstep_noTask (hstop : L.b F.CDSP_STAT_LSTOP = false) (htask : taskOn (outDiscarded L) = false) :
    cdspLockstep L = lockstepStopped (outDiscarded L) := by
  rw [cdspLockstep_stops hstop, if_neg (Bool.eq_false_iff.mp htask)]

theorem cdspLockstep_stopped (hstop : L.b F.CDSP_STAT_LSTOP = true) : cdspLockstep L = L := if_pos hstop

/-! Debug (R209) -/

theorem dbgHalt_now (hdbg : debugAllowed L = true) (hhalt : L.b F.CDSP_STAT_HALTED = false)
    (hstop : L.b F.CDSP_STAT_LSTOP = false) (hredir : (dspBank L).redir = none) : dbgHalt L = haltNow L := by
  simp [dbgHalt, hdbg, hhalt, hstop, noSlot_of_none hredir]

theorem dbgHalt_refused (hdbg : debugAllowed L = false) : dbgHalt L = L := by simp [dbgHalt, hdbg]

theorem dbgResume_refused (hdbg : debugAllowed L = false) : dbgResume L = L := by simp [dbgResume, hdbg]

/-- RESUME clears HALTED in both registers; beside them it withdraws the halt request to the other lanes at most. -/
theorem dbgResume_shape (hdbg : debugAllowed L = true) (hhalt : L.b F.CDSP_STAT_HALTED = true) : ∃ m, dbgResume L =
    { (L.setB F.CDSP_STAT_HALTED false).setB F.CDSP_DBG_CTL_HALTED false with lsm := m } :=
  ⟨_, if_pos ⟨hdbg, hhalt⟩⟩

end

section
variable {l : LaneId} {s : State}

/-- The lane as STEP fetches from it (R209). -/
def stepFetch (L : Lane) : Option Word64 × Lane := readD (pBase + 8 * (dspBank L).pc) (L.setB F.CDSP_STAT_HALTED false)

theorem cdspStep_refused (h : debugAllowed (s.lane l) = false ∨ (s.lane l).b F.CDSP_STAT_HALTED = false) :
    exec (.cdspStep l) s = .next s := by
  refine if_neg fun ⟨_, hdbg, hhalt, _⟩ => ?_
  rcases h with h | h <;> simp_all

variable (hlive : (s.lane l).live = true) (hdbg : debugAllowed (s.lane l) = true)
  (hhalt : (s.lane l).b F.CDSP_STAT_HALTED = true) (hst : (s.lane l).n F.CDSP_STAT_STATE = 1)
include hlive hdbg hhalt hst

theorem cdspStep_failed (hread : (stepFetch (s.lane l)).1 = none) : exec (.cdspStep l) s =
    .next (s.setLane l ((illegal 0x02A (stepFetch (s.lane l)).2).setB F.CDSP_STAT_HALTED true)) := by
  rw [stepFetch] at hread
  refine (if_pos ⟨hlive, hdbg, hhalt, .inl hst⟩).trans ?_
  simp only [hread]
  rfl

theorem cdspStep_decoded {w : Word64} {M : Lane} {i : Instr} {t : State} (hread : stepFetch (s.lane l) = (some w, M))
    (hdec : decDsp l w = some i) (hrun : dspRun i (s.setLane l M) = .next t) : exec (.cdspStep l) s =
    .next (t.onLane l (fun A => (A.setB F.CDSP_STAT_HALTED true).setB F.CDSP_DBG_CTL_HALTED true)) := by
  rw [stepFetch] at hread
  refine (if_pos ⟨hlive, hdbg, hhalt, .inl hst⟩).trans ?_
  simp only [hread, hdec, hrun]

end

/-! Interrupts (R203 to R206) -/

/-- The source taken is the lowest that is pending and enabled. -/
theorem irqNext_lowest {L : Lane} {n : Nat} (h : irqNext L = some n) :
    n < 8 ∧ L.bit F.CDSP_STAT_IRQ_PEND n = true ∧ L.bit F.CDSP_CFG_IEN n = true ∧
    ∀ m, m < n → (L.bit F.CDSP_STAT_IRQ_PEND m && L.bit F.CDSP_CFG_IEN m) = false := by
  obtain ⟨hn, hmem, hlow⟩ := List.find?_range_eq_some.mp h
  obtain ⟨hpend, hen⟩ := Bool.and_eq_true_iff.mp hn
  exact ⟨List.mem_range.mp hmem, hpend, hen, fun m hm => by simpa only [Bool.not_eq_eq_eq_not, Bool.not_true] using hlow m hm⟩

theorem irqEntry_none {L : Lane} (h : irqNext L = none) : irqEntry L = L := by simp [irqEntry, h]

/-- Results that become visible leave the CDSP beside its banks and its moving base and length registers. -/
theorem landOne_shape (w : DspWr) (b : DspBank) (D : DspSt) : ∃ p q, (landOne w b D).2 = { D with bM := p, lM := q } := by
  unfold landOne
  split <;> exact ⟨_, _, rfl⟩

theorem landAll_shape (ws : List DspWr) (b : DspBank) (D : DspSt) : ∃ p q, (landAll ws b D).2 = { D with bM := p, lM := q } := by
  induction ws generalizing b D with
  | nil => exact ⟨D.bM, D.lM, rfl⟩
  | cons w ws ih =>
    obtain ⟨p, q, h⟩ := landOne_shape w b D
    obtain ⟨p', q', h'⟩ := ih (landOne w b D).1 (landOne w b D).2
    exact ⟨p', q', by rw [landAll, h', h]⟩

theorem landDue_shape (all : Bool) (L : Lane) : ∃ m h p q, landDue all L =
    { L with dsp := { L.dsp with main := m, shadow := h, bM := p, lM := q } } := by
  unfold landDue
  dsimp only
  generalize (dspBank L).fly.filter (fun w => all || decide (w.due ≤ (dspBank L).cyc)) = due
  generalize { dspBank L with fly := (dspBank L).fly.filter (fun w => !(all || decide (w.due ≤ (dspBank L).cyc))) } = b
  obtain ⟨p, q, h⟩ := landAll_shape due b L.dsp
  rw [h]
  obtain ⟨m, k, hset⟩ := setBank_shape (landAll due b L.dsp).1 { L with dsp := { L.dsp with bM := p, lM := q } }
  exact ⟨m, k, p, q, hset⟩

/-- An interrupt that is taken while no task runs: the lane before the cycles of the entry pass. -/
theorem irqEntry_idle {L : Lane} {n : Nat} (hlive : L.live = true) (hnext : irqNext L = some n) (hst : L.n F.CDSP_STAT_STATE = 0)
    (hhalt : L.b F.CDSP_STAT_HALTED = false) (hstop : L.b F.CDSP_STAT_LSTOP = false) :
    ∃ k M, irqEntry L = dspCycle k M ∧ M.dsp.fromIdle = true ∧ M.dsp.saved = none ∧ M.dsp.out = L.dsp.out ∧ M.mem = L.mem := by
  have htaken : L.live ∧ (L.n F.CDSP_STAT_STATE = 0 ∨ L.n F.CDSP_STAT_STATE = 1) ∧ ¬ L.b F.CDSP_STAT_HALTED ∧
      ¬ L.b F.CDSP_STAT_LSTOP ∧ (L.n F.CDSP_STAT_STATE = 0 ∨ irqBoundary L) :=
    ⟨hlive, .inl hst, by simp [hhalt], by simp [hstop], .inl hst⟩
  simp only [irqEntry, hnext]
  rw [if_pos htaken]
  have hlanded : (if L.b F.CDSP_CFG_POLICY then L else landDue true L).dsp.out = L.dsp.out ∧
      (if L.b F.CDSP_CFG_POLICY then L else landDue true L).mem = L.mem := by
    split
    · exact ⟨rfl, rfl⟩
    · obtain ⟨m, h, p, q, heq⟩ := landDue_shape true L
      rw [heq]
      exact ⟨rfl, rfl⟩
  generalize (if L.b F.CDSP_CFG_POLICY then L else landDue true L) = A at hlanded ⊢
  refine ⟨_, _, rfl, ?_, ?_, ?_, ?_⟩
  · rw [setB_dsp, setBank_fromIdle]
    exact decide_eq_true hst
  · rw [setB_dsp, setBank_saved]
    exact if_neg (by omega)
  · rw [setB_dsp, setBank_out]
    exact hlanded.1
  · rw [setB_mem, setBank_mem]
    exact hlanded.2

/-- The cycles that pass do not change where a handler returns to, whatever held outputs they release. -/
theorem dspCycle_return (k : Nat) (L : Lane) :
    (dspCycle k L).dsp.fromIdle = L.dsp.fromIdle ∧ (dspCycle k L).dsp.saved = L.dsp.saved := by
  have hout := dspKept_outCycle L k
  have hidle : (dspKept (outCycle k L)).fromIdle = (dspKept L).fromIdle := by rw [hout]
  have hsaved : (dspKept (outCycle k L)).saved = (dspKept L).saved := by rw [hout]
  rw [dspCycle_eq]
  exact ⟨setBank_fromIdle.trans hidle, setBank_saved.trans hsaved⟩

theorem dspCycle_budget {L : Lane} {k n : Nat} (hb : L.dsp.budget = some n) (hout : L.dsp.out = []) :
    (dspCycle k L).dsp.budget = some (n - k) := by
  rw [dspCycle_none k hout]
  simp [dspCounts, hb]

/-! The doorbell (R188, R203) -/

theorem showDsp_dbPend {L : Lane} (hs : smSorted L.regs = true) (d : StorageDie) :
    (showBlock 8 L d).b F.CDSP_DB_PEND = L.bit F.CDSP_STAT_IRQ_PEND 5 := by
  have hagu := put_sorted L F.CDSP_STAT_AGU (if aguNow L then 1 else 0) hs
  have hpend := put_sorted _ F.CDSP_DB_PEND (if L.bit F.CDSP_STAT_IRQ_PEND 5 then 1 else 0) hagu
  have hpc := put_sorted _ F.CDSP_DBG_PC_PC (toW (dspBank L).pc) hpend
  have hfld : (showBlock 8 L d).fld F.CDSP_DB_PEND = toW ((if L.bit F.CDSP_STAT_IRQ_PEND 5 then 1 else 0 : Word).toNat % 2 ^ 1) :=
    calc
      _ = _ := fld_put_other (dbgData L) hpc (by decide)
      _ = _ := fld_put_other _ hpend (by decide)
      _ = _ := (fld_put _ _ _ _ hagu (fun _ => rfl)).trans (if_pos rfl)
  rw [Lane.b, hfld]
  cases L.bit F.CDSP_STAT_IRQ_PEND 5 <;> rfl

/-- Settles O38: each event is its effect on the lane, case by case of what it finds. What the cycles of an interrupt's entry set
off by held outputs does not reach the handler's return (`dspCycle_return`). -/
theorem cdspEventsStopStartAndInterrupt : Obligations.CdspEventsStopStartAndInterrupt := by
  intro l s v n L L0 T R stop hlive
  refine ⟨fun htask hout hhalt => exec_of_onLane rfl (overrun_ends hlive htask hout hhalt),
    fun h => exec_of_onLane_same rfl (overrun_same h), rfl, budgetOut_iff, dspCycle_budget, fun hrun htask => ?_,
    fun hrun htask => ?_, fun hrun => ?_, exec_of_whenLive hlive rfl rfl, fun hstop htask => exec_of_whenLive hlive rfl (cdspLockstep_task hstop htask),
    fun hstop htask => exec_of_whenLive hlive rfl (cdspLockstep_noTask hstop htask),
    fun hstop => exec_of_whenLive_same hlive rfl (cdspLockstep_stopped hstop),
    fun hdbg hhalt hstop hredir => exec_of_whenLive hlive rfl (dbgHalt_now hdbg hhalt hstop hredir), fun hdbg => ?_,
    fun hdbg hhalt => ?_, fun hhalt => cdspStep_refused (.inr hhalt),
    fun hdbg hhalt hst hread => cdspStep_failed hlive hdbg hhalt hst hread, fun w M hdbg hhalt hst hread hdec hrun => ?_,
    fun hnone => exec_of_onLane_same rfl (irqEntry_none hnone), fun hnext hst hhalt hstop => ⟨rfl, ?_⟩,
    fun hs => showDsp_dbPend hs s.sto, irqNext_lowest⟩
  · exact exec_of_onLane rfl ((if_pos hrun).trans (illegal_task htask))
  · exact exec_of_onLane rfl ((if_pos hrun).trans (illegal_noTask htask))
  · exact exec_of_onLane_same rfl (if_neg (Bool.eq_false_iff.mp hrun))
  · exact ⟨exec_of_whenLive_same hlive rfl (dbgHalt_refused hdbg), exec_of_whenLive_same hlive rfl (dbgResume_refused hdbg),
      cdspStep_refused (.inl hdbg)⟩
  · obtain ⟨m, hresume⟩ := dbgResume_shape hdbg hhalt
    exact ⟨_, exec_of_whenLive hlive rfl hresume, rfl, rfl, rfl⟩
  · have hissue : dspRun (.cdspNop l) (s.setLane l M) = .next (s.setLane l (issue false id M)) := by
      have hnop := exec_dspDo_issue (c := .cdspNop l) (s := s.setLane l M) (ok := fun _ => true)
        (by rwa [lane_setLane_same]) rfl rfl
      rwa [lane_setLane_same, setLane_setLane] at hnop
    rw [cdspStep_decoded hlive hdbg hhalt hst hread hdec hissue, State.onLane, lane_setLane_same, setLane_setLane]
  · obtain ⟨k, M, hentry, hidle, hsaved, hout, hmem⟩ := irqEntry_idle hlive hnext hst hhalt hstop
    obtain ⟨hkidle, hksaved⟩ := dspCycle_return k M
    rw [hentry]
    exact ⟨hkidle.trans hidle, hksaved.trans hsaved, fun hnone => (dspCycle_mem k (hout.trans hnone)).trans hmem⟩

end Sys2Proof.Machine
end

section
/-! SUPPORT. Proof of the statement about conversions and the sticky flags of the loop engine: first words of memory that read
back as written, then the STATUS words that a flag write clears, and the result register of an input. -/

namespace Sys2Proof.Machine

/-! Bytes and words of memory read back as written (R13) -/

section
variable {L K : Lane}

theorem wrBytes_sorted (a : Nat) (vs : List Byte) (hs : smSorted L.mem = true) : smSorted (L.wrBytes a vs).mem = true := by
  induction vs generalizing L a with
  | nil => exact hs
  | cons v vs ih => exact ih (a + 1) (smPut_sorted _ _ _ _ hs)

theorem rdB_wrBytes_outside {a b : Nat} {vs : List Byte} (hs : smSorted L.mem = true) (hb : b < a ∨ a + vs.length ≤ b) :
    (L.wrBytes a vs).rdB b = L.rdB b := by
  induction vs generalizing L a with
  | nil => rfl
  | cons v vs ih =>
    rw [List.length_cons] at hb
    have hbyte : (L.wrB a v).rdB b = L.rdB b := by rw [rdB_wrB L a b v hs, if_neg (by omega)]
    exact (ih (smPut_sorted _ _ _ _ hs) (by omega)).trans hbyte

theorem rdBytes_wrBytes_same (a : Nat) (vs : List Byte) (hs : smSorted L.mem = true) :
    (L.wrBytes a vs).rdBytes a vs.length = vs := by
  induction vs generalizing L a with
  | nil => rfl
  | cons v vs ih =>
    have hput : smSorted (L.wrB a v).mem = true := smPut_sorted _ _ _ _ hs
    have hfirst : ((L.wrB a v).wrBytes (a + 1) vs).rdB a = v := by
      rw [rdB_wrBytes_outside hput (.inl (Nat.lt_succ_self a)), rdB_wrB L a a v hs, if_pos rfl]
    exact congrArg₂ List.cons hfirst (ih (a + 1) hput)

theorem rdBytes_congr {a n : Nat} (h : ∀ b, a ≤ b → b < a + n → K.rdB b = L.rdB b) : K.rdBytes a n = L.rdBytes a n := by
  induction n generalizing a with
  | zero => rfl
  | succ n ih =>
    exact congrArg₂ List.cons (h a (by omega) (by omega)) (ih fun b hlo hhi => h b (by omega) (by omega))

theorem rdW_congr {a : Nat} (h : ∀ b, a ≤ b → b < a + 4 → K.rdB b = L.rdB b) : K.rdW a = L.rdW a :=
  congrArg leWord (rdBytes_congr h)

/-- The four bytes of a word, put together again: bit `i` stands in byte `i / 8`. -/
theorem leWord_wordBytes (w : Word) : leWord (wordBytes w) = w := by
  apply BitVec.eq_of_getLsbD_eq
  intro i hi
  simp only [leWord, wordBytes, BitVec.getLsbD_or, BitVec.getLsbD_shiftLeft, BitVec.getLsbD_setWidth,
    BitVec.getLsbD_ushiftRight]
  interval_cases i <;> simp

theorem rdW_wrW_same (a : Nat) (w : Word) (hs : smSorted L.mem = true) : (L.wrW a w).rdW a = w :=
  (congrArg leWord (rdBytes_wrBytes_same a (wordBytes w) hs)).trans (leWord_wordBytes w)

theorem rdB_wrW_outside {a b : Nat} (w : Word) (hs : smSorted L.mem = true) (hb : b < a ∨ a + 4 ≤ b) :
    (L.wrW a w).rdB b = L.rdB b := rdB_wrBytes_outside (vs := wordBytes w) hs hb

end

/-! Reads and writes of memory that meet no error (R38, R431) -/

/-- Memory in which no read meets an error: no upset is latent and Pepper is not armed; its addresses rise. -/
structure CleanMem (L : Lane) : Prop where
  upsets : L.upsets = []
  unarmed : L.b F.PPR_CTL_ARMED = false
  sorted : smSorted L.mem = true

section
variable {L : Lane} (hc : CleanMem L)
include hc

theorem CleanMem.eccSuspects (a n : Nat) : eccSuspects L a n = [] := by
  simp [Machine.eccSuspects, hc.upsets, hc.unarmed, sortAsc]

theorem CleanMem.readW (a : Nat) : readW a L = (some (L.rdW a), L) := by
  simp [Machine.readW, hc.eccSuspects, eccScan]

theorem CleanMem.writeBytes (a : Nat) (bs : List Byte) : writeBytes a bs L = (true, L.wrBytes a bs) := by
  have hparts : (partWords a bs.length).filter (fun w => (Machine.eccSuspects L w 1).contains w) = [] := by
    simp [hc.eccSuspects]
  have hkeep : { L.wrBytes a bs with upsets := [] } = L.wrBytes a bs := by
    rw [← hc.upsets, ← wrBytes_upsets L a bs]
  simp only [Machine.writeBytes, hparts, eccScan, wrBytes_upsets, hc.upsets, List.filter_nil]
  exact congrArg (Prod.mk true) hkeep

theorem CleanMem.wrW (a : Nat) (w : Word) : CleanMem (L.wrW a w) where
  upsets := (wrBytes_upsets ..).trans hc.upsets
  unarmed := (b_of_regs (wrBytes_regs ..) _).trans hc.unarmed
  sorted := wrBytes_sorted a _ hc.sorted

theorem CleanMem.slotStatus (k : Nat) (g : Word → Word) :
    slotStatus k g L = L.wrW (slotSt k + 24) (g (L.rdW (slotSt k + 24))) := by
  simp only [Machine.slotStatus, hc.readW, writeW, hc.writeBytes, Lane.wrW]

end

/-! STATUS words that a write to LPE_SATn or LPE_TRIPn clears (R220, R233) -/

/-- The address of a slot's STATUS word (R221). -/
def statusAddr (k : Nat) : Nat := slotSt k + 24

/-- STATUS of the slots `32 * n + b`, for the bits `b` of a list that are set in `v`, cut to a mask. -/
def maskStatus (n : Nat) (v m : Word) (bs : List Nat) (L : Lane) : Lane :=
  forEach bs (fun b a => if bitAt v b then slotStatus (32 * n + b) (fun w => w &&& m) a else a) L

theorem lpeSat_eq (n : Nat) (v : Word) (L : Lane) :
    lpeSat n v L = maskStatus n v 0xFFFFFFF0 (List.range 32) (L.clrF (F.LPE_SATn_SAT n) v) := rfl

theorem lpeTripClr_eq (n : Nat) (v : Word) (L : Lane) :
    lpeTripClr n v L = maskStatus n v 0xFFFF007F (List.range 32) (L.clrF (F.LPE_TRIPn_TRIP n) v) := rfl

/-- A byte lies in no STATUS word of the slots `32 * n + b` whose bit is set in `v`. -/
def offStatus (n : Nat) (v : Word) (bs : List Nat) (a : Nat) : Prop :=
  ∀ b ∈ bs, bitAt v b = true → a < statusAddr (32 * n + b) ∨ statusAddr (32 * n + b) + 4 ≤ a

theorem offStatus_cons {n : Nat} {v : Word} {b : Nat} {bs : List Nat} {a : Nat} : offStatus n v (b :: bs) a ↔
    (bitAt v b = true → a < statusAddr (32 * n + b) ∨ statusAddr (32 * n + b) + 4 ≤ a) ∧ offStatus n v bs a :=
  List.forall_mem_cons

/-- STATUS words of two slots share no byte. -/
theorem statusAddr_apart {k j a : Nat} (hne : k ≠ j) (hlo : statusAddr k ≤ a) (hhi : a < statusAddr k + 4) :
    a < statusAddr j ∨ statusAddr j + 4 ≤ a := by
  simp only [statusAddr, slotSt] at *
  omega

section
variable {L : Lane} {n : Nat} {v m : Word}

theorem maskStatus_cons_clear {b : Nat} {bs : List Nat} (hb : bitAt v b = false) :
    maskStatus n v m (b :: bs) L = maskStatus n v m bs L := by
  simp [maskStatus, forEach, hb]

theorem maskStatus_cons_set {b : Nat} {bs : List Nat} (hc : CleanMem L) (hb : bitAt v b = true) : maskStatus n v m (b :: bs) L =
    maskStatus n v m bs (L.wrW (statusAddr (32 * n + b)) (L.rdW (statusAddr (32 * n + b)) &&& m)) := by
  simp [maskStatus, forEach, hb, hc.slotStatus, statusAddr]

theorem maskStatus_regs (hc : CleanMem L) (bs : List Nat) : (maskStatus n v m bs L).regs = L.regs := by
  induction bs generalizing L with
  | nil => rfl
  | cons b bs ih =>
    cases hb : bitAt v b with
    | false => rw [maskStatus_cons_clear hb, ih hc]
    | true => rw [maskStatus_cons_set hc hb, ih (hc.wrW _ _), Lane.wrW, wrBytes_regs]

theorem maskStatus_rdB {bs : List Nat} (hc : CleanMem L) {a : Nat} (ha : offStatus n v bs a) :
    (maskStatus n v m bs L).rdB a = L.rdB a := by
  induction bs generalizing L with
  | nil => rfl
  | cons b bs ih =>
    obtain ⟨hfirst, hrest⟩ := offStatus_cons.mp ha
    cases hb : bitAt v b with
    | false => rw [maskStatus_cons_clear hb, ih hc hrest]
    | true => rw [maskStatus_cons_set hc hb, ih (hc.wrW _ _) hrest, rdB_wrW_outside _ hc.sorted (hfirst hb)]

/-- Each STATUS word that `v` names is cut to the mask: its own step cuts it, the steps of other slots leave it. -/
theorem maskStatus_rdW {bs : List Nat} (hc : CleanMem L) (hnd : bs.Nodup) {b : Nat} (hmem : b ∈ bs) (hb : bitAt v b = true) :
    (maskStatus n v m bs L).rdW (statusAddr (32 * n + b)) = L.rdW (statusAddr (32 * n + b)) &&& m := by
  induction bs generalizing L with
  | nil => exact absurd hmem List.not_mem_nil
  | cons c bs ih =>
    obtain ⟨hnotin, hnd⟩ := List.nodup_cons.mp hnd
    cases hmem with
    | head =>
      have hoff (a : Nat) (hlo : statusAddr (32 * n + b) ≤ a) (hhi : a < statusAddr (32 * n + b) + 4) : offStatus n v bs a :=
        fun d hd _ => statusAddr_apart (fun e => hnotin ((Nat.add_left_cancel e : b = d) ▸ hd)) hlo hhi
      rw [maskStatus_cons_set hc hb, rdW_congr fun a hlo hhi => maskStatus_rdB (hc.wrW _ _) (hoff a hlo hhi),
        rdW_wrW_same _ _ hc.sorted]
    | tail _ hin =>
      cases hcbit : bitAt v c with
      | false => rw [maskStatus_cons_clear hcbit, ih hc hnd hin]
      | true =>
        have hne : 32 * n + b ≠ 32 * n + c := fun e => hnotin (Nat.add_left_cancel e ▸ hin)
        rw [maskStatus_cons_set hc hcbit, ih (hc.wrW _ _) hnd hin,
          rdW_congr fun a hlo hhi => rdB_wrW_outside _ hc.sorted (statusAddr_apart hne hlo hhi)]

/-- A write of `v` to a register of sticky flags, whose slots' STATUS words are cut to a mask: the flags named clear, and of the
other fields and of memory only those words change. -/
theorem clrF_maskStatus {f : Fld} (hw : f.w = 32) (hf : F.PPR_CTL_ARMED.key ≠ f.key) (hreg : smSorted L.regs = true)
    (hc : CleanMem L) :
    let K := maskStatus n v m (List.range 32) (L.clrF f v)
    K.fld f = L.fld f &&& ~~~ v ∧
    (∀ b, b < 32 → v.getLsbD b = true → K.rdW (statusAddr (32 * n + b)) = L.rdW (statusAddr (32 * n + b)) &&& m) ∧
    (∀ a, (∀ b, b < 32 → v.getLsbD b = true → a < statusAddr (32 * n + b) ∨ statusAddr (32 * n + b) + 4 ≤ a) →
      K.rdB a = L.rdB a) ∧
    (∀ g : Fld, g.key ≠ f.key → K.fld g = L.fld g) := by
  have hother {g : Fld} (hg : g.key ≠ f.key) : (L.clrF f v).fld g = L.fld g := fld_put_other _ hreg hg
  have hclr : CleanMem (L.clrF f v) := ⟨hc.upsets, by rw [Lane.b, hother hf]; exact hc.unarmed, hc.sorted⟩
  have hfld (g : Fld) := fld_of_regs (maskStatus_regs (n := n) (v := v) (m := m) hclr (List.range 32)) g
  refine ⟨(hfld f).trans (clrF_fld_same v hreg hw), fun b hlt hb => ?_, fun a ha => ?_, fun g hg => (hfld g).trans (hother hg)⟩
  · exact maskStatus_rdW hclr List.nodup_range (List.mem_range.mpr hlt) hb
  · exact maskStatus_rdB hclr fun b hmem hb => ha b (List.mem_range.mp hmem) hb

end

/-! The result register of an input (R246) -/

theorem n_putN_same {L : Lane} {f : Fld} {k : Nat} (hs : smSorted L.regs = true) (hk : k < 2 ^ f.w) (hw : f.w ≤ 32) :
    (L.putN f k).n f = k := by
  have h32 : k < 2 ^ 32 := lt_of_lt_of_le hk (Nat.pow_le_pow_right Nat.two_pos hw)
  have hcut : (toW k).toNat % 2 ^ f.w = k := by
    rw [toW, BitVec.toNat_ofNat, Nat.mod_eq_of_lt h32, Nat.mod_eq_of_lt hk]
  rw [Lane.n, putN_eq, fld_put L f f _ hs (fun _ => rfl), if_pos rfl, hcut, toW, BitVec.toNat_ofNat, Nat.mod_eq_of_lt h32]

theorem fld_putN_other {L : Lane} {f g : Fld} (k : Nat) (hs : smSorted L.regs = true) (h : g.key ≠ f.key) :
    (L.putN f k).fld g = L.fld g := fld_put_other _ hs h

/-- Fields of two registers have two homes. -/
theorem key_ne_of_addr_ne {f g : Fld} (h : f.addr ≠ g.addr) (hf : f.lo < 32) (hg : g.lo < 32) : f.key ≠ g.key := by
  simp only [Fld.key]
  omega

/-- ADC_RESn with VALID set, a code and the number of its sequence. -/
def putResult (n code tag : Nat) (L : Lane) : Lane :=
  ((L.setB (F.ADC_RESn_VALID n) true).putN (F.ADC_RESn_CODE n) code).putN (F.ADC_RESn_TAG n) tag

/-- The count of conversions of an input stepped, as the loop engine sees it. -/
def countConv (n : Nat) (L : Lane) : Lane :=
  { L with lpe := { L.lpe with conv := setNth L.lpe.conv n (nth L.lpe.conv n 0 + 1) } }

section
variable {L : Lane} {n code tag : Nat}

theorem resCode_key_ne_resTag : (F.ADC_RESn_CODE n).key ≠ (F.ADC_RESn_TAG n).key := by
  simp [Fld.key, F.ADC_RESn_CODE, F.ADC_RESn_TAG]
theorem resValid_key_ne_resTag : (F.ADC_RESn_VALID n).key ≠ (F.ADC_RESn_TAG n).key := by
  simp [Fld.key, F.ADC_RESn_VALID, F.ADC_RESn_TAG]
theorem resValid_key_ne_resCode : (F.ADC_RESn_VALID n).key ≠ (F.ADC_RESn_CODE n).key := by
  simp [Fld.key, F.ADC_RESn_VALID, F.ADC_RESn_CODE]

/-- The three fields read as written, and a field of another register reads as before. -/
theorem putResult_fields (hs : smSorted L.regs = true) (hcode : code < 2 ^ 14) (htag : tag < 2 ^ 16) :
    (putResult n code tag L).n (F.ADC_RESn_CODE n) = code ∧ (putResult n code tag L).b (F.ADC_RESn_VALID n) = true ∧
    (putResult n code tag L).n (F.ADC_RESn_TAG n) = tag ∧
    ∀ f : Fld, f.addr ≠ (F.ADC_RESn_CODE n).addr → f.lo < 32 → (putResult n code tag L).fld f = L.fld f := by
  have hvalid : smSorted (L.setB (F.ADC_RESn_VALID n) true).regs = true := put_sorted _ _ _ hs
  have hres : smSorted ((L.setB (F.ADC_RESn_VALID n) true).putN (F.ADC_RESn_CODE n) code).regs = true := put_sorted _ _ _ hvalid
  refine ⟨?_, ?_, n_putN_same hres htag (by simp [F.ADC_RESn_TAG]), fun f haddr hlo => ?_⟩
  · rw [Lane.n, putResult, fld_putN_other tag hres resCode_key_ne_resTag]
    exact n_putN_same hvalid hcode (by simp [F.ADC_RESn_CODE])
  · rw [Lane.b, putResult, fld_putN_other tag hres resValid_key_ne_resTag, fld_putN_other code hvalid resValid_key_ne_resCode,
      setB_eq, fld_put L _ _ _ hs (fun _ => rfl), if_pos rfl]
    simp [F.ADC_RESn_VALID, toW]
  · have hkey {g : Fld} (hg : g.addr = (F.ADC_RESn_CODE n).addr) (hglo : g.lo < 32) : f.key ≠ g.key :=
      key_ne_of_addr_ne (hg ▸ haddr) hlo hglo
    have hTag : f.key ≠ (F.ADC_RESn_TAG n).key := hkey rfl (show 0 < 32 by decide)
    have hCode : f.key ≠ (F.ADC_RESn_CODE n).key := hkey rfl (show 16 < 32 by decide)
    have hValid : f.key ≠ (F.ADC_RESn_VALID n).key := hkey rfl (show 31 < 32 by decide)
    rw [putResult, fld_putN_other tag hres hTag, fld_putN_other code hvalid hCode, setB_eq, fld_put_other _ hs hValid]

end

/-! Conversions and sequences of a busy pair (R246, R271) -/

/-- The conversions of pair `p` act: the motor island runs and the pair has started a sequence. -/
def pairRuns (p : Nat) (L : Lane) : Prop := L.live = true ∧ L.out.motStopped = false ∧ L.bit F.ADC_STAT_BUSY p = true

theorem pairRuns_iff {p : Nat} {L : Lane} : (motRuns L && L.bit F.ADC_STAT_BUSY p) = true ↔ pairRuns p L := by
  simp [pairRuns, motRuns, and_assoc]

theorem adcFeeds_none {n : Nat} (h5 : n ≠ 5) (h12 : n ≠ 12) (hvdu : n < 14 ∨ 21 < n) (code : Nat) (L : Lane) :
    adcFeeds n code L = L := by
  have hrange : ¬ (14 ≤ n ∧ n ≤ 21) := by omega
  simp [adcFeeds, h5, h12, hrange]

section
variable {L : Lane} {p n : Nat}

theorem conversion_idle (h : ¬ pairRuns p L) (code : Option (BitVec 14)) : conversion p n code L = L := by
  rw [← pairRuns_iff, Bool.not_eq_true] at h
  simp [conversion, h]

theorem conversion_lost (h : pairRuns p L) (hin : (pairOf L p).ins.contains n = true) :
    conversion p n none L = plicRaise 66 (raise 0x08E (L.inc F.ADC_ERR_CONV_CNT)) := by
  rw [conversion, pairRuns_iff.mpr h, hin]
  rfl

/-- Without an injected offset the code is written as it is: it lies in 0 to 16383. -/
theorem conversion_code (h : pairRuns p L) (hin : (pairOf L p).ins.contains n = true)
    (hpep : pepper 0xB n (fun _ => true) L = (none, L)) (c : BitVec 14) : conversion p n (some c) L =
    adcFeeds n c.toNat (countConv n (putResult n c.toNat ((L.n (seqCnt p) + 1) % 65536) L)) := by
  have hcode : (min (max ((c.toNat : Int) + 0) 0) 16383).toNat = c.toNat := by omega
  simp only [conversion, pairRuns_iff.mpr h, hin, hpep, hcode, Bool.and_self, if_pos]
  rfl

theorem sequenceDone_idle (h : ¬ pairRuns p L) : sequenceDone p L = L := by
  rw [← pairRuns_iff] at h
  exact if_neg h

theorem sequenceDone_quiet (h : pairRuns p L) (hirq : (pairOf L p).irq = false) :
    sequenceDone p L = setPair p default ((L.setBit F.ADC_STAT_BUSY p false).incMod (seqCnt p)) := by
  simp [sequenceDone, pairRuns_iff.mpr h, hirq]

theorem sequenceDone_irq (h : pairRuns p L) (hirq : (pairOf L p).irq = true) : sequenceDone p L =
    cdspIrq (1 + p) (plicRaise 65 (setPair p default ((L.setBit F.ADC_STAT_BUSY p false).incMod (seqCnt p)))) := by
  simp [sequenceDone, pairRuns_iff.mpr h, hirq]

end

theorem seqCnt_fin (p : Fin 2) : seqCnt p.val = if p = 0 then F.ADC_SEQCNT_CNT0 else F.ADC_SEQCNT_CNT1 :=
  if_congr Fin.val_eq_zero_iff rfl rfl

/-- Settles O39: a conversion or a sequence acts where its pair runs; a flag write clears the flags named and cuts the STATUS words
of their slots, each of which is delivered where memory has no error. -/
theorem conversionsAndLoopFlags : Obligations.ConversionsAndLoopFlags := by
  intro l s p n c i v L q stat hit
  have hq : q = seqCnt p.val := (seqCnt_fin p).symm
  have hclean (hmem : memWf L.mem = true) (hups : L.upsets = []) (harm : L.b F.PPR_CTL_ARMED = false) : CleanMem L :=
    ⟨hups, harm, memWf_sorted hmem⟩
  have honly (K : Lane) : onlyLane l s (s.setLane l K) := onlyLane_onLane l s fun _ => K
  rw [hq]
  refine ⟨fun h hin => exec_of_onLane rfl (conversion_lost h hin), fun h hin h5 h12 hvdu hpep hs => ?_,
    fun h o => exec_of_onLane_same rfl (conversion_idle h o), fun h hirq => exec_of_onLane rfl (sequenceDone_quiet h hirq),
    fun h hirq => exec_of_onLane rfl (sequenceDone_irq h hirq), fun h => exec_of_onLane_same rfl (sequenceDone_idle h),
    fun hlive hs hmem hups harm => ?_, fun hlive hs hmem hups harm => ?_⟩
  · have hconv := conversion_code h hin hpep c
    rw [adcFeeds_none (Fin.val_ne_of_ne h5) (Fin.val_ne_of_ne h12) hvdu] at hconv
    have hnum : (L.n (seqCnt p.val) + 1) % 65536 < 2 ^ 16 := Nat.mod_lt _ (by decide)
    obtain ⟨hcode, hvalid, htag, hother⟩ := putResult_fields (n := n.val) hs c.isLt hnum
    refine ⟨_, exec_of_onLane rfl hconv, honly _, ?_⟩
    rw [lane_setLane_same]
    exact ⟨hcode, hvalid, htag, rfl, rfl, hother⟩
  · refine ⟨_, exec_of_whenLive hlive rfl (lpeSat_eq i.val v L), honly _, ?_⟩
    rw [lane_setLane_same]
    exact clrF_maskStatus rfl (by simp [Fld.key, F.PPR_CTL_ARMED, F.LPE_SATn_SAT]; omega) hs (hclean hmem hups harm)
  · refine ⟨_, exec_of_whenLive hlive rfl (lpeTripClr_eq i.val v L), honly _, ?_⟩
    rw [lane_setLane_same]
    exact clrF_maskStatus rfl (by simp [Fld.key, F.PPR_CTL_ARMED, F.LPE_TRIPn_TRIP]; omega) hs (hclean hmem hups harm)

end Sys2Proof.Machine
end

section
/-! SUPPORT. Proof of the statement about the events of a motor engine: an event acts on an engine that is live and whose table
record can be read, then what recovery, SAFE_OFF, overcurrent and ASC do to such an engine. -/

namespace Sys2Proof.Machine

/-! An event of an engine (R249, R250) -/

section
variable {l : LaneId} {s : State} {c : Instr} {e : Nat} {f : List Word → Lane → Lane}

theorem onEngine_unloaded {L : Lane} (h : L.b (F.MEe_STAT_LOADED e) = false) : onEngine e f L = L := by
  simp [onEngine, h]

theorem onEngine_table {L M : Lane} {r : List Word} (hlive : L.live = true) (hload : L.b (F.MEe_STAT_LOADED e) = true)
    (htab : meTable e L = (some r, M)) : onEngine e f L = meFlush (f r M) := by
  simp [onEngine, hlive, hload, htab]

theorem exec_of_unloaded (h : (s.lane l).b (F.MEe_STAT_LOADED e) = false)
    (hc : exec c s = .next (s.onLane l (onEngine e f))) : exec c s = .next s :=
  exec_of_onLane_same hc (onEngine_unloaded h)

/-- An event of an engine with table record `r` read (lane `M`) ends in what its effect makes of the two. -/
theorem exec_of_onEngine {r : List Word} {M K : Lane} (hlive : (s.lane l).live = true)
    (hload : (s.lane l).b (F.MEe_STAT_LOADED e) = true) (htab : meTable e (s.lane l) = (some r, M))
    (hc : exec c s = .next (s.onLane l (onEngine e f))) (hf : f r M = K) :
    exec c s = .next (s.setLane l (meFlush K)) :=
  exec_of_onLane hc (by rw [onEngine_table hlive hload htab, hf])

end

/-! Recovery from ASC (R267) -/

theorem ascRecover_forced {e : Nat} {L : Lane} (r : List Word) (h : L.b (F.MEe_STAT_FORCED e) = true) :
    ascRecover e r L = L := by
  simp [ascRecover, h]

/-- What recovery asks of an engine: the ladder put it into ASC, it is neither forced nor out of attempts, and its link and its
speed are below their limits (R267). -/
structure MayRecover (e : Nat) (r : List Word) (L : Lane) : Prop where
  inAsc : meReg e L = 7
  free : ¬ L.b (F.MEe_STAT_FORCED e) = true
  byLadder : (meOf L e).ladder = true
  left : (meOf L e).exhausted = false
  link : (meScale e 5 L).v < (tq r 37).v
  speed : (meW e L).abs.v < (tq r 38).v

section
variable {e : Nat} {r : List Word} {L : Lane} (h : MayRecover e r L)
include h

theorem MayRecover.ascRecover_eq : ascRecover e r L =
    if meRun e L then
      if L.n (F.MEe_STAT_REC_CNT e) < 3 then meEvent e 4 (startCap e 0 (L.inc (F.MEe_STAT_REC_CNT e))) else L
    else meOff e L :=
  if_pos ⟨h.inAsc, h.free, h.byLadder, by simp [h.left], h.link, h.speed⟩

theorem MayRecover.stops (hrun : meRun e L = false) : ascRecover e r L = meOff e L := by
  simp [h.ascRecover_eq, hrun]

theorem MayRecover.restarts (hrun : meRun e L = true) (hcnt : L.n (F.MEe_STAT_REC_CNT e) < 3) :
    ascRecover e r L = meEvent e 4 (startCap e 0 (L.inc (F.MEe_STAT_REC_CNT e))) := by
  simp [h.ascRecover_eq, hrun, hcnt]

theorem MayRecover.spent (hrun : meRun e L = true) (hcnt : 3 ≤ L.n (F.MEe_STAT_REC_CNT e)) : ascRecover e r L = L := by
  simp [h.ascRecover_eq, hrun, hcnt.not_gt]

end

/-! SAFE_OFF (R266) -/

/-- SAFE_OFF entered and its fault `k` reported, before ASC_BLOCKED is looked at. -/
def safeOffFault (e k : Nat) (L : Lane) : Lane :=
  meFault e k (setRegime e 8 ((L.setB (F.MEe_STAT_CHOP_REQ e) false).setB (F.MEe_STAT_RAMP e) false))

section
variable {e k : Nat} {L : Lane}

theorem safeOff_forced (h : L.b (F.MEe_STAT_FORCED e) = true) : safeOff e k L = meFault e k L := by
  simp [safeOff, h]

theorem safeOff_free (hfree : ¬ L.b (F.MEe_STAT_FORCED e) = true) (hreg : meReg e L ≠ 8) : safeOff e k L =
    if ascBlocked e L && !(safeOffFault e k L).b (F.MEe_STAT_FORCED e) then meFault e 9 (safeOffFault e k L)
    else safeOffFault e k L := by
  simp [safeOff, safeOffFault, hfree, hreg]

end

/-! Overcurrent and ASC (R265, R266, R271) -/

/-- An overcurrent counted; `lost` says that it persisted in ASC, which is then impossible. -/
def countOc (e : Nat) (lost : Bool) (L : Lane) : Lane :=
  (setMe e { meOf L e with ocRun := 0, ascLost := (meOf L e).ascLost || lost } L).inc (F.MEe_ERR_OC_CNT e)

section
variable {e : Nat} {L : Lane}

theorem overCurrent_inAsc (h : meReg e L = 7) :
    overCurrent e L = meFault e 9 (meFault e 0 (setRegime e 8 (countOc e true L))) := by
  simp [overCurrent, countOc, h]

theorem overCurrent_inSafeOff (h : meReg e L = 8) : overCurrent e L = meFault e 0 (countOc e false L) := by
  simp [overCurrent, countOc, h]

theorem overCurrent_elsewhere (hasc : meReg e L ≠ 7) (hoff : meReg e L ≠ 8) :
    overCurrent e L = goOn e (enterAsc e false) (meFault e 0 (countOc e false L)) := by
  simp [overCurrent, countOc, hasc, hoff]

theorem goOn_forced (f : Lane → Lane) (h : L.b (F.MEe_STAT_FORCED e) = true) : goOn e f L = L := if_pos h

theorem goOn_free (f : Lane → Lane) (h : L.b (F.MEe_STAT_FORCED e) = false) : goOn e f L = f L := by
  simp [goOn, h]

/-- An engine made ready for ASC: no injection, no chopper. -/
def ascReady (e : Nat) (ladder : Bool) (L : Lane) : Lane :=
  (setMe e { meOf L e with ladder := ladder, ocRun := 0, inj1 := 0, inj2 := 0 } L).setB (F.MEe_STAT_CHOP_REQ e) false

theorem enterAsc_possible {ladder : Bool} (h : ascBlocked e L = false) :
    enterAsc e ladder L = meEvent e 3 (setRegime e 7 (ascReady e ladder L)) := by
  simp [enterAsc, ascReady, h]

theorem enterAsc_blocked {ladder : Bool} (h : ascBlocked e L = true) :
    enterAsc e ladder L = meFault e 9 (setRegime e 8 (ascReady e ladder L)) := by
  simp [enterAsc, ascReady, h]

end

/-- Settles O40: an engine without tables ignores its events; on another each event is one effect on the lane in which the table
record was read, with one lemma for each case of that effect. -/
theorem engineEventsActByRegime : Obligations.EngineEventsActByRegime := by
  intro l s e r M t L put m forced S3 oc O0 asc
  refine ⟨fun hload c hc => ?_, fun hlive hload htab => ?_⟩
  · simp only [List.mem_cons, List.not_mem_nil, or_false] at hc
    rcases hc with rfl | rfl | rfl | rfl | rfl | rfl | rfl | rfl <;> exact exec_of_unloaded hload rfl
  have event {c : Instr} {f : List Word → Lane → Lane} {K : Lane}
      (hc : exec c s = .next (s.onLane l (onEngine e.val f))) (hf : f r M = K) : exec c s = put K :=
    exec_of_onEngine hlive hload htab hc hf
  refine ⟨?switch, ?noSwitch, ?capture, ?noCapture, ?settle, ?noSettle, ?recForced, ?recovery, ?missing, ?noMissing,
    ?overcurrent, ?noOvercurrent, ?diverge, ?noDiverge, ?low, ?noLow⟩
  case switch => exact fun h => event rfl (by simp only [h])
  case noSwitch => exact fun h => event rfl (by simp only [h])
  case capture => exact fun hreg hn => event rfl (if_pos ⟨hreg, hn⟩)
  case noCapture => exact fun h => event rfl (if_neg fun ⟨hreg, hn⟩ => h.elim (absurd hreg) hn.not_ge)
  case settle => exact fun hreg hphase hstep => event rfl (if_pos ⟨hreg, hphase, hstep⟩)
  case noSettle =>
    exact fun h => event rfl (if_neg fun ⟨hreg, hphase, hstep⟩ => h.elim (absurd hreg) (·.elim (absurd hphase) hstep.not_gt))
  case recForced => exact fun h => event rfl (ascRecover_forced r h)
  case recovery =>
    intro hfree hreg hlad hleft hlink hspeed
    have hrec : MayRecover e.val r M := ⟨hreg, hfree, hlad, hleft, hlink, hspeed⟩
    exact ⟨fun hrun => event rfl (hrec.stops hrun), fun hrun hcnt => event rfl (hrec.restarts hrun hcnt),
      fun hrun hcnt => event rfl (hrec.spent hrun hcnt)⟩
  case missing =>
    intro hlo hhi
    have act {K : Lane} (hK : safeOff e.val 3 M = K) : exec (.stepMissing l e) s = put K :=
      event rfl ((if_pos ⟨hlo, hhi⟩).trans hK)
    have hoff : meReg e.val M ≠ 8 := by omega
    refine ⟨fun h => act (safeOff_forced h), fun hfree h => act ?_, fun hfree hblk hS => act ?_⟩
    · have hquiet : ¬ (ascBlocked e.val M && !S3.b (F.MEe_STAT_FORCED e.val)) = true := by rcases h with h | h <;> simp [h]
      exact (safeOff_free hfree hoff).trans (if_neg hquiet)
    · have hboth : (ascBlocked e.val M && !S3.b (F.MEe_STAT_FORCED e.val)) = true := by simp [hblk, hS]
      exact (safeOff_free hfree hoff).trans (if_pos hboth)
  case noMissing => exact fun h => event rfl (if_neg (by omega))
  case overcurrent =>
    intro hoc
    have act {K : Lane} (hK : overCurrent e.val M = K) : exec (.overcurrent l e) s = put K :=
      event rfl ((if_pos hoc).trans hK)
    refine ⟨fun hasc => act (overCurrent_inAsc hasc), fun hoff => act (overCurrent_inSafeOff hoff), fun hasc hoff => ?_⟩
    have helse := overCurrent_elsewhere hasc hoff
    exact ⟨fun hforce => act (helse.trans (goOn_forced _ hforce)),
      fun hfree hblk => act (helse.trans ((goOn_free _ hfree).trans (enterAsc_possible hblk))),
      fun hfree hblk => act (helse.trans ((goOn_free _ hfree).trans (enterAsc_blocked hblk)))⟩
  case noOvercurrent => exact fun h => event rfl (if_neg (by simp [h]))
  case diverge => exact fun h => event rfl (if_pos h)
  case noDiverge => exact fun h => event rfl (if_neg (by simp [h]))
  case low => exact fun h => event rfl (if_pos h)
  case noLow => exact fun h => event rfl (if_neg h.not_gt)

end Sys2Proof.Machine
end

section
/-! SUPPORT. Proof of the statement about the commits of a PWM generator. First the layer that the statements about generators
share: which register fields an effect reaches, a flag read back, and a generator's part beside its registers. -/

namespace Sys2Proof.Machine

/-! Effects on the register fields from one key on -/

/-- Of lane `L` only register fields from key `lo` on differ in `K`. -/
structure FldsFrom (lo : Nat) (L K : Lane) : Prop where
  shape : ∃ r, K = { L with regs := r }
  sorted : smSorted L.regs = true → smSorted K.regs = true
  below : smSorted L.regs = true → ∀ f : Fld, f.key < lo → K.fld f = L.fld f

theorem fldsFrom_refl (lo : Nat) (L : Lane) : FldsFrom lo L L := ⟨⟨L.regs, rfl⟩, id, fun _ _ _ => rfl⟩

theorem fldsFrom_put {lo : Nat} {f : Fld} (h : lo ≤ f.key) (L : Lane) (v : Word) : FldsFrom lo L (L.put f v) where
  shape := ⟨_, rfl⟩
  sorted := put_sorted L f v
  below := fun hs _ hg => fld_put_other v hs (hg.trans_le h).ne

theorem FldsFrom.trans {lo : Nat} {L K M : Lane} (h : FldsFrom lo L K) (k : FldsFrom lo K M) : FldsFrom lo L M where
  shape := by
    obtain ⟨r, rfl⟩ := h.shape
    exact k.shape
  sorted := fun hs => k.sorted (h.sorted hs)
  below := fun hs f hf => (k.below (h.sorted hs) f hf).trans (h.below hs f hf)

theorem FldsFrom.out {lo : Nat} {L K : Lane} (h : FldsFrom lo L K) : K.out = L.out := by
  obtain ⟨r, rfl⟩ := h.shape
  rfl

theorem FldsFrom.mem {lo : Nat} {L K : Lane} (h : FldsFrom lo L K) : K.mem = L.mem := by
  obtain ⟨r, rfl⟩ := h.shape
  rfl

theorem fldsFrom_forEach {lo : Nat} {f : Nat → Lane → Lane} (hf : ∀ k A, FldsFrom lo A (f k A)) (ks : List Nat) (L : Lane) :
    FldsFrom lo L (forEach ks f L) := by
  induction ks generalizing L with
  | nil => exact fldsFrom_refl lo L
  | cons k ks ih => exact (hf k L).trans (ih (f k L))

/-! A field set and read back -/

theorem putN_sorted {L : Lane} (f : Fld) (k : Nat) (hs : smSorted L.regs = true) : smSorted (L.putN f k).regs = true :=
  put_sorted L f _ hs

theorem setB_sorted {L : Lane} (f : Fld) (v : Bool) (hs : smSorted L.regs = true) : smSorted (L.setB f v).regs = true :=
  put_sorted L f _ hs

theorem fld_setB_other {L : Lane} {f g : Fld} (v : Bool) (hs : smSorted L.regs = true) (h : g.key ≠ f.key) :
    (L.setB f v).fld g = L.fld g := fld_put_other _ hs h

theorem b_setB_same {L : Lane} {f : Fld} (v : Bool) (hs : smSorted L.regs = true) (hw : f.w = 1) : (L.setB f v).b f = v := by
  rw [Lane.b, setB_eq, fld_put L f f _ hs (fun _ => rfl), if_pos rfl, hw]
  cases v <;> rfl

theorem n_eq_zero {L : Lane} {f : Fld} (h : L.fld f = 0) : L.n f = 0 := by
  rw [Lane.n, h]
  rfl

/-! A generator's part beside its registers -/

theorem genOf_of_out {L K : Lane} (h : K.out = L.out) (n : Nat) : genOf K n = genOf L n := by simp only [genOf, h]

theorem genOf_setGen_same {L : Lane} {n : Nat} (g : PwmGen) (hn : n < L.out.pwm.length) : genOf (setGen n g L) n = g := by
  simp [genOf, setGen, nth, setNth, hn]

/-! The checks of a commit (R280, R281) -/

section
variable {L : Lane} {n : Nat}

theorem strictOk_written (h : L.b (F.PWMn_WSC_PER n) = true) : strictOk n L = true ↔ ∀ x ∈ outWsc n L, x = true := by
  simp [strictOk, h]

theorem strictOk_unwritten (h : L.b (F.PWMn_WSC_PER n) = false) :
    strictOk n L = true ↔ ∀ x ∈ outWsc n L, ∀ y ∈ outWsc n L, x = y := by
  simp only [strictOk, h, Bool.false_eq_true, if_false, Bool.or_eq_true, List.all_eq_true, id_eq, Bool.not_eq_true']
  constructor
  · rintro (hall | hnone) x hx y hy
    · rw [hall x hx, hall y hy]
    · rw [hnone x hx, hnone y hy]
  · intro hsame
    by_cases hall : ∀ x ∈ outWsc n L, x = true
    · exact .inl hall
    · push Not at hall
      obtain ⟨x, hx, hfalse⟩ := hall
      exact .inr fun y hy => (hsame y hy x hx).trans (Bool.eq_false_of_not_eq_true hfalse)

theorem rescale_le (c perOld perNew : Nat) : rescale c perOld perNew ≤ perNew := Nat.min_le_right _ _

/-- The rounding of a rescale adds less than one period, so nothing is added where the period stays. -/
theorem rescale_same {per : Nat} (c : Nat) (h : 0 < per) : rescale c per per = min c per := by
  rw [rescale, Nat.add_comm, Nat.add_mul_div_right _ _ h, Nat.div_eq_of_lt (Nat.div_lt_self h Nat.one_lt_two), Nat.zero_add]

theorem scaleShadow_direct (h : L.b (F.PWMn_CFG_PAIRING n) = false) : scaleShadow n L = L := by simp [scaleShadow, h]

theorem fldsFrom_scaleShadow (n : Nat) (L : Lane) : FldsFrom 0 L (scaleShadow n L) := by
  have hunless (p : Prop) [Decidable p] (A : Lane) (f : Fld) (v : Nat) : FldsFrom 0 A (if p then A else A.putN f v) := by
    split
    · exact fldsFrom_refl 0 A
    · exact fldsFrom_put (Nat.zero_le _) A _
  unfold scaleShadow
  dsimp only
  split
  · split
    · exact fldsFrom_forEach (fun k A => hunless _ A _ _) _ L
    · exact fldsFrom_forEach (fun k A => hunless _ A _ _) _ L
  · exact fldsFrom_refl 0 L

/-! What a commit does (R277, R279, R280) -/

theorem coreCommit_ignored (h : L.b (F.PWMn_CFG_SRC n) = true) : coreCommit n L = L.inc (F.PWMn_ERR_IGN_CNT n) := by
  simp [coreCommit, h]

theorem coreCommit_owner (h : L.b (F.PWMn_CFG_SRC n) = false) : coreCommit n L = commitOp n L := by simp [coreCommit, h]

theorem commitOp_range (h : rangeOkPwm (shadowOf n L) = false) : commitOp n L = commitRefuse n (F.PWMn_STAT_RANGE_ERR n) L := by
  simp [commitOp, h]

theorem commitOp_strict (hrange : rangeOkPwm (shadowOf n L) = true) (hpair : L.b (F.PWMn_CFG_PAIRING n) = false)
    (hstrict : strictOk n L = false) : commitOp n L = commitRefuse n (F.PWMn_STAT_PAIR_ERR n) L := by
  simp [commitOp, hrange, hpair, hstrict]

/-- The lane with the shadows of `M` as generator `n`'s committed stage; a commit that was still pending is counted as
superseded (R279). -/
def stageTaken (n : Nat) (M : Lane) : Lane :=
  let K := setGen n { genOf M n with com := shadowOf n M, refCh := (shadowOf n M).ch } M
  if K.b (F.PWMn_STAT_PENDING n) then K.inc (F.PWMn_ERR_SUP_CNT n) else K

/-- The written-since-commit bits of a generator. -/
def wscFlds (n : Nat) : List Fld := [F.PWMn_WSC_CH n, F.PWMn_WSC_CMP n, F.PWMn_WSC_PER n]

theorem wscFlds_apart_pending : ∀ f ∈ wscFlds n, f.key ≠ (F.PWMn_STAT_PENDING n).key := by
  simp only [wscFlds, List.forall_mem_cons, Fld.key, F.PWMn_WSC_CH, F.PWMn_WSC_CMP, F.PWMn_WSC_PER, F.PWMn_STAT_PENDING]
  exact ⟨by omega, by omega, by omega, List.forall_mem_nil _⟩

theorem commitOp_taken (hrange : rangeOkPwm (shadowOf n L) = true)
    (hpair : L.b (F.PWMn_CFG_PAIRING n) = true ∨ strictOk n L = true) :
    commitOp n L = ((stageTaken n (scaleShadow n L)).zero (wscFlds n)).setB (F.PWMn_STAT_PENDING n) true := by
  have hallowed : ¬ ((!L.b (F.PWMn_CFG_PAIRING n) && !strictOk n L) = true) := by rcases hpair with h | h <;> simp [h]
  rw [commitOp, if_neg (by simp [hrange]), if_neg hallowed]
  rfl

theorem fldsFrom_stageTaken (n : Nat) (M : Lane) :
    FldsFrom 0 (setGen n { genOf M n with com := shadowOf n M, refCh := (shadowOf n M).ch } M) (stageTaken n M) := by
  unfold stageTaken
  dsimp only
  split
  · exact fldsFrom_put (Nat.zero_le _) _ _
  · exact fldsFrom_refl 0 _

theorem fldsFrom_zero (fs : List Fld) (L : Lane) : FldsFrom 0 L (L.zero fs) := by
  induction fs generalizing L with
  | nil => exact fldsFrom_refl 0 L
  | cons f fs ih => exact (fldsFrom_put (Nat.zero_le _) L 0).trans (ih _)

/-- What a commit that is taken leaves of the generator, of its flags and of memory. -/
theorem commitOp_taken_effect (hs : smSorted L.regs = true) (hn : n < L.out.pwm.length)
    (hrange : rangeOkPwm (shadowOf n L) = true) (hpair : L.b (F.PWMn_CFG_PAIRING n) = true ∨ strictOk n L = true) :
    (genOf (commitOp n L) n).com = shadowOf n (scaleShadow n L) ∧ (genOf (commitOp n L) n).act = (genOf L n).act ∧
    (commitOp n L).b (F.PWMn_STAT_PENDING n) = true ∧ (∀ f ∈ wscFlds n, (commitOp n L).n f = 0) ∧
    (commitOp n L).mem = L.mem := by
  have hscale := fldsFrom_scaleShadow n L
  have hstage := fldsFrom_stageTaken n (scaleShadow n L)
  have hzero := fldsFrom_zero (wscFlds n) (stageTaken n (scaleShadow n L))
  have hsStage : smSorted (stageTaken n (scaleShadow n L)).regs = true := hstage.sorted (hscale.sorted hs)
  have hsZero := hzero.sorted hsStage
  have hgen : genOf (commitOp n L) n = { genOf L n with
      com := shadowOf n (scaleShadow n L), refCh := (shadowOf n (scaleShadow n L)).ch } := by
    have hout : (commitOp n L).out = _ := (congrArg Lane.out (commitOp_taken hrange hpair)).trans (hzero.out.trans hstage.out)
    rw [genOf_of_out hout, genOf_setGen_same _ (by rwa [hscale.out]), genOf_of_out hscale.out]
  rw [hgen, commitOp_taken hrange hpair]
  refine ⟨rfl, rfl, b_setB_same true hsZero rfl, fun f hf => n_eq_zero ?_, hzero.mem.trans (hstage.mem.trans hscale.mem)⟩
  rw [fld_setB_other _ hsZero (wscFlds_apart_pending f hf)]
  exact zero_fld hsStage (rst_zero_of_all rfl) f hf

end

/-- Settles O41: the checks of a commit one by one, then the stage that a commit which passes them takes. -/
theorem commitsAreCheckedThenTaken : Obligations.CommitsAreCheckedThenTaken := by
  intro l s n c a b L M hlive
  have core {K : Lane} (hK : coreCommit n.val L = K) : exec (.commit l n) s = .next (s.setLane l K) :=
    exec_of_whenLive hlive rfl hK
  refine ⟨fun hsrc => core (coreCommit_ignored hsrc),
    fun hsrc hrange => core ((coreCommit_owner hsrc).trans (commitOp_range hrange)),
    fun hsrc hrange hpair hstrict => core ((coreCommit_owner hsrc).trans (commitOp_strict hrange hpair hstrict)),
    fun hsrc hrange hpair hs hn => ?_, strictOk_written, strictOk_unwritten, scaleShadow_direct,
    fun _ _ => rescale_le c a b, rescale_same c⟩
  obtain ⟨hcom, hact, hpending, hwsc, hmem⟩ := commitOp_taken_effect hs hn hrange hpair
  refine ⟨_, core (coreCommit_owner hsrc), onlyLane_onLane l s fun _ => commitOp n.val L, ?_⟩
  rw [lane_setLane_same]
  exact ⟨hcom, hact, hpending, hwsc _ (by simp [wscFlds]), hwsc _ (by simp [wscFlds]), hwsc _ (by simp [wscFlds]), hmem⟩

end Sys2Proof.Machine
end

section
/-! SUPPORT. Proof of the statement about the events of a PWM generator: what acts while the motor island runs, a reload whose
event neither interrupts nor triggers, the stop and the return of the clock, and the levels of the balls. -/

namespace Sys2Proof.Machine

/-! Events of a generator act while the motor island's clock runs and EN is set (R274, R276) -/

section
variable {L : Lane} {n : Nat}

theorem motRuns_iff : motRuns L = true ↔ L.live = true ∧ L.out.motStopped = false := by simp [motRuns]

/-- A generator counts: the motor island's clock runs and EN is set. -/
def genRuns (n : Nat) (L : Lane) : Bool := motRuns L && L.b (F.PWMn_CFG_EN n)

theorem genRuns_of (hruns : L.live = true ∧ L.out.motStopped = false) (hen : L.b (F.PWMn_CFG_EN n) = true) :
    genRuns n L = true := by
  simp [genRuns, motRuns_iff.mpr hruns, hen]

theorem genRuns_not (h : ¬ (L.live = true ∧ L.out.motStopped = false) ∨ L.b (F.PWMn_CFG_EN n) = false) :
    ¬ genRuns n L = true := by
  rw [← motRuns_iff] at h
  rcases h with h | h <;> simp [genRuns, h]

theorem compareEvent_inside {k : Nat} (hper : nth (genOf L n).act.cmp k 0 < (genOf L n).act.per)
    (hcur : nth (genOf L n).act.cmp k 0 < (genOf L n).curPer) :
    compareEvent n k L = pwmEvent n (2 + k) (setCount n (nth (genOf L n).act.cmp k 0) L) := if_pos ⟨hper, hcur⟩

theorem compareEvent_outside {k : Nat} (h : (genOf L n).act.per ≤ nth (genOf L n).act.cmp k 0 ∨
    (genOf L n).curPer ≤ nth (genOf L n).act.cmp k 0) : compareEvent n k L = L := if_neg (by omega)

/-! EN set (R274): the first edge is a reload edge -/

/-- The reload of a generator that starts: no output was on before it. -/
def startGen (n : Nat) (L : Lane) : Lane :=
  let R := reload n (L.setB (F.PWMn_CFG_EN n) true)
  setGen n { genOf R n with endOn := 0 } R

theorem setEn_starts (hen : L.b (F.PWMn_CFG_EN n) = false) (hn : n ≠ 2) : setEn n true L = startGen n L := by
  simp [setEn, startGen, hen, hn]

theorem setEn_starts_valves (hen : L.b (F.PWMn_CFG_EN 2) = false) : setEn 2 true L = vduEnable (startGen 2 L) := by
  simp [setEn, startGen, hen]

/-! A quiet event: no enabled interrupt and no trigger (R276) -/

theorem eventBits_disabled {stat : Fld} {en : Word} (hen : en = 0) (map : Nat → Option Nat) (bits : Word) :
    eventBits stat en map bits L = L.orF stat bits := by
  subst hen
  exact foldl_keeps (g := id) (fun A i => by simp [bitAt]) _ _

theorem pwmEvent_quiet {i : Nat} (hs : smSorted L.regs = true) (hirq : L.fld (F.PWMn_EVCFG_IRQ n) = 0)
    (htrg : L.bit (F.PWMn_EVCFG_TRG n) i = false) : pwmEvent n i L = L.orF (F.PWMn_EVSTAT_EV n) (toW (2 ^ i)) := by
  have hkey : (F.PWMn_EVCFG_TRG n).key ≠ (F.PWMn_EVSTAT_EV n).key := by
    simp only [Fld.key, F.PWMn_EVCFG_TRG, F.PWMn_EVSTAT_EV]
    omega
  have hstill : (L.orF (F.PWMn_EVSTAT_EV n) (toW (2 ^ i))).bit (F.PWMn_EVCFG_TRG n) i = false := by
    rwa [Lane.bit, orF_eq, fld_put_other _ hs hkey]
  rw [pwmEvent, eventBits_disabled hirq]
  exact if_neg (by simp [hstill])

/-! A reload edge (R274, R279) in three steps: the generator starts its period, a pending commit is consumed, the channels of
PWM2 show their compares -/

/-- The generator at the start of a period. -/
def reloadGen (n : Nat) (L : Lane) : PwmGen :=
  let g := genOf L n
  let used := L.b (F.PWMn_STAT_PENDING n)
  let act := if used then g.com else g.act
  { g with act := act, curPer := g.nextPer.getD act.per, nextPer := none, endOn := endOutputs n L
           hold := if used ∧ ¬ debugHalted L then false else g.hold }

/-- CNT is 0 and CUR_EPOCH has stepped. -/
def periodStart (n : Nat) (L : Lane) : Lane := (setCount n 0 (setGen n (reloadGen n L) L)).incMod (F.PWMn_STAT_CUR_EPOCH n)

/-- A commit that was pending is consumed. -/
def commitUsed (n : Nat) (L : Lane) : Lane :=
  let K := periodStart n L
  if L.b (F.PWMn_STAT_PENDING n) then
    (K.setB (F.PWMn_STAT_PENDING n) false).putN (F.PWMn_STAT_LAST_EPOCH n) (K.n (F.PWMn_STAT_CUR_EPOCH n))
  else K

/-- The channels of PWM2 show the compares that have become active. -/
def chansShown (n : Nat) (L : Lane) : Lane :=
  if n = 2 ∧ L.b (F.PWMn_STAT_PENDING n) then
    forEach (List.range 8) (fun k A => A.putN (F.VDU_CHk_STAT_CH k) (nth (reloadGen n L).act.ch k 0)) (commitUsed n L)
  else commitUsed n L

theorem reload_eq (n : Nat) (L : Lane) : reload n L = pwmEvent n 0 (chansShown n L) := rfl

/-- Registers of the valve drives lie beyond those of the generators. -/
theorem fldsFrom_chansShown (n : Nat) (L : Lane) : FldsFrom F.VDU_CTL_LOCK.key (commitUsed n L) (chansShown n L) := by
  have hput (k v : Nat) (A : Lane) : FldsFrom F.VDU_CTL_LOCK.key A (A.putN (F.VDU_CHk_STAT_CH k) v) :=
    fldsFrom_put (by simp only [Fld.key, F.VDU_CTL_LOCK, F.VDU_CHk_STAT_CH]; omega) A _
  unfold chansShown
  split
  · exact fldsFrom_forEach (fun k A => hput k _ A) _ _
  · exact fldsFrom_refl _ _

theorem genOf_setCount (c : Nat) (hn : n < L.out.pwm.length) : genOf (setCount n c L) n = { genOf L n with sub := 0 } :=
  genOf_setGen_same (L := L.putN (F.PWMn_CNT_CNT n) c) _ hn

theorem genOf_commitUsed (hn : n < L.out.pwm.length) : genOf (commitUsed n L) n = { reloadGen n L with sub := 0 } := by
  have hlen : n < (setGen n (reloadGen n L) L).out.pwm.length := by simpa [setGen, setNth] using hn
  have hout : (commitUsed n L).out = (setCount n 0 (setGen n (reloadGen n L) L)).out := by
    unfold commitUsed
    dsimp only
    split <;> rfl
  rw [genOf_of_out hout, genOf_setCount 0 hlen, genOf_setGen_same _ hn]

theorem commitUsed_mem : (commitUsed n L).mem = L.mem := by
  unfold commitUsed
  dsimp only
  split <;> rfl

end

/-! The fields after a reload edge -/

section
variable {L : Lane} {n : Nat}

theorem periodStart_sorted (hs : smSorted L.regs = true) : smSorted (periodStart n L).regs = true := by
  have hcnt : smSorted (setCount n 0 (setGen n (reloadGen n L) L)).regs = true := putN_sorted (F.PWMn_CNT_CNT n) 0 hs
  exact put_sorted _ _ _ hcnt

theorem periodStart_fld (f : Fld) :
    (periodStart n L).fld f = ((L.putN (F.PWMn_CNT_CNT n) 0).incMod (F.PWMn_STAT_CUR_EPOCH n)).fld f := rfl

theorem curEpoch_key_ne_cnt : (F.PWMn_STAT_CUR_EPOCH n).key ≠ (F.PWMn_CNT_CNT n).key := by
  simp only [Fld.key, F.PWMn_STAT_CUR_EPOCH, F.PWMn_CNT_CNT]
  omega

/-- A field other than the two that a period's start sets. -/
theorem periodStart_fld_other {f : Fld} (hs : smSorted L.regs = true) (hcnt : f.key ≠ (F.PWMn_CNT_CNT n).key)
    (hepoch : f.key ≠ (F.PWMn_STAT_CUR_EPOCH n).key) : (periodStart n L).fld f = L.fld f := by
  rw [periodStart_fld, incMod_eq, fld_put_other _ (putN_sorted _ _ hs) hepoch, fld_putN_other 0 hs hcnt]

theorem periodStart_cnt (hs : smSorted L.regs = true) : (periodStart n L).n (F.PWMn_CNT_CNT n) = 0 := by
  rw [Lane.n, periodStart_fld, incMod_eq, fld_put_other _ (putN_sorted _ _ hs) curEpoch_key_ne_cnt.symm]
  exact n_putN_same hs (Nat.two_pow_pos _) (show 16 ≤ 32 by decide)

theorem periodStart_epoch (hs : smSorted L.regs = true) : (periodStart n L).n (F.PWMn_STAT_CUR_EPOCH n) =
    (L.n (F.PWMn_STAT_CUR_EPOCH n) + 1) % 2 ^ (F.PWMn_STAT_CUR_EPOCH n).w := by
  have hold : (L.putN (F.PWMn_CNT_CNT n) 0).n (F.PWMn_STAT_CUR_EPOCH n) = L.n (F.PWMn_STAT_CUR_EPOCH n) := by
    rw [Lane.n, fld_putN_other 0 hs curEpoch_key_ne_cnt]
    rfl
  rw [← hold]
  exact n_putN_same (L := L.putN (F.PWMn_CNT_CNT n) 0) (putN_sorted _ _ hs) (Nat.mod_lt _ (Nat.two_pow_pos _))
    (show 8 ≤ 32 by decide)

theorem commitUsed_sorted (hs : smSorted L.regs = true) : smSorted (commitUsed n L).regs = true := by
  unfold commitUsed
  dsimp only
  split
  · exact putN_sorted _ _ (setB_sorted _ _ (periodStart_sorted hs))
  · exact periodStart_sorted hs

theorem commitUsed_fld_other {f : Fld} (hs : smSorted L.regs = true) (hpending : f.key ≠ (F.PWMn_STAT_PENDING n).key)
    (hlast : f.key ≠ (F.PWMn_STAT_LAST_EPOCH n).key) : (commitUsed n L).fld f = (periodStart n L).fld f := by
  unfold commitUsed
  dsimp only
  split
  · rw [fld_putN_other _ (setB_sorted _ _ (periodStart_sorted hs)) hlast, fld_setB_other _ (periodStart_sorted hs) hpending]
  · rfl

/-- After a reload edge no commit is pending. -/
theorem commitUsed_pending (hs : smSorted L.regs = true) : (commitUsed n L).b (F.PWMn_STAT_PENDING n) = false := by
  have hlast : (F.PWMn_STAT_PENDING n).key ≠ (F.PWMn_STAT_LAST_EPOCH n).key := by
    simp [Fld.key, F.PWMn_STAT_PENDING, F.PWMn_STAT_LAST_EPOCH]
  have hcnt : (F.PWMn_STAT_PENDING n).key ≠ (F.PWMn_CNT_CNT n).key := by
    simp only [Fld.key, F.PWMn_STAT_PENDING, F.PWMn_CNT_CNT]
    omega
  have hepoch : (F.PWMn_STAT_PENDING n).key ≠ (F.PWMn_STAT_CUR_EPOCH n).key := by
    simp [Fld.key, F.PWMn_STAT_PENDING, F.PWMn_STAT_CUR_EPOCH]
  cases hused : L.b (F.PWMn_STAT_PENDING n) with
  | true =>
    rw [commitUsed, if_pos hused, Lane.b, fld_putN_other _ (setB_sorted _ _ (periodStart_sorted hs)) hlast]
    exact b_setB_same false (periodStart_sorted hs) rfl
  | false => rwa [commitUsed, if_neg (by simp [hused]), Lane.b, periodStart_fld_other hs hcnt hepoch]

/-- A register of generator `n` other than STAT and CNT is as before. -/
theorem commitUsed_fld_register {f : Fld} (hs : smSorted L.regs = true) (hstat : f.addr ≠ (F.PWMn_STAT_PENDING n).addr)
    (hcnt : f.addr ≠ (F.PWMn_CNT_CNT n).addr) (hlo : f.lo < 32) : (commitUsed n L).fld f = L.fld f := by
  rw [commitUsed_fld_other hs (key_ne_of_addr_ne hstat hlo (show 30 < 32 by decide))
    (key_ne_of_addr_ne hstat hlo (show 8 < 32 by decide)),
    periodStart_fld_other hs (key_ne_of_addr_ne hcnt hlo (show 0 < 32 by decide))
      (key_ne_of_addr_ne hstat hlo (show 0 < 32 by decide))]

end

/-- The event ZERO of generator `n` neither interrupts nor triggers. -/
structure QuietReload (n : Nat) (L : Lane) : Prop where
  sorted : smSorted L.regs = true
  gen : n < 3
  irq : L.fld (F.PWMn_EVCFG_IRQ n) = 0
  trg : L.bit (F.PWMn_EVCFG_TRG n) 0 = false

section
variable {L : Lane} {n : Nat} (hq : QuietReload n L)
include hq

theorem QuietReload.evcfg {f : Fld} (haddr : f.addr = (F.PWMn_EVCFG_IRQ n).addr) (hlo : f.lo < 32) :
    (chansShown n L).fld f = L.fld f := by
  have hbelow : f.key < F.VDU_CTL_LOCK.key := by
    have hn := hq.gen
    simp only [F.PWMn_EVCFG_IRQ] at haddr
    simp only [Fld.key, F.VDU_CTL_LOCK]
    omega
  have hstat : f.addr ≠ (F.PWMn_STAT_PENDING n).addr := by simp [haddr, F.PWMn_EVCFG_IRQ, F.PWMn_STAT_PENDING]
  have hcnt : f.addr ≠ (F.PWMn_CNT_CNT n).addr := by simp [haddr, F.PWMn_EVCFG_IRQ, F.PWMn_CNT_CNT]
  rw [(fldsFrom_chansShown n L).below (commitUsed_sorted hq.sorted) f hbelow, commitUsed_fld_register hq.sorted hstat hcnt hlo]

theorem QuietReload.reload_eq : reload n L = (chansShown n L).orF (F.PWMn_EVSTAT_EV n) (toW (2 ^ 0)) := by
  have hs := (fldsFrom_chansShown n L).sorted (commitUsed_sorted hq.sorted)
  have hirq : (chansShown n L).fld (F.PWMn_EVCFG_IRQ n) = 0 := (hq.evcfg rfl (show 0 < 32 by decide)).trans hq.irq
  have htrg : (chansShown n L).bit (F.PWMn_EVCFG_TRG n) 0 = false := by
    have hcfg : (chansShown n L).fld (F.PWMn_EVCFG_TRG n) = L.fld (F.PWMn_EVCFG_TRG n) := hq.evcfg rfl (show 8 < 32 by decide)
    rw [Lane.bit, hcfg]
    exact hq.trg
  exact pwmEvent_quiet hs hirq htrg

/-- What the statement reads of STAT and CNT is as the consumed commit leaves it. -/
theorem QuietReload.fld {f : Fld} (haddr : f.addr = (F.PWMn_STAT_PENDING n).addr ∨ f.addr = (F.PWMn_CNT_CNT n).addr)
    (hlo : f.lo < 32) : (reload n L).fld f = (commitUsed n L).fld f := by
  have hn := hq.gen
  simp only [F.PWMn_STAT_PENDING, F.PWMn_CNT_CNT] at haddr
  have hbelow : f.key < F.VDU_CTL_LOCK.key := by
    simp only [Fld.key, F.VDU_CTL_LOCK]
    omega
  have hev : f.key ≠ (F.PWMn_EVSTAT_EV n).key := by
    simp only [Fld.key, F.PWMn_EVSTAT_EV]
    omega
  have hchans := fldsFrom_chansShown n L
  have hused := commitUsed_sorted (n := n) hq.sorted
  rw [hq.reload_eq, orF_eq, fld_put_other _ (hchans.sorted hused) hev, hchans.below hused f hbelow]

theorem QuietReload.genOf (hn : n < L.out.pwm.length) : genOf (reload n L) n = { reloadGen n L with sub := 0 } := by
  have hout : (reload n L).out = (commitUsed n L).out := by
    rw [hq.reload_eq, orF_eq, put_out, (fldsFrom_chansShown n L).out]
  rw [genOf_of_out hout, genOf_commitUsed hn]

theorem QuietReload.mem : (reload n L).mem = L.mem := by
  rw [hq.reload_eq, orF_eq, put_mem, (fldsFrom_chansShown n L).mem, commitUsed_mem]

theorem QuietReload.cnt : (reload n L).n (F.PWMn_CNT_CNT n) = 0 := by
  have hkey (f : Fld) (haddr : f.addr = (F.PWMn_STAT_PENDING n).addr) (hlo : f.lo < 32) : (F.PWMn_CNT_CNT n).key ≠ f.key :=
    key_ne_of_addr_ne (by simp [haddr, F.PWMn_STAT_PENDING, F.PWMn_CNT_CNT]) (show 0 < 32 by decide) hlo
  rw [Lane.n, hq.fld (.inr rfl) (show 0 < 32 by decide),
    commitUsed_fld_other hq.sorted (hkey _ rfl (show 30 < 32 by decide)) (hkey _ rfl (show 8 < 32 by decide))]
  exact periodStart_cnt hq.sorted

theorem QuietReload.epoch : (reload n L).n (F.PWMn_STAT_CUR_EPOCH n) =
    (L.n (F.PWMn_STAT_CUR_EPOCH n) + 1) % 2 ^ (F.PWMn_STAT_CUR_EPOCH n).w := by
  have hpending : (F.PWMn_STAT_CUR_EPOCH n).key ≠ (F.PWMn_STAT_PENDING n).key := by
    simp [Fld.key, F.PWMn_STAT_PENDING, F.PWMn_STAT_CUR_EPOCH]
  have hlast : (F.PWMn_STAT_CUR_EPOCH n).key ≠ (F.PWMn_STAT_LAST_EPOCH n).key := by
    simp [Fld.key, F.PWMn_STAT_LAST_EPOCH, F.PWMn_STAT_CUR_EPOCH]
  have hfld : (reload n L).fld (F.PWMn_STAT_CUR_EPOCH n) = (commitUsed n L).fld (F.PWMn_STAT_CUR_EPOCH n) :=
    hq.fld (.inl rfl) (show 0 < 32 by decide)
  rw [Lane.n, hfld, commitUsed_fld_other hq.sorted hpending hlast]
  exact periodStart_epoch hq.sorted

theorem QuietReload.pending : (reload n L).b (F.PWMn_STAT_PENDING n) = false := by
  have hfld : (reload n L).fld (F.PWMn_STAT_PENDING n) = (commitUsed n L).fld (F.PWMn_STAT_PENDING n) :=
    hq.fld (.inl rfl) (show 30 < 32 by decide)
  rw [Lane.b, hfld]
  exact commitUsed_pending hq.sorted

end

theorem reloadGen_act_used {n : Nat} {L : Lane} (h : L.b (F.PWMn_STAT_PENDING n) = true) :
    (reloadGen n L).act = (genOf L n).com := if_pos h

theorem reloadGen_act_kept {n : Nat} {L : Lane} (h : L.b (F.PWMn_STAT_PENDING n) = false) :
    (reloadGen n L).act = (genOf L n).act := if_neg (by simp [h])

/-! The stop of the clock and its return (R286) -/

section
variable {L : Lane}

/-- The clock has stopped: CLKSTOP, and the chopper's gate off. -/
def clkStopped (L : Lane) : Lane :=
  { (L.setB F.PWM_MON_CLKSTOP true).setB F.CHP_STAT_GATE false with out := { L.out with motStopped := true } }

theorem clkStop_on (hlive : L.live = true) (hon : L.bit F.AOS_STAT_ON 2 = true) : clkStop L = clkStopped L := by
  rw [clkStop, if_pos (by simp [hlive, hon])]
  rfl

theorem clkStop_off (hon : L.bit F.AOS_STAT_ON 2 = false) : clkStop L = L := if_neg (by simp [hon])

theorem clkStopped_regs (L : Lane) :
    (clkStopped L).regs = ((L.setB F.PWM_MON_CLKSTOP true).setB F.CHP_STAT_GATE false).regs := rfl

theorem clkStopped_clkstop (hs : smSorted L.regs = true) : (clkStopped L).b F.PWM_MON_CLKSTOP = true := by
  have hgate : F.PWM_MON_CLKSTOP.key ≠ F.CHP_STAT_GATE.key := by decide
  rw [b_of_regs (clkStopped_regs L), Lane.b, fld_setB_other false (setB_sorted _ _ hs) hgate]
  exact b_setB_same true hs rfl

theorem clkStopped_gate (hs : smSorted L.regs = true) : (clkStopped L).b F.CHP_STAT_GATE = false := by
  rw [b_of_regs (clkStopped_regs L), b_setB_same false (setB_sorted _ _ hs) rfl]

theorem clkBack_stopped (hlive : L.live = true) (hstop : L.out.motStopped = true) :
    clkBack L = raise 0x0A6 { L with out := { L.out with motStopped := false } } := if_pos (by simp [hlive, hstop])

theorem clkBack_running (hstop : L.out.motStopped = false) : clkBack L = L := if_neg (by simp [hstop])

/-! The levels of the balls (R283, R286, R474) -/

theorem released_of_live (h : L.live = true) : released L = true := by
  simp only [Lane.live, Bool.or_eq_true, Bool.and_eq_true, decide_eq_true_eq] at h
  simp only [released, decide_eq_true_eq]
  tauto

theorem ballLevel_unreleased (h : released L = false) (n i : Nat) : ballLevel n i L = false := by simp [ballLevel, h]

theorem ballSafe_unreleased (h : released L = false) : ballSafe L = true := by simp [ballSafe, h]

theorem ballLevel_safe {n : Nat} (hrel : released L = true) (hsafe : safeAct n L = true) (i : Nat) :
    ballLevel n i L = L.bit (F.PWMn_OUT_SAFE n) i := by simp [ballLevel, hrel, hsafe]

theorem outOn_disabled {n : Nat} (h : L.b (F.PWMn_CFG_EN n) = false) (i x : Nat) : outOn n i x L = false := by simp [outOn, h]

theorem ballLevel_disabled {n : Nat} (hrel : released L = true) (hsafe : safeAct n L = false)
    (hen : L.b (F.PWMn_CFG_EN n) = false) (i : Nat) : ballLevel n i L = L.bit (F.PWMn_OUT_POL n) i := by
  simp [ballLevel, hrel, hsafe, outOn_disabled hen]

theorem safeAct_of_clkstop (h : L.b F.PWM_MON_CLKSTOP = true) (n : Nat) : safeAct n L = true := by simp [safeAct, h]

theorem ballSafe_of_clkstop (h : L.b F.PWM_MON_CLKSTOP = true) : ballSafe L = true := by simp [ballSafe, h]

end

/-- Settles O42: an event acts where its generator counts; a quiet reload is read off its three steps, and a stopped clock
holds the balls by CLKSTOP. -/
theorem generatorsReloadAndStop : Obligations.GeneratorsReloadAndStop := by
  intro l s n k ch i L g runs started
  have event {c : Instr} {f : Lane → Lane} {K : Lane} (hc : exec c s = .next (s.onLane l
      (fun A => if genRuns n.val A then f A else A))) (hruns : runs) (hen : L.b (F.PWMn_CFG_EN n.val) = true) (hf : f L = K) :
      exec c s = .next (s.setLane l K) := exec_of_onLane hc ((if_pos (genRuns_of hruns hen)).trans hf)
  have still {c : Instr} {f : Lane → Lane} (hc : exec c s = .next (s.onLane l (fun A => if genRuns n.val A then f A else A)))
      (h : ¬ runs ∨ L.b (F.PWMn_CFG_EN n.val) = false) : exec c s = .next s :=
    exec_of_onLane_same hc (if_neg (genRuns_not h))
  refine ⟨?reloads, fun hruns hen => event rfl hruns hen rfl, fun hruns hen => event rfl hruns hen rfl,
    fun hruns hen hper hcur => event rfl hruns hen (compareEvent_inside hper hcur), ?outside,
    fun h => ⟨still rfl h, still rfl h, still rfl h⟩,
    fun hruns hen hn => exec_of_onLane rfl ((if_pos (motRuns_iff.mpr hruns)).trans (setEn_starts hen hn.ne)),
    fun hruns hen => exec_of_onLane rfl ((if_pos (motRuns_iff.mpr hruns)).trans (setEn_starts_valves hen)), ?stops,
    fun hon => exec_of_onLane_same rfl (clkStop_off hon),
    fun hlive hstop => exec_of_onLane rfl (clkBack_stopped hlive hstop),
    fun hstop => exec_of_onLane_same rfl (clkBack_running hstop), fun hlive => exec_of_whenLive hlive rfl rfl,
    fun hrel => ⟨ballLevel_unreleased hrel n.val i, ballSafe_unreleased hrel⟩, fun hrel hsafe => ballLevel_safe hrel hsafe i,
    fun hrel hsafe hen => ballLevel_disabled hrel hsafe hen i⟩
  case reloads =>
    intro hruns hen hs hn hirq htrg
    have hq : QuietReload n.val L := ⟨hs, n.isLt, hirq, htrg⟩
    have hgen := hq.genOf hn
    refine ⟨_, event rfl hruns hen rfl, onlyLane_onLane l s fun _ => reload n.val L, ?_⟩
    rw [lane_setLane_same, hgen]
    exact ⟨hq.cnt, hq.epoch, fun hused => ⟨reloadGen_act_used hused, hq.pending⟩, reloadGen_act_kept, rfl, hq.mem⟩
  case outside =>
    intro h
    have hsame : (if genRuns n.val L then compareEvent n.val k.val L else L) = L := by
      split
      · exact compareEvent_outside h
      · rfl
    exact exec_of_onLane_same rfl hsame
  case stops =>
    intro hlive hon hs
    have hclk := clkStopped_clkstop hs
    have hrel : released (clkStopped L) = true := (released_of_live hlive :)
    refine ⟨_, exec_of_onLane rfl (clkStop_on hlive hon), onlyLane_onLane l s fun _ => clkStopped L, ?_⟩
    rw [lane_setLane_same]
    exact ⟨hclk, clkStopped_gate hs, rfl, fun m j => ballLevel_safe hrel (safeAct_of_clkstop hclk m) j,
      ballSafe_of_clkstop hclk⟩

end Sys2Proof.Machine
end

section
/-! SUPPORT. Proof of the statement about valve groups: an attempt, the end of the guard and of the back-off, what a lane sees of
its peers' claims, and the loss of an owner. -/

namespace Sys2Proof.Machine

section
variable {L : Lane} {g : Nat}

/-! An attempt (R293) -/

/-- Nothing but another lane's claim keeps the lane from claiming group `g`. -/
structure Claimable (g : Nat) (L : Lane) : Prop where
  notOwner : L.b (F.DEI_GRPg_STAT_OWN g) = false
  unclaimed : ownClaim L g = false
  may : mayClaim L = true
  configured : grpCfg L g = true
  ownerless : L.n (F.DEI_GRPg_STAT_OWNER g) = 3

theorem Claimable.goesOn (h : Claimable g L) : ¬ (L.b (F.DEI_GRPg_STAT_OWN g) || ownClaim L g || !mayClaim L || !grpCfg L g ||
    decide (L.n (F.DEI_GRPg_STAT_OWNER g) ≠ 3)) = true := by
  simp [h.notOwner, h.unclaimed, h.may, h.configured, h.ownerless]

theorem tryClaim_waits (h : Claimable g L) (hother : otherClaims L g = true) :
    tryClaim g L = (setGrp g { grpOf L g with want := true } L).putN (F.DEI_GRPg_STAT_STATE g) 2 :=
  (if_neg h.goesOn).trans (if_pos hother)

theorem tryClaim_asserts (h : Claimable g L) (hother : otherClaims L g = false) :
    tryClaim g L = ((setGrp g { grpOf L g with want := false, second := false } L).setBit (F.DEI_GRPg_STAT_CLAIMS g)
      (laneNo L.id) true).putN (F.DEI_GRPg_STAT_STATE g) 3 :=
  (if_neg h.goesOn).trans (if_neg (by simp [hother]))

/-! The end of the guard and of the back-off (R293, R294) -/

/-- The lane's claim stands its guard. -/
def guarding (g : Nat) (L : Lane) : Prop :=
  L.n (F.DEI_GRPg_STAT_STATE g) = 3 ∧ ownClaim L g = true ∧ L.b (F.DEI_GRPg_STAT_OWN g) = false

theorem guarding_iff : guarding g L ↔
    L.n (F.DEI_GRPg_STAT_STATE g) = 3 ∧ ownClaim L g = true ∧ ¬ L.b (F.DEI_GRPg_STAT_OWN g) = true := by
  rw [guarding, Bool.not_eq_true]

/-- The claim withdrawn after a collision, which is counted and raised (R294). -/
def withdrawn (g : Nat) (L : Lane) : Lane :=
  setGrp g { grpOf L g with tries := (grpOf L g).tries + 1, want := false } (deiEvent g 2 (raise 0x0B0
    ((L.setBit (F.DEI_GRPg_STAT_CLAIMS g) (laneNo L.id) false).inc (F.DEI_GRPg_ERR_COLL_CNT g))))

theorem guardEnd_alone (h : guarding g L) (hother : otherClaims L g = false) : guardEnd g L = gainGroup g L :=
  (if_pos (guarding_iff.mp h)).trans (if_neg (by simp [hother]))

theorem guardEnd_collides (h : guarding g L) (hother : otherClaims L g = true) : guardEnd g L =
    if 3 ≤ (grpOf L g).tries + 1 then
      raise 0x0B1 ((withdrawn g L).putN (F.DEI_GRPg_STAT_STATE g) (standState (withdrawn g L) g))
    else (withdrawn g L).putN (F.DEI_GRPg_STAT_STATE g) 4 :=
  (if_pos (guarding_iff.mp h)).trans (if_pos hother)

theorem guardEnd_backsOff (h : guarding g L) (hother : otherClaims L g = true) (htries : (grpOf L g).tries < 2) :
    guardEnd g L = (withdrawn g L).putN (F.DEI_GRPg_STAT_STATE g) 4 :=
  (guardEnd_collides h hother).trans (if_neg (by omega))

theorem guardEnd_stands (h : guarding g L) (hother : otherClaims L g = true) (htries : 2 ≤ (grpOf L g).tries) :
    guardEnd g L = raise 0x0B1 ((withdrawn g L).putN (F.DEI_GRPg_STAT_STATE g) (standState (withdrawn g L) g)) :=
  (guardEnd_collides h hother).trans (if_pos (by omega))

theorem guardEnd_idle (h : ¬ guarding g L) : guardEnd g L = L := if_neg (guarding_iff.not.mp h)

theorem backoffEnd_waiting (h : L.n (F.DEI_GRPg_STAT_STATE g) = 4) :
    backoffEnd g L = (setGrp g { grpOf L g with want := true } L).putN (F.DEI_GRPg_STAT_STATE g) 2 := if_pos h

theorem backoffEnd_idle (h : L.n (F.DEI_GRPg_STAT_STATE g) ≠ 4) : backoffEnd g L = L := if_neg h

/-! A peer's claim and a peer as the owner (R292, R293, R296) -/

section
variable {p : LaneId}

/-- A claim line that falls, or that was up already, only shows. -/
theorem claimLine_shows {up : Bool} (hp : p ≠ L.id) (h : up = true → L.bit (F.DEI_GRPg_STAT_CLAIMS g) (laneNo p) = true) :
    claimLine g p up L = L.setBit (F.DEI_GRPg_STAT_CLAIMS g) (laneNo p) up := by
  have hstill : (up && !L.bit (F.DEI_GRPg_STAT_CLAIMS g) (laneNo p)) = false := by
    cases up with
    | false => rfl
    | true => simp [h rfl]
  simp [claimLine, hp, hstill]

/-- A claim that rises on a group that the lane neither owns nor waits to take over only shows. -/
theorem claimLine_rises (hp : p ≠ L.id) (hlow : L.bit (F.DEI_GRPg_STAT_CLAIMS g) (laneNo p) = false)
    (hsecond : (grpOf L g).second = false)
    (hown : (L.setBit (F.DEI_GRPg_STAT_CLAIMS g) (laneNo p) true).b (F.DEI_GRPg_STAT_OWN g) = false) :
    claimLine g p true L = L.setBit (F.DEI_GRPg_STAT_CLAIMS g) (laneNo p) true := by
  have hgrp : (grpOf (L.setBit (F.DEI_GRPg_STAT_CLAIMS g) (laneNo p) true) g).second = false := hsecond
  simp [claimLine, hp, hlow, hown, hgrp]

/-- The peer is recorded as the owner, and an attempt of the lane's own is dropped. -/
def ownerTaken (g : Nat) (p : LaneId) (L : Lane) : Lane :=
  setGrp g { grpOf L g with want := false, second := false } (L.putN (F.DEI_GRPg_STAT_OWNER g) (laneNo p))

theorem ownerSeen_eq (hp : p ≠ L.id) (hclaim : L.bit (F.DEI_GRPg_STAT_CLAIMS g) (laneNo p) = true)
    (hown : L.b (F.DEI_GRPg_STAT_OWN g) = false) : ownerSeen g p L = if ownClaim L g then ownerTaken g p L
      else (ownerTaken g p L).putN (F.DEI_GRPg_STAT_STATE g) (standState L g) :=
  if_pos ⟨hp, hclaim, by simp [hown]⟩

theorem ownerSeen_unclaimed (hclaim : L.bit (F.DEI_GRPg_STAT_CLAIMS g) (laneNo p) = false) : ownerSeen g p L = L :=
  if_neg fun h => by simp [hclaim] at h

end

/-! The loss of an owner (R296) -/

theorem ownerLost_gone (howner : L.n (F.DEI_GRPg_STAT_OWNER g) ≠ 3) (hown : L.b (F.DEI_GRPg_STAT_OWN g) = false)
    (hclaim : L.bit (F.DEI_GRPg_STAT_CLAIMS g) (L.n (F.DEI_GRPg_STAT_OWNER g)) = false) : ownerLost g L =
    rankGroup g (membersOf L (orderFrom (orderOf L g) (L.n (F.DEI_GRPg_STAT_OWNER g)))) true
      (L.putN (F.DEI_GRPg_STAT_OWNER g) 3) :=
  if_pos ⟨howner, by simp [hown], by simp [hclaim]⟩

theorem ownerLost_ownerless (howner : L.n (F.DEI_GRPg_STAT_OWNER g) = 3) : ownerLost g L = L := if_neg fun h => h.1 howner

theorem noOwner_reported (hmember : inSet L.clv.members L.id = true) (hcfg : grpCfg L g = true)
    (hdrive : (curRec L).driveSet.testBit (2 + g) = true) (howner : L.n (F.DEI_GRPg_STAT_OWNER g) = 3) :
    noOwner g L = raise 0x0B5 L := if_pos (by simp [hmember, hcfg, hdrive, howner])

theorem noOwner_owned (howner : L.n (F.DEI_GRPg_STAT_OWNER g) ≠ 3) : noOwner g L = L := if_neg (by simp [howner])

end

/-- Settles O43: each command is the effect of its event on a live lane. -/
theorem groupsAreClaimedAndLost : Obligations.GroupsAreClaimedAndLost := by
  intro l p s g up L G me own R B guardOn hlive
  have event {c : Instr} {f : Lane → Lane} {K : Lane} (hc : exec c s = .next (s.onLane l (whenLive f))) (hf : f L = K) :
      exec c s = .next (s.setLane l K) := exec_of_whenLive hlive hc hf
  have still {c : Instr} {f : Lane → Lane} (hc : exec c s = .next (s.onLane l (whenLive f))) (hf : f L = L) :
      exec c s = .next s := exec_of_whenLive_same hlive hc hf
  refine ⟨fun hwant hown hclaim hmay hcfg howner => ?_, fun hwant => still rfl (if_neg (Bool.eq_false_iff.mp hwant)),
    fun hguard hother => event rfl (guardEnd_alone hguard hother),
    fun hguard hother htries => event rfl (guardEnd_backsOff hguard hother htries),
    fun hguard hother htries => event rfl (guardEnd_stands hguard hother htries),
    fun hguard => still rfl (guardEnd_idle hguard), fun hstate => event rfl (backoffEnd_waiting hstate),
    fun hstate => still rfl (backoffEnd_idle hstate), fun hp hup => event rfl (claimLine_shows hp hup),
    fun hp hlow hsecond hown => event rfl (claimLine_rises hp hlow hsecond hown),
    fun hp hclaim hown hours => event rfl ((ownerSeen_eq hp hclaim hown).trans (if_pos hours)),
    fun hp hclaim hown hours => event rfl ((ownerSeen_eq hp hclaim hown).trans (if_neg (by simp [hours]))),
    fun hclaim => still rfl (ownerSeen_unclaimed hclaim),
    fun howner hown hclaim => event rfl (ownerLost_gone howner hown hclaim),
    fun howner => still rfl (ownerLost_ownerless howner), fun hsecond => event rfl (if_pos hsecond),
    fun hsecond => still rfl (if_neg (Bool.eq_false_iff.mp hsecond)),
    fun hmember hcfg hdrive howner => event rfl (noOwner_reported hmember hcfg hdrive howner),
    fun howner => still rfl (noOwner_owned howner)⟩
  have hc : Claimable g.val L := ⟨hown, hclaim, hmay, hcfg, howner⟩
  exact ⟨fun hother => event rfl ((if_pos hwant).trans (tryClaim_waits hc hother)),
    fun hother => event rfl ((if_pos hwant).trans (tryClaim_asserts hc hother))⟩

end Sys2Proof.Machine
end

section
/-! SUPPORT. Proof of the statement about the brake chopper, GPIO and the gate-driver SPI: faults of the chopper, edges, the two
FIFOs, frames, and the pins that a trigger pulse turns over. -/

namespace Sys2Proof.Machine

section
variable {L : Lane} {n : Nat}

/-! The chopper's gate while the motor island's clock runs (R300) -/

theorem runs_gateOn (hruns : L.live = true ∧ L.out.motStopped = false) (h : L.b F.CHP_STAT_GATE = true) :
    (motRuns L && L.b F.CHP_STAT_GATE) = true := by simp [motRuns_iff.mpr hruns, h]

theorem runs_gateOff (hruns : L.live = true ∧ L.out.motStopped = false) (h : L.b F.CHP_STAT_GATE = false) :
    (motRuns L && !L.b F.CHP_STAT_GATE) = true := by simp [motRuns_iff.mpr hruns, h]

theorem not_runs_gateOn (h : L.b F.CHP_STAT_GATE = false) : ¬ (motRuns L && L.b F.CHP_STAT_GATE) = true := by simp [h]

theorem not_runs_gateOff (h : L.b F.CHP_STAT_GATE = true) : ¬ (motRuns L && !L.b F.CHP_STAT_GATE) = true := by simp [h]

/-! Edges (R302) -/

theorem gpioEdge_rise (h : L.bit F.GPIO_IRQ_RISE n = true) : gpioEdge n true L =
    plicRaise (83 + n) ((L.setBit F.GPIO_IN_IN n true).setBit F.GPIO_EVSTAT_EV n true) := if_pos h

theorem gpioEdge_fall_silent (h : L.bit F.GPIO_IRQ_FALL n = false) : gpioEdge n false L = L.setBit F.GPIO_IN_IN n false :=
  if_neg (Bool.eq_false_iff.mp h)

/-! FIFOs and frames (R303) -/

theorem spiPush_room (v : Word) (h : L.out.spiTx.length < 8) :
    spiPush v L = spiShow { L with out := { L.out with spiTx := L.out.spiTx ++ [v] } } := if_pos h

theorem spiPush_full (v : Word) (h : 8 ≤ L.out.spiTx.length) : spiPush v L = raise 0x0BC (L.setB F.GPIO_SPI_STAT_UND true) :=
  if_neg h.not_gt

theorem spiBusy_iff : spiBusy L = true ↔ L.b F.GPIO_SPI_CFG_EN = true ∧ L.out.spiTx ≠ [] ∧
    (L.n F.GPIO_SPI_CFG_TRG = 0 ∨ L.out.spiTrig = true) := by
  simp [spiBusy, and_assoc]

/-- The oldest word has left the transmit FIFO. -/
def spiTaken (rest : List Word) (L : Lane) : Lane := { L with out := { L.out with spiTx := rest, spiTrig := false } }

theorem spiFrame_eq {v : Word} {rest : List Word} (w : Word) (hbusy : spiBusy L = true) (htx : L.out.spiTx = v :: rest) :
    spiFrame w L = if L.out.spiRx.length < 8 then
      spiShow { spiTaken rest L with out := { (spiTaken rest L).out with
        spiRx := L.out.spiRx ++ [toW (w.toNat % 2 ^ (max 7 (L.n F.GPIO_SPI_CFG_LEN) + 1))] } }
    else raise 0x0BC ((spiShow (spiTaken rest L)).setB F.GPIO_SPI_STAT_OVR true) := by
  have hrest : L.out.spiTx.drop 1 = rest := by rw [htx]; rfl
  subst hrest
  exact if_pos hbusy

theorem spiFrame_idle (w : Word) (h : L.b F.GPIO_SPI_CFG_EN = false ∨ L.out.spiTx = [] ∨
    (L.n F.GPIO_SPI_CFG_TRG ≠ 0 ∧ L.out.spiTrig = false)) : spiFrame w L = L := by
  refine if_neg fun hbusy => ?_
  obtain ⟨hen, htx, htrg⟩ := spiBusy_iff.mp hbusy
  rcases h with h | h | ⟨hline, hpulse⟩
  · simp [hen] at h
  · exact htx h
  · rcases htrg with h | h
    · exact hline h
    · simp [hpulse] at h

/-! Trigger pulses (R302) -/

/-- A bit of a word into which the numbers of a list that meet `c` have been put. -/
theorem getLsbD_foldl_orBit (c : Nat → Bool) (ks : List Nat) (p : BitVec 8) (hn : n < 8) :
    (ks.foldl (fun q k => if c k then q ||| BitVec.ofNat 8 (2 ^ k) else q) p).getLsbD n =
      (p.getLsbD n || (decide (n ∈ ks) && c n)) := by
  induction ks generalizing p with
  | nil => simp
  | cons k ks ih =>
    have hbit : (BitVec.ofNat 8 (2 ^ k)).getLsbD n = decide (k = n) := by
      rw [BitVec.getLsbD_ofNat, Nat.testBit_two_pow, decide_eq_true hn, Bool.true_and]
    have hstep : (if c k then p ||| BitVec.ofNat 8 (2 ^ k) else p).getLsbD n =
        (p.getLsbD n || (decide (n = k) && c n)) := by
      by_cases hk : n = k
      · subst hk
        cases hc : c n
        · simp
        · rw [if_pos rfl, BitVec.getLsbD_or, hbit, Bool.and_true]
      · have hother : ¬ k = n := fun h => hk h.symm
        cases hc : c k
        · simp [hk]
        · rw [if_pos rfl, BitVec.getLsbD_or, hbit, decide_eq_false hk, decide_eq_false hother, Bool.false_and]
    rw [List.foldl_cons, ih, hstep, Bool.or_assoc, ← Bool.and_or_distrib_right]
    simp

/-- The output pins that name trigger line `k`. -/
theorem trgPins_bit (k : Nat) (hn : n < 8) : (trgPins k L).getLsbD n =
    (L.bit F.GPIO_DIR_DIR n && decide (bitsOf (L.fld F.GPIO_TRG_TRG) (4 * n) 4 = k + 1)) := by
  rw [trgPins, getLsbD_foldl_orBit _ _ _ hn]
  simp [hn]

theorem trgPulse_regs (k : Nat) (L : Lane) : (trgPulse k L).regs = L.regs := by
  unfold trgPulse
  dsimp only
  split <;> rfl

theorem trgPulse_pulse (k : Nat) (L : Lane) : (trgPulse k L).out.pulse = L.out.pulse ||| trgPins k L := by
  unfold trgPulse
  dsimp only
  split <;> rfl

theorem bit_of_regs {L K : Lane} (h : L.regs = K.regs) (f : Fld) (i : Nat) : L.bit f i = K.bit f i := by
  rw [Lane.bit, fld_of_regs h]
  rfl

/-- The level of a pin after a pulse, by whether the pin names the line. -/
theorem gpioLevel_trgPulse (k : Nat) (L : Lane) (n : Nat) : gpioLevel n (trgPulse k L) =
    if L.bit F.GPIO_DIR_DIR n then L.bit F.GPIO_OUT_OUT n ^^ (L.out.pulse.getLsbD n || (trgPins k L).getLsbD n)
    else L.bit F.GPIO_IN_IN n := by
  rw [gpioLevel, trgPulse_pulse, BitVec.getLsbD_or]
  simp only [bit_of_regs (trgPulse_regs k L)]

theorem gpioLevel_pulsed {k : Nat} (hn : n < 8) (hdir : L.bit F.GPIO_DIR_DIR n = true)
    (hline : bitsOf (L.fld F.GPIO_TRG_TRG) (4 * n) 4 = k + 1) : gpioLevel n (trgPulse k L) = !L.bit F.GPIO_OUT_OUT n := by
  simp [gpioLevel_trgPulse, trgPins_bit k hn, hdir, hline]

theorem gpioLevel_unpulsed {k : Nat} (hn : n < 8) (h : L.bit F.GPIO_DIR_DIR n = false ∨
    bitsOf (L.fld F.GPIO_TRG_TRG) (4 * n) 4 ≠ k + 1) : gpioLevel n (trgPulse k L) = gpioLevel n L := by
  have hpin : (trgPins k L).getLsbD n = false := by
    rw [trgPins_bit k hn]
    rcases h with h | h <;> simp [h]
  rw [gpioLevel_trgPulse, hpin, Bool.or_false]
  rfl

end

/-- Settles O44: the chopper's faults while the motor island runs, the edges and the FIFOs of a live lane, and what a trigger pulse
does to a pin. -/
theorem chopperFaultsEdgesAndFrames : Obligations.ChopperFaultsEdgesAndFrames := by
  intro l s n v w rest k L O runs
  have busy (hen : L.b F.GPIO_SPI_CFG_EN = true) (htx : O.spiTx = v :: rest)
      (htrg : L.n F.GPIO_SPI_CFG_TRG = 0 ∨ O.spiTrig = true) : spiBusy L = true := spiBusy_iff.mpr ⟨hen, List.ne_nil_of_mem (htx ▸ List.mem_cons_self), htrg⟩
  refine ⟨fun hruns hgate => exec_of_onLane rfl (if_pos (runs_gateOn hruns hgate)),
    fun hruns hgate => exec_of_onLane rfl (if_pos (runs_gateOff hruns hgate)),
    fun hgate => exec_of_onLane_same rfl (if_neg (not_runs_gateOn hgate)),
    fun hgate => exec_of_onLane_same rfl (if_neg (not_runs_gateOff hgate)), fun hlive => ?_,
    gpioLevel_pulsed n.isLt, gpioLevel_unpulsed n.isLt⟩
  have event {c : Instr} {f : Lane → Lane} {K : Lane} (hc : exec c s = .next (s.onLane l (whenLive f))) (hf : f L = K) :
      exec c s = .next (s.setLane l K) := exec_of_whenLive hlive hc hf
  exact ⟨fun hrise => event rfl (gpioEdge_rise hrise), fun hfall => event rfl (gpioEdge_fall_silent hfall),
    fun hroom => event rfl (spiPush_room v hroom), fun hfull => event rfl (spiPush_full v hfull), event rfl rfl,
    fun hen htx htrg hrx => event rfl ((spiFrame_eq w (busy hen htx htrg) htx).trans (if_pos hrx)),
    fun hen htx htrg hrx => event rfl ((spiFrame_eq w (busy hen htx htrg) htx).trans (if_neg hrx.not_gt)),
    fun hidle => exec_of_whenLive_same hlive rfl (spiFrame_idle w hidle)⟩

end Sys2Proof.Machine
end

section
/-! SUPPORT. Proof of the statement about CRC-32C: the division that its register runs in reflection, big-endian words, and what the
check of a received element lets through. -/

namespace Sys2Proof.Machine

/-! The division (R316): each step of the reflected register is the reflection of a step of the division -/

theorem reverse_xor (x y : Word) : (x ^^^ y).reverse = x.reverse ^^^ y.reverse := by
  ext i hi
  simp only [BitVec.getElem_reverse, BitVec.getElem_xor, BitVec.getMsbD_xor]

theorem reverse_shiftLeft_one (c : Word) : (c <<< 1).reverse = c.reverse >>> 1 := by
  ext i hi
  simp only [BitVec.getElem_reverse, BitVec.getElem_ushiftRight, BitVec.getLsbD_reverse, BitVec.getMsbD_shiftLeft, Nat.add_comm]

/-- The byte enters the reflected register at its low end, the division at its high end. -/
theorem reverse_highByte (b : Byte) : (b.reverse.setWidth 32 <<< 24).reverse = b.setWidth 32 := by
  ext i hi
  rw [BitVec.getElem_reverse, BitVec.getMsbD_shiftLeft, BitVec.getMsbD_setWidth, BitVec.getMsbD_reverse, BitVec.getElem_setWidth]
  simp

theorem crcBit_reverse (c : Word) : crcBit c.reverse = (crcMsbBit c).reverse := by
  have hpoly : (0x1EDC6F41 : Word).reverse = 0x82F63B78 := by decide +kernel
  have hbit : c.reverse.getLsbD 0 = c.msb := BitVec.getLsbD_reverse
  rw [crcBit, crcMsbBit, hbit, apply_ite BitVec.reverse, reverse_xor, reverse_shiftLeft_one, hpoly]

theorem crcByte_reverse (c : Word) (b : Byte) : crcByte c.reverse b = (crcMsbFirst c b.reverse).reverse := by
  have hin : c.reverse ^^^ b.setWidth 32 = (c ^^^ b.reverse.setWidth 32 <<< 24).reverse := by rw [reverse_xor, reverse_highByte]
  rw [crcByte]
  simp only [hin, crcBit_reverse]
  rfl

theorem crc32c_eq_division (bs : List Byte) :
    crc32c bs = (bs.foldl (fun c b => crcMsbFirst c b.reverse) 0xFFFFFFFF).reverse ^^^ 0xFFFFFFFF := by
  have hones : (0xFFFFFFFF : Word).reverse = 0xFFFFFFFF := by decide +kernel
  have hstep : bs.foldl crcByte (0xFFFFFFFF : Word).reverse = (bs.foldl (fun c b => crcMsbFirst c b.reverse) 0xFFFFFFFF).reverse :=
    List.foldl_hom _ crcByte_reverse
  rw [crc32c, ← hstep, hones]
  exact BitVec.xor_allOnes.symm

/-! Big-endian words (R13) -/

theorem beNat_wordBytesBe (w : Word) : beNat (wordBytesBe w) = w.toNat := by
  simp only [wordBytesBe, wordBytes, beNat, List.reverse_cons, List.reverse_nil, List.nil_append, List.cons_append, List.foldl_cons,
    List.foldl_nil, BitVec.toNat_setWidth, BitVec.toNat_ushiftRight, Nat.shiftRight_eq_div_pow]
  omega

theorem beNat_four_inj {a b : List Byte} (ha : a.length = 4) (hb : b.length = 4) (h : beNat a = beNat b) : a = b := by
  match a, b, ha, hb with
  | [a0, a1, a2, a3], [b0, b1, b2, b3], _, _ =>
    simp only [beNat, List.foldl_cons, List.foldl_nil] at h
    simp only [List.cons.injEq, ← BitVec.toNat_inj, and_true]
    omega

theorem beNat_eq_iff (w : Word) {c : List Byte} (hc : c.length = 4) : beNat c = w.toNat ↔ c = wordBytesBe w :=
  ⟨fun h => beNat_four_inj hc rfl (h.trans (beNat_wordBytesBe w).symm), fun h => h ▸ beNat_wordBytesBe w⟩

/-! The element of a signal (R317) -/

/-- The directory entry of signal `i` and the status word of its buffer can be read. -/
structure SigReadable (i : Nat) (e : DirEnt) (w : Word) (L : Lane) : Prop where
  dir : ∃ W, readWords (dirAddr i) 4 L = (some W, L)
  entry : dirRaw L i = e
  status : readW (bufAddr e) L = (some w, L)

/-- A signal's octets in a payload: FRESH, data and E2E. -/
def elemOf (e : DirEnt) (pl : List Byte) : List Byte := (pl.drop e.offset).take (e.len + 5)

def elemFresh (e : DirEnt) (pl : List Byte) : Byte := nth (elemOf e pl) 0 0

def elemData (e : DirEnt) (pl : List Byte) : List Byte := ((elemOf e pl).drop 1).take e.len

/-- E2E is the CRC of the signal's number, FRESH and data (R315). -/
def ElemIntact (i : Nat) (e : DirEnt) (pl : List Byte) : Prop :=
  beNat ((elemOf e pl).drop (e.len + 1)) = (crc32c (natBytesBe 4 i ++ elemFresh e pl :: elemData e pl)).toNat

/-- What FRESH has stepped by since the value that the buffer holds. -/
def freshStep (e : DirEnt) (w : Word) (pl : List Byte) : Nat := ((elemFresh e pl).toNat + 256 - bitsOf w 0 8) % 256

section
variable {i n : Nat} {e : DirEnt} {w : Word} {pl : List Byte} {L : Lane} (h : SigReadable i e w L)
include h

theorem element_short (hn : n < e.offset + e.len + 5) :
    element pl n i L = (raise 0x0CE (rxErr i e 1 (L.inc F.NTE_RXERR0_SHORT_CNT)), false) := by
  obtain ⟨⟨W, hdir⟩, hentry, hstatus⟩ := h
  simp only [element, hdir, hentry, hstatus, if_pos hn]

theorem element_spoilt (hn : e.offset + e.len + 5 ≤ n) (hcrc : ¬ ElemIntact i e pl) :
    element pl n i L = (raise 0x0C9 (rxErr i e 2 (L.inc F.NTE_RXERR0_CRC_CNT)), false) := by
  obtain ⟨⟨W, hdir⟩, hentry, hstatus⟩ := h
  simp only [element, hdir, hentry, hstatus, if_neg hn.not_gt]
  exact if_pos hcrc

/-- An element that is long enough and intact is judged by FRESH. -/
theorem element_intact (hn : e.offset + e.len + 5 ≤ n) (hcrc : ElemIntact i e pl) : element pl n i L =
    if !bitAt w 31 then (deliver e (elemFresh e pl) (elemData e pl) L, true)
    else if freshStep e w pl = 0 then (rxErr i e 3 (L.inc F.NTE_RXERR1_REPEAT_CNT), false)
    else if freshStep e w pl ≤ e.maxgap then (deliver e (elemFresh e pl) (elemData e pl) L, true)
    else (raise 0x0CA (rxErr i e 4 (Lane.inc (writeW (bufAddr e) ((w &&& 0xFFFFFF00) ||| (elemFresh e pl).setWidth 32) L).2
      F.NTE_RXERR0_GAP_CNT)), false) := by
  obtain ⟨⟨W, hdir⟩, hentry, hstatus⟩ := h
  simp only [element, hdir, hentry, hstatus, if_neg hn.not_gt]
  exact if_neg (not_not.mpr hcrc)

theorem element_first (hn : e.offset + e.len + 5 ≤ n) (hcrc : ElemIntact i e pl) (hvalid : bitAt w 31 = false) :
    element pl n i L = (deliver e (elemFresh e pl) (elemData e pl) L, true) := by simp [element_intact h hn hcrc, hvalid]

theorem element_repeated (hn : e.offset + e.len + 5 ≤ n) (hcrc : ElemIntact i e pl) (hvalid : bitAt w 31 = true)
    (hstep : freshStep e w pl = 0) : element pl n i L = (rxErr i e 3 (L.inc F.NTE_RXERR1_REPEAT_CNT), false) := by
  simp [element_intact h hn hcrc, hvalid, hstep]

theorem element_next (hn : e.offset + e.len + 5 ≤ n) (hcrc : ElemIntact i e pl) (hvalid : bitAt w 31 = true)
    (hstep : freshStep e w pl ≠ 0) (hgap : freshStep e w pl ≤ e.maxgap) :
    element pl n i L = (deliver e (elemFresh e pl) (elemData e pl) L, true) := by
  simp [element_intact h hn hcrc, hvalid, hstep, hgap]

theorem element_gap (hn : e.offset + e.len + 5 ≤ n) (hcrc : ElemIntact i e pl) (hvalid : bitAt w 31 = true)
    (hstep : freshStep e w pl ≠ 0) (hgap : e.maxgap < freshStep e w pl) : element pl n i L = (raise 0x0CA (rxErr i e 4 (Lane.inc
      (writeW (bufAddr e) ((w &&& 0xFFFFFF00) ||| (elemFresh e pl).setWidth 32) L).2 F.NTE_RXERR0_GAP_CNT)), false) := by
  simp [element_intact h hn hcrc, hvalid, hstep, hgap.not_ge]

/-- Into a buffer that holds no valid value every intact element is delivered, and no other. -/
theorem element_delivers_iff (hn : e.offset + e.len + 5 ≤ n) (hvalid : bitAt w 31 = false) :
    (element pl n i L).2 = true ↔ ElemIntact i e pl := by
  by_cases hcrc : ElemIntact i e pl
  · simp [element_first h hn hcrc hvalid, hcrc]
  · simp [element_spoilt h hn hcrc, hcrc]

end

/-- A payload that is one element: E2E stands most significant byte first (R316). -/
theorem elemIntact_iff {i : Nat} {e : DirEnt} {fresh : Byte} {body c : List Byte} (hoff : e.offset = 0) (hbody : body.length = e.len)
    (hc : c.length = 4) : ElemIntact i e (fresh :: body ++ c) ↔ c = wordBytesBe (crc32c (natBytesBe 4 i ++ fresh :: body)) := by
  have hall : elemOf e (fresh :: body ++ c) = fresh :: body ++ c := by
    rw [elemOf, hoff, List.drop_zero, List.take_of_length_le (by simp [hbody, hc])]
  have hfresh : elemFresh e (fresh :: body ++ c) = fresh := by rw [elemFresh, hall]; rfl
  have hdata : elemData e (fresh :: body ++ c) = body := by
    rw [elemData, hall, ← hbody]
    exact List.take_left
  have hcrc : (elemOf e (fresh :: body ++ c)).drop (e.len + 1) = c := by
    rw [hall, ← hbody]
    exact List.drop_left
  rw [ElemIntact, hfresh, hdata, hcrc, beNat_eq_iff _ hc]

/-- Settles O60: the register's steps are the division's in reflection (`crcByte_reverse`), and E2E is compared as a big-endian
number (`beNat_eq_iff`). -/
theorem crcIsTheReflectedDivision : Obligations.CrcIsTheReflectedDivision := by
  refine ⟨crc32c_eq_division, by decide +kernel, ?_⟩
  intro L i e W w fresh body c pl hdir hentry hstatus hvalid hoff hbody hc
  have hlen : e.offset + e.len + 5 ≤ pl.length := by
    simp only [pl, List.length_append, List.length_cons, hbody, hc, hoff]
    omega
  rw [element_delivers_iff ⟨⟨W, hdir⟩, hentry, hstatus⟩ hlen hvalid, elemIntact_iff hoff hbody hc]

end Sys2Proof.Machine
end

section
/-! SUPPORT. Proof of the statement about frames that end well: what each type of frame does to the lane that receives it, and what an
own slot sends. -/

namespace Sys2Proof.Machine

/-! Commands that can bind the device (R349) -/

section
variable {l : LaneId} {s : State} {c : Instr} {f : Lane → Lane} {A : Lane}

theorem exec_of_whenLive_abandon (hlive : (s.lane l).live = true)
    (hc : exec c s = .next (abandonAll l s (s.onLane l (whenLive f)))) (hf : f (s.lane l) = A) :
    exec c s = .next (abandonAll l s (s.setLane l A)) := by
  rw [hc, onLane_whenLive_eq hlive hf]

/-- No other lane abandons where this one had abandoned before, or has not now. -/
theorem abandonAll_setLane (h : (s.lane l).nte.abandoned = true ∨ A.nte.abandoned = false) :
    abandonAll l s (s.setLane l A) = s.setLane l A := by
  rw [abandonAll_eq, lane_setLane_same, if_neg]
  rcases h with h | h <;> simp [h]

theorem exec_of_whenLive_abandon_same (hlive : (s.lane l).live = true)
    (hc : exec c s = .next (abandonAll l s (s.onLane l (whenLive f)))) (hf : f (s.lane l) = s.lane l) : exec c s = .next s := by
  have hsame : (s.lane l).nte.abandoned = true ∨ (s.lane l).nte.abandoned = false := Bool.eq_false_or_eq_true _
  rw [exec_of_whenLive_abandon hlive hc hf, abandonAll_setLane hsame, setLane_lane_self]

end

/-! The end of a frame (R328). `M` is the lane once its frame `c` has left the port -/

/-- The last checks of the star pass: FCS, link and octet count. -/
def EndsWell (f : FrameEnd) (c : Cur) : Prop := f.fcsOk = true ∧ f.linkOk = true ∧ f.octets = 26 + max c.len 38

section
variable {p k : Nat} {f : FrameEnd} {c : Cur} {L M : Lane}

theorem frameEnd_good (hcur : (portOf L p).cur = some c) (hend : EndsWell f c) (htyp : c.typ = k) :
    frameEnd p [k] f L = (some c, setPort p (fun x => { x with cur := none }) L) := by
  obtain ⟨hfcs, hlink, hoctets⟩ := hend
  simp [frameEnd, hcur, htyp, hfcs, hlink, hoctets]

theorem frameEnd_bad (hcur : (portOf L p).cur = some c)
    (hend : f.fcsOk = false ∨ f.linkOk = false ∨ f.octets ≠ 26 + max c.len 38) (htyp : c.typ = k) :
    frameEnd p [k] f L = (none, frameBad p L) := by
  have hbad : (f.fcsOk && f.linkOk && decide (f.octets = 26 + max c.len 38)) = false := by
    rcases hend with h | h | h <;> simp [h]
  simp [frameEnd, hcur, htyp, hbad]

theorem dataFrame_none (h : frameEnd p [0] f L = (none, M)) : dataFrame p f L = M := by simp only [dataFrame, h]
theorem nullFrame_none (h : frameEnd p [1] f L = (none, M)) : nullFrame p f L = M := by simp only [nullFrame, h]
theorem syncFrame_none (h : frameEnd p [2] f L = (none, M)) : syncFrame p f L = M := by simp only [syncFrame, h]
theorem coldFrame_none (h : frameEnd p [3] f L = (none, M)) : coldFrame p f L = M := by simp only [coldFrame, h]
theorem claimFrame_none (h : frameEnd p [4] f L = (none, M)) : claimFrame p f L = M := by simp only [claimFrame, h]

/-! DATA and NULL (R317, R323, R324) -/

/-- The signals of a slot taken from a payload in order, and whether one was delivered. -/
def elements (pl : List Byte) (n : Nat) (sigs : List (Nat × DirEnt)) (A : Lane) : Lane × Bool :=
  sigs.foldl (fun a x => ((element pl n x.1 a.1).1, a.2 || (element pl n x.1 a.1).2)) (A, false)

/-- What the elements of a DATA frame make of the lane that receives it. -/
def dataTaken (f : FrameEnd) (c : Cur) (M : Lane) : Lane × Bool :=
  elements ((f.payload.drop 8).take c.len) c.len (slotSigs M c.slot false) M

theorem dataFrame_forwarded (h : frameEnd p [0] f L = (some c, M)) (hfwd : (slotRec M c.slot).fwd.testBit 12 = true) :
    dataFrame p f L = if (dataTaken f c M).2 && (slotRec M c.slot).rxirq then nteEvent 1 (dataTaken f c M).1
      else (dataTaken f c M).1 := by
  simp only [dataFrame, h, hfwd]
  rfl

theorem dataFrame_event (h : frameEnd p [0] f L = (some c, M)) (hfwd : (slotRec M c.slot).fwd.testBit 12 = true)
    (hirq : (slotRec M c.slot).rxirq = true) (hany : (dataTaken f c M).2 = true) :
    dataFrame p f L = nteEvent 1 (dataTaken f c M).1 := by
  rw [dataFrame_forwarded h hfwd, if_pos (by simp [hirq, hany])]

theorem dataFrame_silent (h : frameEnd p [0] f L = (some c, M)) (hfwd : (slotRec M c.slot).fwd.testBit 12 = true)
    (hquiet : (slotRec M c.slot).rxirq = false ∨ (dataTaken f c M).2 = false) : dataFrame p f L = (dataTaken f c M).1 := by
  rw [dataFrame_forwarded h hfwd, if_neg]
  rcases hquiet with hq | hq <;> simp [hq]

theorem dataFrame_elsewhere (h : frameEnd p [0] f L = (some c, M)) (hfwd : (slotRec M c.slot).fwd.testBit 12 = false) :
    dataFrame p f L = M := by
  simp [dataFrame, h, hfwd]

theorem nullFrame_forwarded (h : frameEnd p [1] f L = (some c, M)) (hfwd : (slotRec M c.slot).fwd.testBit 12 = true) :
    nullFrame p f L = raise 0x0CC (nteEvent 2 (((slotSigs M c.slot false).foldl (fun a x => rxErr x.1 x.2 6 a)
      (withNte (fun x => { x with nulls := smSet x.nulls c.slot c.reason }) M)).inc F.NTE_RXERR1_NULL_CNT)) := by
  simp only [nullFrame, h, hfwd]
  rfl

theorem nullFrame_elsewhere (h : frameEnd p [1] f L = (some c, M)) (hfwd : (slotRec M c.slot).fwd.testBit 12 = false) :
    nullFrame p f L = M := by
  simp [nullFrame, h, hfwd]

/-! SYNC (R341, R348 to R353, R356) -/

theorem coldStarting_iff : coldStarting L = true ↔ csState L = 2 ∨ csState L = 3 := by simp [coldStarting]

theorem coldStarting_of_ne (h2 : csState L ≠ 2) (h3 : csState L ≠ 3) : coldStarting L = false := by simp [coldStarting, h2, h3]

theorem syncFrame_listening (h : frameEnd p [2] f L = (some c, M)) (hs : synced M = false) (hcs : csState M = 1) :
    syncFrame p f L = integrateFrom p (syTime f) c.time M := by
  simp [syncFrame, h, hs, hcs]

theorem syncFrame_coldStarting (h : frameEnd p [2] f L = (some c, M)) (hs : synced M = false)
    (hcs : csState M = 2 ∨ csState M = 3) : syncFrame p f L = integrateFrom p (syTime f) c.time (csAbandon M) := by
  have hlisten : csState M ≠ 1 := by omega
  simp [syncFrame, h, hs, hlisten, coldStarting_iff.mpr hcs]

theorem withNte_folPort_self (hport : M.nte.folPort = some p) : withNte (fun n => { n with folPort := some p }) M = M := by
  rw [withNte, ← hport]

theorem syncFrame_following (h : frameEnd p [2] f L = (some c, M)) (hs : synced M = false) (hcs : csState M = 4)
    (hlane : M.nte.folLane = none) (hport : M.nte.folPort = some p) : syncFrame p f L = confirmFrame p (syTime f) c M := by
  have hcold : coldStarting M = false := coldStarting_of_ne (by omega) (by omega)
  simp only [syncFrame, h, hs, hcs, hcold, hlane, withNte_folPort_self hport]
  simp [hport]

theorem syncFrame_unheeded (h : frameEnd p [2] f L = (some c, M)) (hs : synced M = false)
    (hcs : csState M = 0 ∨ csState M = 4 ∧ M.nte.folLane ≠ none) : syncFrame p f L = M := by
  have hlisten : csState M ≠ 1 := by omega
  have hcold : coldStarting M = false := coldStarting_of_ne (by omega) (by omega)
  have hfollow : ¬ (csState M = 4 ∧ M.nte.folLane = none ∧ (M.nte.folPort = some p ∨ M.nte.conf = 0)) := by
    rintro ⟨h4, hnone, -⟩
    exact hcs.elim (by omega) fun hlane => hlane.2 hnone
  simp [syncFrame, h, hs, hlisten, hcold, hfollow]

theorem syncFrame_otherSource (h : frameEnd p [2] f L = (some c, M)) (hs : synced M = true)
    (hsrc : M.n F.NTE_TIME_STAT_SRC ≠ 3 ∨ M.n F.NTE_TIME_STAT_SRC_PORT ≠ p) : syncFrame p f L = M := by
  have hother : ¬ (M.n F.NTE_TIME_STAT_SRC = 3 ∧ M.n F.NTE_TIME_STAT_SRC_PORT = p) := not_and_or.mpr hsrc
  simp [syncFrame, h, hs, hother]

/-- The offset of the followed trunk is taken from a SYNC frame (R353). -/
def trunkHeard (p : Nat) (c : Cur) (M : Lane) : Lane :=
  withNte (fun x => { x with trunkMiss := 0 }) (M.put F.NTE_TRUNKOFS_VALUE (BitVec.ofInt 32
    (offsetOf M p (slotRec M c.slot) (c.nt - (M.nte.cyc : Int) * (cycNs M : Int)))))

theorem syncFrame_trunk (h : frameEnd p [2] f L = (some c, M)) (hs : synced M = true) (hsrc : M.n F.NTE_TIME_STAT_SRC = 3)
    (hport : M.n F.NTE_TIME_STAT_SRC_PORT = p) : syncFrame p f L =
      if (trunkHeard p c M).b F.NTE_CLAIM_TX_GO = true ∧ (nth (syAns f) 0 0).toNat = ownNode (trunkHeard p c M) ∧
        nth (syAns f) 1 0 ≠ 0
      then ((trunkHeard p c M).putN F.NTE_CLAIM_TX_RESULT (nth (syAns f) 1 0).toNat).setB F.NTE_CLAIM_TX_GO false
      else trunkHeard p c M := by
  simp only [syncFrame, h, hs, hsrc, hport, and_self, if_true]
  rfl

theorem syncFrame_trunk_unclaimed (h : frameEnd p [2] f L = (some c, M)) (hs : synced M = true) (hsrc : M.n F.NTE_TIME_STAT_SRC = 3)
    (hport : M.n F.NTE_TIME_STAT_SRC_PORT = p) (hgo : (trunkHeard p c M).b F.NTE_CLAIM_TX_GO = false) :
    syncFrame p f L = trunkHeard p c M := by
  rw [syncFrame_trunk h hs hsrc hport, if_neg (by simp [hgo])]

/-! COLDSTART (R348, R349, R351) -/

theorem coldFrame_unheeded (h : frameEnd p [3] f L = (some c, M)) (hcs : synced M = true ∨ csState M = 0) :
    coldFrame p f L = M := by
  simp [coldFrame, h, hcs]

theorem keepBest_coldRank (rank node : Nat) (q : Option Nat) (x : Option LaneId) (M : Lane) :
    coldRank (keepBest rank node q x M) = coldRank M := by
  unfold keepBest
  dsimp only
  split <;> rfl

theorem keepBest_csState (rank node : Nat) (q : Option Nat) (x : Option LaneId) (hs : smSorted M.regs = true) :
    csState (keepBest rank node q x M) = csState M := by
  unfold keepBest
  dsimp only
  split
  · exact congrArg BitVec.toNat (fld_putN_other rank hs (by decide))
  · rfl

/-- A COLDSTART frame as the lane keeps it. -/
def coldHeard (p : Nat) (f : FrameEnd) (c : Cur) (M : Lane) : Lane := keepBest (syRank f) c.node (some p) none M

theorem coldFrame_otherRank (h : frameEnd p [3] f L = (some c, M)) (hs : synced M = false) (hcs : csState M ≠ 0)
    (hfollow : csState M ≠ 4) (hsort : smSorted M.regs = true) (hrank : syRank f ≠ coldRank M) : coldFrame p f L =
      if coldStarting M then
        if betterThanOwn (syRank f) c.node (coldHeard p f c M) then
          integrateFrom p (syTime f) c.time (csAbandon (coldHeard p f c M))
        else coldHeard p f c M
      else coldHeard p f c M := by
  have hstate : csState (coldHeard p f c M) = csState M := keepBest_csState _ _ _ _ hsort
  have hown : coldRank (coldHeard p f c M) = coldRank M := keepBest_coldRank _ _ _ _ _
  have hcold : coldStarting (coldHeard p f c M) = coldStarting M := by rw [coldStarting, hstate, coldStarting]
  have hunheeded : ¬ (synced M = true ∨ csState M = 0) := by simp [hs, hcs]
  rw [coldHeard] at hstate hown hcold ⊢
  simp [coldFrame, h, hunheeded, hown, hrank, hcold, hstate, hfollow]

theorem coldFrame_listening (h : frameEnd p [3] f L = (some c, M)) (hs : synced M = false) (hsort : smSorted M.regs = true)
    (hrank : syRank f ≠ coldRank M) (hcs : csState M = 1) : coldFrame p f L = coldHeard p f c M := by
  have hcold : coldStarting M = false := coldStarting_of_ne (by omega) (by omega)
  simp [coldFrame_otherRank h hs (by omega) (by omega) hsort hrank, hcold]

theorem coldFrame_better (h : frameEnd p [3] f L = (some c, M)) (hs : synced M = false) (hsort : smSorted M.regs = true)
    (hrank : syRank f ≠ coldRank M) (hcs : csState M = 2 ∨ csState M = 3)
    (hbetter : betterThanOwn (syRank f) c.node (coldHeard p f c M) = true) :
    coldFrame p f L = integrateFrom p (syTime f) c.time (csAbandon (coldHeard p f c M)) := by
  simp [coldFrame_otherRank h hs (by omega) (by omega) hsort hrank, coldStarting_iff.mpr hcs, hbetter]

theorem coldFrame_worse (h : frameEnd p [3] f L = (some c, M)) (hs : synced M = false) (hsort : smSorted M.regs = true)
    (hrank : syRank f ≠ coldRank M) (hcs : csState M = 2 ∨ csState M = 3)
    (hworse : betterThanOwn (syRank f) c.node (coldHeard p f c M) = false) : coldFrame p f L = coldHeard p f c M := by
  simp [coldFrame_otherRank h hs (by omega) (by omega) hsort hrank, hworse]

/-! CLAIM (R354, R355) -/

/-- NTE_CLAIM_LAST as the answer to a claim leaves it. -/
def claimAnswered (p node res : Nat) (data : List Byte) (A : Lane) : Lane :=
  ((((A.putN F.NTE_CLAIM_LAST_NODE_ID node).putN F.NTE_CLAIM_LAST_PORT p).putN F.NTE_CLAIM_LAST_RESULT res).putN
    F.NTE_CLAIM_LAST_CLASS (bAt data 0)).putN F.NTE_CLAIM_LAST_COUNT (bAt data 1)

/-- The boundary at which what a claim grants or releases takes effect. -/
def claimBound (M : Lane) : Nat := M.nte.cyc / 64 + if frameCyc M < 63 then 1 else 2

/-- What a claim grants, for RESULT 1, or releases, for RESULT 2. -/
def claimGranted (p node : Nat) (data : List Byte) (M : Lane) : List ClaimDue :=
  (List.range (bAt data 1)).map (fun j => ⟨true, ⟨node, p, beNat ((data.drop (4 + 2 * j)).take 2)⟩, claimBound M⟩)
def claimReleased (p node : Nat) (M : Lane) : List ClaimDue :=
  ((allClaims M).filter (fun x => decide (x.node = node ∧ x.port = p))).map (fun x => ⟨false, x, claimBound M⟩)
def claimDues (p node res : Nat) (data : List Byte) (M : Lane) : List ClaimDue :=
  if res = 1 then claimGranted p node data M else if res = 2 then claimReleased p node M else []

theorem claimFrame_eq {data : List Byte} {res : Nat} (h : frameEnd p [4] f L = (some c, M))
    (hdata : (f.payload.drop 8).take c.len = data) (hres : claimResult p c.node c data M = res) : claimFrame p f L =
      let A := claimAnswered p c.node res data (withNte (fun n => { n with due := n.due ++ claimDues p c.node res data M }) M)
      if res ≤ 2 then A else raise 0x0DA (A.inc F.NTE_CS_ERR_CLREF_CNT) := by
  simp only [claimFrame, h, hdata, hres, claimDues, claimGranted, claimReleased, claimBound, List.map_map]
  rfl

theorem claimFrame_refused {data : List Byte} {res : Nat} (h : frameEnd p [4] f L = (some c, M))
    (hdata : (f.payload.drop 8).take c.len = data) (hres : claimResult p c.node c data M = res) (hbad : 2 < res) :
    claimFrame p f L = raise 0x0DA ((claimAnswered p c.node res data M).inc F.NTE_CS_ERR_CLREF_CNT) := by
  have hdues : claimDues p c.node res data M = [] := by rw [claimDues, if_neg (by omega), if_neg (by omega)]
  have hsame : withNte (fun n => { n with due := n.due ++ [] }) M = M := by simp only [withNte, List.append_nil]
  rw [claimFrame_eq h hdata hres, hdues, hsame]
  exact if_neg hbad.not_ge

theorem claimFrame_taken {data : List Byte} {res : Nat} (h : frameEnd p [4] f L = (some c, M))
    (hdata : (f.payload.drop 8).take c.len = data) (hres : claimResult p c.node c data M = res) (hgood : res ≤ 2) :
    claimFrame p f L = claimAnswered p c.node res data
      (withNte (fun n => { n with due := n.due ++ claimDues p c.node res data M }) M) := by
  rw [claimFrame_eq h hdata hres]
  exact if_pos hgood

theorem claimAnswered_result {node res : Nat} {data : List Byte} (hs : smSorted M.regs = true) (hres : res < 16) :
    (claimAnswered p node res data M).n F.NTE_CLAIM_LAST_RESULT = res := by
  have hport := putN_sorted F.NTE_CLAIM_LAST_PORT p (putN_sorted F.NTE_CLAIM_LAST_NODE_ID node hs)
  have hset := putN_sorted F.NTE_CLAIM_LAST_RESULT res hport
  rw [claimAnswered, Lane.n, fld_putN_other _ (putN_sorted _ _ hset) (by decide), fld_putN_other _ hset (by decide)]
  exact n_putN_same hport hres (by decide)

theorem claimAnswered_port {node res : Nat} {data : List Byte} (hs : smSorted M.regs = true) (hp : p < 16) :
    (claimAnswered p node res data M).n F.NTE_CLAIM_LAST_PORT = p := by
  have hnode := putN_sorted F.NTE_CLAIM_LAST_NODE_ID node hs
  have hset := putN_sorted F.NTE_CLAIM_LAST_PORT p hnode
  have hres := putN_sorted F.NTE_CLAIM_LAST_RESULT res hset
  rw [claimAnswered, Lane.n, fld_putN_other _ (putN_sorted _ _ hres) (by decide), fld_putN_other _ hres (by decide),
    fld_putN_other _ hset (by decide)]
  exact n_putN_same hnode hp (by decide)

end

/-! Own slots (R321, R322, R356) -/

/-- Record `slot` is an own slot of the cycle in progress, and the network runs. -/
structure OwnSlot (slot : Nat) (L : Lane) : Prop where
  run : L.b F.NTE_STAT_RUN = true
  listed : slot < nRec L
  port : (slotRec L slot).port = 15
  now : slotExists (slotRec L slot) (frameCyc L) = true

/-- A NULL frame leaves an own slot (R322). -/
def sendNull (slot : Nat) (r : SlotRec) (reason : Nat) (A : Lane) : Lane :=
  sendOwn slot r 1 0 reason (raise 0x0CD (nteEvent 2 (A.inc F.NTE_RXERR1_TXNULL_CNT)))

/-- What NET_TX prepared is in time for the slot (R321). -/
def PrepInTime (slot : Nat) (q : Prep) (L : Lane) : Prop := q.cyc ≠ L.nte.cyc ∨ q.pos ≤ 250 * (slotRec L slot).start - 4000

section
variable {slot : Nat} {q : Prep} {L : Lane}

theorem ownSend_stopped (h : L.b F.NTE_STAT_RUN = false) : ownSend slot L = L := by simp [ownSend, h]

theorem OwnSlot.claim (h : OwnSlot slot L) (hkind : (slotRec L slot).kind = 3) :
    ownSend slot L = claimSend slot (slotRec L slot) L := by
  simp [ownSend, h.run, h.listed, h.port, h.now, hkind]

theorem not_sync_not_claim_of_data {r : SlotRec} (hkind : r.kind ≤ 1) : ¬ (r.kind = 2 ∨ 3 < r.kind) ∧ r.kind ≠ 3 := by omega

/-- A slot for which nothing was prepared in time sends NULL, LATE_TX where no other reason stands before it. -/
theorem OwnSlot.late (h : OwnSlot slot L) (hkind : (slotRec L slot).kind ≤ 1)
    (hprep : ∀ q, smFind L.nte.prep slot = some q → ¬ PrepInTime slot q L) (hnull : nullCase slot L = 0) :
    ownSend slot L = sendNull slot (slotRec L slot) 6 (L.inc F.NTE_RXERR1_LATE_TX_CNT) := by
  cases hfind : smFind L.nte.prep slot with
  | none => simp [ownSend, h.run, h.listed, h.port, h.now, not_sync_not_claim_of_data hkind, hfind, hnull, sendNull]
  | some q =>
    have hlate := hprep q hfind
    rw [PrepInTime] at hlate
    simp [ownSend, h.run, h.listed, h.port, h.now, not_sync_not_claim_of_data hkind, hfind, hnull, hlate, sendNull]

theorem OwnSlot.unprepared (h : OwnSlot slot L) (hkind : (slotRec L slot).kind ≤ 1) (hprep : smFind L.nte.prep slot = none)
    (hnull : nullCase slot L ≠ 0) (hnotLate : nullCase slot L ≠ 6) :
    ownSend slot L = sendNull slot (slotRec L slot) (nullCase slot L) L := by
  simp [ownSend, h.run, h.listed, h.port, h.now, not_sync_not_claim_of_data hkind, hprep, hnull, hnotLate, sendNull]

theorem OwnSlot.sends (h : OwnSlot slot L) (hkind : (slotRec L slot).kind ≤ 1) (hprep : smFind L.nte.prep slot = some q)
    (htime : PrepInTime slot q L) (hnull : nullCase slot L = 0) (hreason : q.reason = 0) : ownSend slot L =
      sendOwn slot (slotRec L slot) 0 q.len 0 (q.sigs.foldl (fun a x => sentStatus x.1 x.2.1 a)
        (withNte (fun x => { x with prep := smErase x.prep slot }) L)) := by
  rw [PrepInTime] at htime
  simp [ownSend, h.run, h.listed, h.port, h.now, not_sync_not_claim_of_data hkind, hprep, hnull, htime, hreason]

theorem OwnSlot.sendsNull (h : OwnSlot slot L) (hkind : (slotRec L slot).kind ≤ 1) (hprep : smFind L.nte.prep slot = some q)
    (htime : PrepInTime slot q L) (hnull : nullCase slot L = 0) (hreason : q.reason ≠ 0) (hnotLate : q.reason ≠ 6) :
    ownSend slot L = sendNull slot (slotRec L slot) q.reason (withNte (fun x => { x with prep := smErase x.prep slot }) L) := by
  rw [PrepInTime] at htime
  simp [ownSend, h.run, h.listed, h.port, h.now, not_sync_not_claim_of_data hkind, hprep, hnull, htime, hreason, hnotLate, sendNull]

theorem claimSend_sends {r : SlotRec} (hgo : L.b F.NTE_CLAIM_TX_GO = true) (hsent : L.nte.claimSent = false) : claimSend slot r L =
    sendOwn slot r 4 (4 + 2 * L.n F.NTE_CLAIM_TX_COUNT) 0 (withNte (fun n => { n with claimSent := true }) L) := by
  simp [claimSend, hgo, hsent]

theorem claimSend_idle {r : SlotRec} (h : L.b F.NTE_CLAIM_TX_GO = false ∨ L.nte.claimSent = true) : claimSend slot r L = L := by
  rcases h with h | h <;> simp [claimSend, h]

end

/-! The own SYNC slot (R340, R348) -/

section
variable {i : Nat} {r : SlotRec} {L : Lane}

theorem syncSend_none (h : ownSync L = none) : syncSend L = L := by simp only [syncSend, h]

theorem syncSend_notNow (h : ownSync L = some (i, r)) (hnow : slotExists r (frameCyc L) = false) : syncSend L = L := by
  simp [syncSend, h, hnow]

theorem syncSend_synced (h : ownSync L = some (i, r)) (hnow : slotExists r (frameCyc L) = true) (hs : synced L = true) :
    syncSend L = sendOwn i r 2 48 0 L := by
  simp [syncSend, h, hnow, hs]

theorem syncSend_cold (h : ownSync L = some (i, r)) (hnow : slotExists r (frameCyc L) = true) (hs : synced L = false)
    (hled : ledTime L = true) (hcyc : 56 ≤ frameCyc L) : syncSend L = sendOwn i r 3 16 0 L := by
  simp [syncSend, h, hnow, hs, hled, hcyc]

theorem syncSend_idle (h : ownSync L = some (i, r)) (hs : synced L = false) (hidle : ledTime L = false ∨ frameCyc L < 56) :
    syncSend L = L := by
  rcases hidle with hled | hcyc
  · simp [syncSend, h, hs, hled]
  · simp [syncSend, h, hs, hcyc.not_ge]

end

/-- Settles O46: by the type of the frame and by how it ends, with the lane once the frame has left its port; then the own slots. -/
theorem framesReachTheirReceivers : Obligations.FramesReachTheirReceivers := by
  intro l s q f c slot e pl i n k w W sr p1 L M put good sigs all el body delta node data res trunk heard R null taken inTime bound
    hlive
  have ends {k : Nat} (hgood : good) (htyp : c.typ = k) : frameEnd q.val [k] f L = (some c, M) := frameEnd_good hgood.1 hgood.2 htyp
  have event {c : Instr} {F : Lane → Lane} {A : Lane} (hc : exec c s = .next (s.onLane l (whenLive F))) (hF : F L = A) :
      exec c s = .next (s.setLane l A) := exec_of_whenLive hlive hc hF
  have binding {c : Instr} {F : Lane → Lane} {A : Lane} (hc : exec c s = .next (abandonAll l s (s.onLane l (whenLive F))))
      (hF : F L = A) : exec c s = put A := exec_of_whenLive_abandon hlive hc hF
  have idle {c : Instr} {F : Lane → Lane} (hc : exec c s = .next (abandonAll l s (s.onLane l (whenLive F)))) (hF : F L = L) :
      exec c s = .next s := exec_of_whenLive_abandon_same hlive hc hF
  refine ⟨fun hcur hbad => ?bad, fun A hA => congrArg Host.Outcome.next (abandonAll_setLane hA), fun hgood htyp hfwd => ?data,
    fun hgood htyp hfwd => event rfl (dataFrame_elsewhere (ends hgood htyp) hfwd), fun hdir hentry hstatus => ?element,
    fun hgood htyp hfwd => event rfl (nullFrame_forwarded (ends hgood htyp) hfwd),
    fun hgood htyp hfwd => event rfl (nullFrame_elsewhere (ends hgood htyp) hfwd),
    fun hgood htyp hs => ?integrates, fun hgood htyp hs => ?follows,
    fun hgood htyp hcs => binding rfl (coldFrame_unheeded (ends hgood htyp) hcs),
    fun hgood htyp hs hsort hrank => ?cold, fun hgood htyp hres => event rfl (claimFrame_refused (ends hgood htyp) rfl rfl hres),
    fun hgood htyp hres hsort => ?claim, fun hrun => exec_of_whenLive_same hlive rfl (ownSend_stopped hrun),
    fun hrun hlisted hport hnow => ?own, fun hnone => idle rfl (syncSend_none hnone), fun hsome hnow => ?sync,
    fun hsome hnow => idle rfl (syncSend_notNow hsome hnow)⟩
  case bad =>
    have hend {k : Nat} (htyp : c.typ = k) : frameEnd q.val [k] f L = (none, frameBad q.val L) := frameEnd_bad hcur hbad htyp
    simp only [List.forall_mem_cons, List.not_mem_nil, false_imp_iff, implies_true, and_true]
    exact ⟨⟨fun h => event rfl (dataFrame_none (hend h)), fun h => event rfl (nullFrame_none (hend h)),
      fun h => event rfl (claimFrame_none (hend h))⟩,
      fun h => binding rfl (syncFrame_none (hend h)), fun h => binding rfl (coldFrame_none (hend h))⟩
  case data =>
    exact ⟨fun hirq hany => event rfl (dataFrame_event (ends hgood htyp) hfwd hirq hany),
      fun hquiet => event rfl (dataFrame_silent (ends hgood htyp) hfwd hquiet)⟩
  case element =>
    have hread : SigReadable i e w L := ⟨⟨W, hdir⟩, hentry, hstatus⟩
    exact ⟨element_short hread, fun hlen => ⟨element_spoilt hread hlen, fun hcrc => ⟨element_first hread hlen hcrc,
      element_repeated hread hlen hcrc, element_next hread hlen hcrc, element_gap hread hlen hcrc⟩⟩⟩
  case integrates =>
    have hend := ends hgood htyp
    exact ⟨fun hcs => binding rfl (syncFrame_listening hend hs hcs), fun hcs => binding rfl (syncFrame_coldStarting hend hs hcs),
      fun hcs hlane hport => binding rfl (syncFrame_following hend hs hcs hlane hport),
      fun hcs => binding rfl (syncFrame_unheeded hend hs hcs)⟩
  case follows =>
    have hend := ends hgood htyp
    exact ⟨fun hsrc => binding rfl (syncFrame_otherSource hend hs hsrc),
      fun hsrc hport hgo => binding rfl (syncFrame_trunk_unclaimed hend hs hsrc hport hgo),
      fun hsrc hport hgo hnode hans => binding rfl ((syncFrame_trunk hend hs hsrc hport).trans (if_pos ⟨hgo, hnode, hans⟩))⟩
  case cold =>
    have hend := ends hgood htyp
    exact ⟨fun hcs => binding rfl (coldFrame_listening hend hs hsort hrank hcs),
      fun hcs hbetter => binding rfl (coldFrame_better hend hs hsort hrank hcs hbetter),
      fun hcs hworse => binding rfl (coldFrame_worse hend hs hsort hrank hcs hworse)⟩
  case claim =>
    have hle : res ≤ 2 := hres.elim (fun h => h.le.trans one_le_two) Eq.le
    refine ⟨_, event rfl (claimFrame_taken (ends hgood htyp) rfl rfl hle), onlyLane_onLane l s fun _ => _, ?_⟩
    rw [lane_setLane_same]
    exact ⟨claimAnswered_result hsort (hle.trans_lt (by decide)), claimAnswered_port hsort q.isLt, rfl,
      fun hgrant => congrArg (L.nte.due ++ ·) (if_pos hgrant),
      fun hrelease => congrArg (L.nte.due ++ ·) ((if_neg (hrelease.trans_ne (by decide))).trans (if_pos hrelease))⟩
  case own =>
    have hown : OwnSlot slot.toNat L := ⟨hrun, hlisted, hport, hnow⟩
    refine ⟨fun hkind hprep hnull => ⟨fun hk => ?_, fun hk hnotLate => ?_⟩,
      fun hkind hprep hnull => ⟨fun htime hreason => ?_, fun htime hreason hnotLate => ?_, fun hlate => ?_⟩,
      fun hkind hgo hsent => ?_, fun hkind hidle => ?_⟩
    · exact event rfl (hown.late hkind (by simp [hprep]) (hnull.trans hk))
    · subst hnull
      exact event rfl (hown.unprepared hkind hprep hk hnotLate)
    · exact event rfl (hown.sends hkind hprep htime hnull hreason)
    · exact event rfl (hown.sendsNull hkind hprep htime hnull hreason hnotLate)
    · exact event rfl (hown.late hkind (fun x hx => by rwa [← Option.some.inj (hprep.symm.trans hx)]) hnull)
    · exact event rfl ((hown.claim hkind).trans (claimSend_sends hgo hsent))
    · exact exec_of_whenLive_same hlive rfl ((hown.claim hkind).trans (claimSend_idle hidle))
  case sync =>
    exact ⟨fun hs => binding rfl (syncSend_synced hsome hnow hs),
      fun hs hled hcyc => binding rfl (syncSend_cold hsome hnow hs hled hcyc),
      fun hs hidle => idle rfl (syncSend_idle hsome hs hidle)⟩

end Sys2Proof.Machine
end

section
/-! SUPPORT. Proof of the statement about network time, cold start and claims of slots: what memory operations leave of the network
engine, the start of a cycle, the fields that SYNCED sets, and what each event does. -/

namespace Sys2Proof.Machine

/-! Memory operations leave the network engine as it is (R38, R39) -/

theorem Kept.nte {L K : Lane} (h : Kept L K) : K.nte = L.nte := congrArg (·.2.1) h.part

theorem kept_eccRaise (k : UpsetKind) (m a : Nat) (L : Lane) : Kept L (eccRaise k m a L) := by
  unfold eccRaise
  split
  · exact (kept_eccNote k m a L).trans (kept_raise _ _)
  · exact kept_eccNote k m a L

theorem kept_eccRead (m a : Nat) (L : Lane) : Kept L (eccRead m a L).2 := by
  have hlook := (reacts_eccLook m a L).toKept
  unfold eccRead
  split
  · next h => rw [h] at hlook; exact hlook
  · next h => rw [h] at hlook; exact hlook.trans (kept_eccRaise _ _ _ _)

theorem kept_eccScan (ws : List Nat) (L : Lane) : Kept L (eccScan L ws).2 := by
  induction ws generalizing L with
  | nil => exact kept_refl L
  | cons w ws ih =>
    rw [eccScan]
    split
    · exact ih L
    · next m _ =>
      dsimp only
      split
      · exact (kept_eccRead m w L).trans (ih _)
      · exact kept_eccRead m w L

section
variable (a : Nat) (L : Lane)

@[simp] theorem readW_nte : (readW a L).2.nte = L.nte := by
  unfold readW
  dsimp only
  split <;> exact (kept_eccScan _ L).nte

@[simp] theorem readWords_nte (n : Nat) : (readWords a n L).2.nte = L.nte := by
  unfold readWords
  dsimp only
  split <;> exact (kept_eccScan _ L).nte

@[simp] theorem writeBytes_nte (bs : List Byte) : (writeBytes a bs L).2.nte = L.nte := by
  unfold writeBytes
  dsimp only
  split
  · exact (kept_eccScan _ L).nte
  · exact (wrBytes_nte _ a bs).trans (kept_eccScan _ L).nte

@[simp] theorem writeW_nte (w : Word) : (writeW a w L).2.nte = L.nte := writeBytes_nte a L _

@[simp] theorem raise_nte (src : Nat) : (raise src L).nte = L.nte := (kept_raise src L).nte

end

/-! The start of a cycle (R334): the cycle's number and the age of the own claim, which what else starts with it leaves alone -/

/-- The number of the cycle in progress and the age of the own claim. -/
def cycleCounts (L : Lane) : Nat × Nat := (L.nte.cyc, L.nte.claimAge)

section
variable {L K : Lane}

theorem cycleCounts_of_nte (h : K.nte = L.nte) : cycleCounts K = cycleCounts L := by rw [cycleCounts, h]; rfl

theorem showIso_nte (p : Nat) (iso prob : Bool) : (showIso p iso prob L).nte = L.nte := ite_keeps (g := Lane.nte) _ rfl

theorem portInc_nte (p : Nat) (f : Nat → Fld) : (portInc p f L).nte = L.nte := ite_keeps (g := Lane.nte) _ rfl

theorem cycleCounts_portCycle (hp : Bool) (p : Nat) : cycleCounts (portCycle hp p L) = cycleCounts L := by
  unfold portCycle
  extract_lets x run L1 L2 L3
  split
  · have hcount : cycleCounts L2 = cycleCounts L := by
      unfold L2
      split <;> rfl
    split
    · exact (cycleCounts_of_nte (portInc_nte ..)).trans ((cycleCounts_of_nte (showIso_nte (L := L2) ..)).trans hcount)
    · exact hcount
  · rfl

theorem nteEvent_nte (b : Nat) : (nteEvent b L).nte = L.nte := by
  unfold nteEvent
  dsimp only
  split <;> exact ite_keeps (g := Lane.nte) _ (plicRaise_nte ..)

theorem rxErr_nte (i : Nat) (e : DirEnt) (kind : Nat) : (rxErr i e kind L).nte = L.nte := by
  unfold rxErr
  dsimp only
  split <;> split <;> simp [nteEvent_nte]

theorem ageSig_nte (i : Nat) (e : DirEnt) : (ageSig i e L).nte = L.nte := by
  unfold ageSig
  dsimp only
  split
  · exact readW_nte ..
  · split <;> simp [rxErr_nte]

theorem ageCan_nte (m : Nat) : (ageCan m L).nte = L.nte := by
  unfold ageCan
  dsimp only
  split
  · split
    · split <;> simp
    · exact readWords_nte ..
  · exact readWords_nte ..

theorem cycleCounts_correct : cycleCounts (correct L) = cycleCounts L := rfl

theorem launch_nte (link n : Nat) : (launch link n L).nte = L.nte :=
  ite_keeps (g := Lane.nte) _ (foldl_keeps (fun _ _ => (reacts_pepper ..).toKept.nte) _ L)

theorem cycleCounts_setPeer (link : Nat) (f : PeerTime → PeerTime) : cycleCounts (setPeer link f L) = cycleCounts L := by
  unfold setPeer cycleCounts
  dsimp only [withNte_nte]
  split <;> rfl

theorem cycleCounts_timeSend (stamp : Int) : cycleCounts (timeSend stamp L) = cycleCounts L := by
  have hlink (link : Nat) (A : Lane) : cycleCounts (if linkIsUp A link && !(peerOf A link).sent then
      launch link 1 (setPeer link (fun p => { p with sPrev := p.sLast, sLast := at8 stamp, sent := true }) A) else A) =
      cycleCounts A := ite_keeps _ ((cycleCounts_of_nte (launch_nte ..)).trans (cycleCounts_setPeer ..))
  exact (hlink 1 _).trans (hlink 0 L)

/-- A cycle starts where the network keeps a time and this has come to another cycle. -/
theorem cycleDue_iff : cycleDue L = true ↔
    L.nte.held = true ∧ csState L ≠ 0 ∧ (ntNow L / (max 1 (cycNs L) : Nat)).toNat ≠ L.nte.cyc := by
  simp [cycleDue, keepsTime, cycleNow, and_assoc]

/-- A cycle starts: its last acts are the end of an integration and the event. -/
theorem cycleBegins_counts (num : Nat) : ∃ C, cycleBegins num L = nteEvent 0 (integrateEnd (decide (num % 64 = 0)) C) ∧
    C.nte.cyc = num ∧ C.nte.claimAge = L.nte.claimAge + 1 := by
  unfold cycleBegins
  extract_lets L0 hp L1 L2 L3 cgw L4 L5 L6
  have hports : cycleCounts L1 = cycleCounts L0 := foldl_keeps (fun _ _ => cycleCounts_portCycle ..) _ L0
  have hsigs : cycleCounts L2 = cycleCounts L1 := foldl_keeps (fun a s => by
    split
    · rfl
    · exact cycleCounts_of_nte (ageSig_nte ..)) _ L1
  have hcans : cycleCounts L3 = cycleCounts L2 := foldl_keeps (fun _ m => cycleCounts_of_nte (ageCan_nte m)) _ L2
  have hsend : cycleCounts L6 = cycleCounts L5 := by
    unfold L6
    split
    · rfl
    · exact cycleCounts_timeSend _
  have hcounts : cycleCounts L6 = (num, L.nte.claimAge + 1) :=
    hsend.trans ((cycleCounts_correct (L := L4)).trans (hcans.trans (hsigs.trans hports)))
  exact ⟨L6, rfl, Prod.mk.inj hcounts⟩

end

/-! SYNCED (R348, R351): the fields that it sets -/

theorem b_of_fld {L K : Lane} {f : Fld} (h : K.fld f = L.fld f) : K.b f = L.b f := by rw [Lane.b, h]; rfl

/-- The fields that SYNCED sets. -/
def syncedFlds : List Fld :=
  [F.NTE_TIME_STAT_SYNCED, F.SSG_STAT_RUN, F.NTE_STAT_RUN, F.NTE_TIME_STAT_CS_STATE, F.TLS_MS_STAT_SUBSTATE]

/-- SYNCED is set, the schedule is enforced and own slots are sent. -/
def syncedLane (L : Lane) : Lane :=
  withNte (fun n => { n with held := true, conf := 0, lostRun := 0, trunkMiss := 0 })
    (setCs 5 (((L.setB F.NTE_TIME_STAT_SYNCED true).setB F.SSG_STAT_RUN true).setB F.NTE_STAT_RUN true))

section
variable {L : Lane}

theorem setSynced_eq (hdeg : L.b F.CLK_STAT_DEGRADED = false) :
    setSynced L = if substate (syncedLane L) = 4 then setSubstate 5 (syncedLane L) else syncedLane L := by
  simp only [setSynced, hdeg]
  rfl

theorem setSynced_cyc (hdeg : L.b F.CLK_STAT_DEGRADED = false) : (setSynced L).nte.cyc = L.nte.cyc := by
  rw [setSynced_eq hdeg]
  exact ite_keeps (g := fun A => A.nte.cyc) _ rfl

section
variable (hs : smSorted L.regs = true) (hdeg : L.b F.CLK_STAT_DEGRADED = false)
include hs

theorem syncedLane_sorted : smSorted (syncedLane L).regs = true := by
  rw [syncedLane, withNte_regs]
  exact putN_sorted _ _ (setB_sorted _ _ (setB_sorted _ _ (setB_sorted _ _ hs)))

include hdeg

theorem setSynced_fld {f : Fld} (hf : f.key ≠ F.TLS_MS_STAT_SUBSTATE.key) : (setSynced L).fld f = (syncedLane L).fld f := by
  rw [setSynced_eq hdeg]
  exact ite_keeps (g := fun A => A.fld f) _ (fld_putN_other 5 (syncedLane_sorted hs) hf)

/-- A field that SYNCED does not set. -/
theorem setSynced_fld_other {f : Fld} (hf : ∀ g ∈ syncedFlds, f.key ≠ g.key) : (setSynced L).fld f = L.fld f := by
  simp only [syncedFlds, List.forall_mem_cons, List.not_mem_nil, false_imp_iff, implies_true, and_true] at hf
  obtain ⟨hsync, hssg, hnte, hcs, hsub⟩ := hf
  have h1 := setB_sorted F.NTE_TIME_STAT_SYNCED true hs
  have h2 := setB_sorted F.SSG_STAT_RUN true h1
  have h3 := setB_sorted F.NTE_STAT_RUN true h2
  exact (setSynced_fld hs hdeg hsub).trans ((fld_putN_other 5 h3 hcs).trans ((fld_setB_other true h2 hnte).trans
    ((fld_setB_other true h1 hssg).trans (fld_setB_other true hs hsync))))

theorem setSynced_csState : csState (setSynced L) = 5 := by
  have hset := setB_sorted F.NTE_STAT_RUN true (setB_sorted F.SSG_STAT_RUN true (setB_sorted F.NTE_TIME_STAT_SYNCED true hs))
  exact (congrArg BitVec.toNat (setSynced_fld hs hdeg (f := F.NTE_TIME_STAT_CS_STATE) (by decide))).trans
    (n_putN_same (f := F.NTE_TIME_STAT_CS_STATE) (k := 5) hset (by decide) (by decide))

/-- The three flags that SYNCED sets. -/
theorem setSynced_flags :
    synced (setSynced L) = true ∧ (setSynced L).b F.SSG_STAT_RUN = true ∧ (setSynced L).b F.NTE_STAT_RUN = true := by
  have h1 := setB_sorted F.NTE_TIME_STAT_SYNCED true hs
  have h2 := setB_sorted F.SSG_STAT_RUN true h1
  have h3 := setB_sorted F.NTE_STAT_RUN true h2
  have hflag {f : Fld} (hsub : f.key ≠ F.TLS_MS_STAT_SUBSTATE.key) (hcs : f.key ≠ F.NTE_TIME_STAT_CS_STATE.key) :
      (setSynced L).b f = (((L.setB F.NTE_TIME_STAT_SYNCED true).setB F.SSG_STAT_RUN true).setB F.NTE_STAT_RUN true).b f :=
    b_of_fld ((setSynced_fld hs hdeg hsub).trans (fld_putN_other 5 h3 hcs))
  refine ⟨(hflag (by decide) (by decide)).trans ?_, (hflag (by decide) (by decide)).trans ?_,
    (hflag (by decide) (by decide)).trans ?_⟩
  · exact (b_of_fld ((fld_setB_other true h2 (by decide)).trans (fld_setB_other true h1 (by decide)))).trans
      (b_setB_same true hs rfl)
  · exact (b_of_fld (fld_setB_other true h2 (by decide))).trans (b_setB_same true h1 rfl)
  · exact b_setB_same true h2 rfl

end
end

/-! Cold start (R348): listening, waiting for the leader, leading -/

section
variable {L : Lane}

theorem listenEnd_idle (h : csState L ≠ 1) : listenEnd L = L := if_pos h

theorem listenEnd_follows (h : csState L = 1) (hbetter : betterThanOwn (L.n F.NTE_TIME_STAT_HEARD_RANK) L.nte.bestNode L = true) :
    listenEnd L = follow L.nte.bestPort (if L.nte.bestPort.isSome then none else L.nte.bestLane) L := by
  simp [listenEnd, h, hbetter]

theorem listenEnd_waits (h : csState L = 1) (hbetter : betterThanOwn (L.n F.NTE_TIME_STAT_HEARD_RANK) L.nte.bestNode L = false)
    (hlower : lowerReady L = true) : listenEnd L = setCs 2 L := by
  simp [listenEnd, h, hbetter, hlower]

theorem listenEnd_leads (h : csState L = 1) (hbetter : betterThanOwn (L.n F.NTE_TIME_STAT_HEARD_RANK) L.nte.bestNode L = false)
    (hlower : lowerReady L = false) : listenEnd L = setCs 3 (withNte (fun n => { n with lead := true }) L) := by
  simp [listenEnd, h, hbetter, hlower]

theorem waitLeadEnd_idle (h : csState L ≠ 2 ∨ L.nte.conf ≠ 0) : waitLeadEnd L = L := if_neg (not_and_or.mpr h)

theorem ntNow_setNt (nt : Int) : ntNow (setNt nt L.time L) = nt := by
  simp only [ntNow, setNt, shiftNt, withNte_nte, withNte_time]
  omega

/-- The leader's network time stands at the start of frame cycle 56. -/
theorem coldBegin_leads (h : csState L = 3) (hlead : L.nte.lead = true) :
    (coldBegin L).nte.cyc = 56 ∧ (coldBegin L).nte.held = true ∧ ntNow (coldBegin L) = 56 * (cycNs L : Int) := by
  have hbegin : coldBegin L = withNte (fun n => { n with cyc := 56 }) (setNt (56 * cycNs L : Nat) L.time L) := if_pos ⟨h, hlead⟩
  rw [hbegin]
  have hnow : ntNow (setNt (56 * cycNs L : Nat) L.time L) = 56 * (cycNs L : Int) := (ntNow_setNt _).trans (Int.natCast_mul 56 _)
  exact ⟨rfl, rfl, hnow⟩

theorem coldBegin_idle (h : L.nte.lead = false) : coldBegin L = L := by simp [coldBegin, h]

/-! Cycle 0 of a cold start (step 6 of R348) -/

theorem coldSync_before (h : frameCyc L ≠ 0) : coldSync L = L := if_pos h

theorem coldSync_waiting (h : frameCyc L = 0) (hcs : csState L ≠ 3) (hwaits : waitsZero L = true) :
    coldSync L = integrateEnd true L := by
  simp [coldSync, h, hcs, hwaits]

theorem coldSync_unconfirmed (hcs : csState L ≠ 3) (hconf : L.nte.confCyc < 56) : coldSync L = L := by
  have hwaits : waitsZero L = false := by simp [waitsZero, hconf.not_ge]
  simp [coldSync, hcs, hwaits]

/-- LEAD and the source of the lane that leads the cold start. -/
def leaderSrc (L : Lane) : Lane := setSrc 1 0 (L.setB F.NTE_TIME_STAT_LEAD true)

theorem coldSync_leads (h : frameCyc L = 0) (hcs : csState L = 3) (hlead : L.nte.lead = true) (hheld : L.nte.held = true) :
    coldSync L = setSynced (leaderSrc L) := by simp [coldSync, h, hcs, hlead, hheld, leaderSrc]

section
variable (hs : smSorted L.regs = true)
include hs

theorem leaderSrc_sorted : smSorted (leaderSrc L).regs = true := putN_sorted _ _ (putN_sorted _ _ (setB_sorted _ _ hs))

theorem leaderSrc_degraded : (leaderSrc L).b F.CLK_STAT_DEGRADED = L.b F.CLK_STAT_DEGRADED := by
  have hlead := setB_sorted F.NTE_TIME_STAT_LEAD true hs
  exact b_of_fld ((fld_putN_other 0 (putN_sorted F.NTE_TIME_STAT_SRC 1 hlead) (by decide)).trans
    ((fld_putN_other 1 hlead (by decide)).trans (fld_setB_other true hs (by decide))))

theorem leaderSrc_lead : (leaderSrc L).b F.NTE_TIME_STAT_LEAD = true := by
  have hlead := setB_sorted F.NTE_TIME_STAT_LEAD true hs
  exact (b_of_fld ((fld_putN_other 0 (putN_sorted F.NTE_TIME_STAT_SRC 1 hlead) (by decide)).trans
    (fld_putN_other 1 hlead (by decide)))).trans (b_setB_same true hs rfl)

theorem leaderSrc_src : (leaderSrc L).n F.NTE_TIME_STAT_SRC = 1 := by
  have hlead := setB_sorted F.NTE_TIME_STAT_LEAD true hs
  exact (congrArg BitVec.toNat (fld_putN_other 0 (putN_sorted F.NTE_TIME_STAT_SRC 1 hlead) (by decide))).trans
    (n_putN_same hlead (by decide) (by decide))

end

/-! The time lost (R338) -/

section
variable {x y : LaneId} (hrun : 4 ≤ L.nte.lostRun) (hs : synced L = true) (hmember : inSet L.clv.members L.id = true)
include hrun hs hmember

theorem timeLost_triplex (hothers : otherMembers (withNte (fun n => { n with lostRun := 0 }) L) = [x, y]) : timeLost L =
    raise 0x0D7 (csListen (((withNte (fun n => { n with lostRun := 0 }) L).setB F.NTE_TIME_STAT_SYNCED false).inc
      F.NTE_CS_ERR_TLOST_CNT)) := by
  simp [timeLost, hrun, hs, hmember, hothers]

theorem timeLost_duplex (hothers : otherMembers (withNte (fun n => { n with lostRun := 0 }) L) = [x]) : timeLost L =
    raise 0x0D8 (withNte (fun n => { n with lostRun := 0 }) L) := by
  simp [timeLost, hrun, hs, hmember, hothers]

end

theorem timeLost_idle (h : L.nte.lostRun < 4) : timeLost L = L := if_neg fun hlost => hlost.1.not_gt h

/-! Claims of SPARE slots (R355, R356) -/

theorem claimWrite_claims (d : ClaimDue) (L : Lane) : (claimWrite d L).nte.claims =
    L.nte.claims.filter (fun k => decide (k.slot ≠ d.claim.slot)) ++ if d.grant then [d.claim] else [] := by
  unfold claimWrite
  extract_lets a r put A
  have hrec : A.nte = L.nte := by
    unfold A
    split <;> simp [r]
  rw [withNte_nte, hrec]
  cases d.grant <;> simp

theorem claimGo_go {v : Word} (h : bitAt v 31 = true) : claimGo v L =
    withNte (fun n => { n with claimAge := 0, claimSent := false })
      ((((L.putN F.NTE_CLAIM_TX_CLASS (bitsOf v 16 8)).putN F.NTE_CLAIM_TX_COUNT (bitsOf v 8 8)).setB F.NTE_CLAIM_TX_GO true).putN
        F.NTE_CLAIM_TX_RESULT 0) := if_pos h

theorem claimGo_noGo {v : Word} (h : bitAt v 31 = false) :
    claimGo v L = (L.putN F.NTE_CLAIM_TX_CLASS (bitsOf v 16 8)).putN F.NTE_CLAIM_TX_COUNT (bitsOf v 8 8) :=
  if_neg (Bool.eq_false_iff.mp h)

end

/-- Settles O47: by the event, and for each by the states of the lane in which it acts and in which it finds nothing to do. -/
theorem networkTimeStartsAndIsKept : Obligations.NetworkTimeStartsAndIsKept := by
  intro l s x y v d n L N lost now rest C better hlive k
  have event {c : Instr} {f : Lane → Lane} {A : Lane} (hc : exec c s = .next (s.onLane l (whenLive f))) (hf : f L = A) :
      exec c s = .next (s.setLane l A) := exec_of_whenLive hlive hc hf
  have idle {c : Instr} {f : Lane → Lane} (hc : exec c s = .next (s.onLane l (whenLive f))) (hf : f L = L) :
      exec c s = .next s := exec_of_whenLive_same hlive hc hf
  refine ⟨fun hdue => idle rfl (by simp [hdue]), fun hnum => idle rfl (by simp [hnum, k]),
    fun hdue => ⟨event rfl (by simp [hdue, k]), cycleBegins_counts k⟩, cycleDue_iff,
    fun ⟨hrun, hs, hmember⟩ hothers => event rfl (timeLost_triplex hrun hs hmember hothers),
    fun ⟨hrun, hs, hmember⟩ hothers => event rfl (timeLost_duplex hrun hs hmember hothers),
    fun hrun => idle rfl (timeLost_idle hrun),
    fun hcs => idle rfl (listenEnd_idle hcs), fun hcs hbetter => event rfl (listenEnd_follows hcs hbetter),
    fun hcs hbetter hlower => event rfl (listenEnd_waits hcs hbetter hlower),
    fun hcs hbetter hlower => event rfl (listenEnd_leads hcs hbetter hlower),
    fun hcs hconf => event rfl (if_pos ⟨hcs, hconf⟩), fun hidle => idle rfl (waitLeadEnd_idle hidle),
    fun hcs hlead => ⟨_, event rfl rfl, onlyLane_onLane l s fun _ => _, ?begins⟩, fun hlead => idle rfl (coldBegin_idle hlead),
    fun hcyc => idle rfl (coldSync_before hcyc), fun hcyc hcs hwaits => event rfl (coldSync_waiting hcyc hcs hwaits),
    fun hcyc hcs hlead hheld hdeg hs => ⟨_, event rfl (coldSync_leads hcyc hcs hlead hheld),
      onlyLane_onLane l s fun _ => _, ?leads⟩,
    fun hcs hconf => idle rfl (coldSync_unconfirmed hcs hconf), fun hcs habandoned => event rfl (if_pos ⟨hcs, habandoned⟩),
    fun hstays => idle rfl (by simp [hstays]), fun hs hstart hlate => event rfl (by simp [hs, hstart, hlate]),
    fun hstarted => idle rfl ?started, fun hsrc hmiss => event rfl (if_pos ⟨hsrc, hmiss⟩),
    fun hmiss => idle rfl (if_neg fun h => h.2.not_gt hmiss), fun hcyc => event rfl (if_pos hcyc),
    fun hcyc => idle rfl (if_neg hcyc),
    claimWrite_claims d L, fun hgo => event rfl (claimGo_go hgo), fun hgo => event rfl (claimGo_noGo hgo),
    fun hgo hage => event rfl (if_pos ⟨hgo, hage⟩), fun hage => idle rfl (if_neg fun h => h.2.not_gt hage)⟩
  case begins =>
    rw [lane_setLane_same]
    exact coldBegin_leads hcs hlead
  case leads =>
    have hsort := leaderSrc_sorted hs
    have hclock := (leaderSrc_degraded hs).trans hdeg
    obtain ⟨hsynced, hssg, hnte⟩ := setSynced_flags hsort hclock
    rw [lane_setLane_same]
    exact ⟨hsynced, setSynced_csState hsort hclock, hssg, hnte,
      (b_of_fld (setSynced_fld_other hsort hclock (by decide))).trans (leaderSrc_lead hs),
      (congrArg BitVec.toNat (setSynced_fld_other hsort hclock (by decide))).trans (leaderSrc_src hs),
      (congrArg (· % 64) (setSynced_cyc hclock)).trans hcyc⟩
  case started =>
    rcases hstarted with hs | hlate | ⟨hcs, hsub⟩
    · simp [hs]
    · simp [hlate]
    · simp [hcs, hsub]

end Sys2Proof.Machine
end

section
/-! SUPPORT. Proof of the statement about the CAN gateway: what arrives on a channel, sessions that are opened, what a channel
sends, bus-off, time-outs and addresses. -/

namespace Sys2Proof.Machine

/-! What arrives (R357, R359, R362) -/

/-- The channel hears a message: it is on the bus and takes part in the message's mode. -/
structure Hears (c : Nat) (m : CanMsg) (L : Lane) : Prop where
  enabled : canEn L c = true
  onBus : busOff L c = false
  mode : modeAllowed L c m.mode = true

/-- A message that comes in several packets. -/
def InPackets (m : CanMsg) : Prop := m.mode = .iso ∧ 8 < m.data.length

/-- The session of the message, with its size, is open. -/
def sessionOpen (c : Nat) (m : CanMsg) (L : Lane) : Bool :=
  (canOf L c).rx.any (fun x => ofSession m x && decide (x.size = m.data.length))

/-- The lane in which a complete message is offered: its session has closed, or an address has been heard. -/
def offeredIn (c : Nat) (m : CanMsg) (L : Lane) : Lane :=
  if m.mode = .iso ∧ 8 < m.data.length then setCan c (fun y => { y with rx := y.rx.filter (fun z => !ofSession m z) }) L
  else addressHeard c m L

section
variable {c : Nat} {m : CanMsg} {L N : Lane} {d : StorageDie}

theorem canReceived_deaf (h : ¬ Hears c m L) : canReceived c m (L, d) = (L, d) := by
  refine if_pos ?_
  by_contra hdeaf
  simp only [Bool.or_eq_true, Bool.not_eq_true', not_or, Bool.not_eq_false, Bool.not_eq_true] at hdeaf
  obtain ⟨⟨hen, hbus⟩, hmode⟩ := hdeaf
  exact h ⟨hen, hbus, hmode⟩

theorem canReceived_opens {n : Nat} (h : Hears c m L) (hpart : m.part = .opens n) :
    canReceived c m (L, d) = tpOpen c n m (L, d) := by
  simp [canReceived, h.enabled, h.onBus, h.mode, hpart]

theorem canReceived_aborts (h : Hears c m L) (hpart : m.part = .aborts) : canReceived c m (L, d) = tpPeerEnd c m (L, d) := by
  simp [canReceived, h.enabled, h.onBus, h.mode, hpart]

theorem canReceived_whole (h : Hears c m L) (hpart : m.part = .whole) : canReceived c m (L, d) =
    if m.mode = .iso ∧ 8 < m.data.length then
      if sessionOpen c m L then canOffer c m (offeredIn c m L, d) else (L, d)
    else canOffer c m (offeredIn c m L, d) := by
  have hgate : (!canEn L c || busOff L c || !modeAllowed L c m.mode) = false := by simp [h.enabled, h.onBus, h.mode]
  simp only [canReceived, hgate, hpart, offeredIn, Bool.false_eq_true, if_false]
  by_cases hlong : m.mode = .iso ∧ 8 < m.data.length
  · simp only [if_pos hlong]
    rfl
  · simp only [if_neg hlong]
    rfl

theorem canReceived_offers (h : Hears c m L) (hpart : m.part = .whole) (hsession : InPackets m → sessionOpen c m L = true) :
    canReceived c m (L, d) = canOffer c m (offeredIn c m L, d) := by
  rw [canReceived_whole h hpart]
  split
  · next hlong => exact if_pos (hsession hlong)
  · rfl

theorem canReceived_noSession (h : Hears c m L) (hpart : m.part = .whole) (hlong : InPackets m)
    (hclosed : ¬ sessionOpen c m L = true) : canReceived c m (L, d) = (L, d) :=
  (canReceived_whole h hpart).trans ((if_pos hlong).trans (if_neg hclosed))

/-- No transport message acts that is for another address. -/
theorem canReceived_notOurs (hears : Hears c m L) (hpart : m.part ≠ .whole) (hus : forUs c m L = false) :
    canReceived c m (L, d) = (L, d) := by
  cases h : m.part with
  | whole => exact absurd h hpart
  | opens n => simp [canReceived_opens hears h, tpOpen, hus]
  | aborts => simp [canReceived_aborts hears h, tpPeerEnd, hus]

/-! Mappings, then waiting descriptors (R359, R362) -/

/-- No mapping takes a message of `n` bytes, and `N` is the lane after the look at the mappings; above 1,785 bytes there is none. -/
structure Untaken (c n : Nat) (m : CanMsg) (L N : Lane) : Prop where
  looked : n ≤ 1785 → takenBy c m (List.range (nMap L)) L = (none, N)
  tooLong : 1785 < n → N = L

theorem Untaken.look {n : Nat} (h : Untaken c n m L N) :
    (if n ≤ 1785 then takenBy c m (List.range (nMap L)) L else (none, L)) = (none, N) := by
  split
  · next hn => exact h.looked hn
  · next hn => rw [h.tooLong (Nat.lt_of_not_le hn)]

theorem canOffer_taken {i : Nat} {k : CanMap} (hn : m.data.length ≤ 1785)
    (htake : takenBy c m (List.range (nMap L)) L = (some (i, k), N)) : canOffer c m (L, d) = (mapDeliver c i k m N, d) := by
  simp [canOffer, hn, htake]

theorem canOffer_recv {r : Run} (h : Untaken c m.data.length m L N)
    (hrecv : recvFirst N (N.ring.recv.filter (recvMatches c m)) = some r) :
    canOffer c m (L, d) = recvEnd m r (cgwEvent (2 * c) N, d) := by
  simp only [canOffer, h.look, hrecv]

theorem canOffer_none (h : Untaken c m.data.length m L N)
    (hrecv : recvFirst N (N.ring.recv.filter (recvMatches c m)) = none) : canOffer c m (L, d) = (N, d) := by
  simp only [canOffer, h.look, hrecv]

theorem mapDeliver_short {i : Nat} {k : CanMap} (h : m.data.length < k.len) : mapDeliver c i k m N = canRxErr c N := if_pos h

/-! A session is opened (R357) -/

/-- A receive session is free for the message. -/
def RoomFor (c : Nat) (m : CanMsg) (L : Lane) : Prop := ((canOf L c).rx.filter (fun x => !ofSession m x)).length < 4

/-- The session of a message of `n` bytes stands open, in place of an older one. -/
def withSession (c n : Nat) (m : CanMsg) (L : Lane) : Lane :=
  setCan c (fun y => { y with rx := y.rx.filter (fun x => !ofSession m x) ++ [⟨m.sa.toNat, m.da.toNat, m.id.toNat, n⟩] }) L

section
variable {n : Nat} (hus : forUs c m L = true)
include hus

theorem tpOpen_full (hroom : ¬ RoomFor c m L) : tpOpen c n m (L, d) = (refuseTp c m L, d) := by
  rw [RoomFor, Nat.not_lt] at hroom
  simp [tpOpen, hus, hroom, onL]

theorem tpOpen_mapped {i : Nat} {k : CanMap} (hroom : RoomFor c m L) (hn : n ≤ 1785)
    (htake : takenBy c m (List.range (nMap L)) L = (some (i, k), N)) : tpOpen c n m (L, d) = (withSession c n m N, d) := by
  rw [RoomFor] at hroom
  simp [tpOpen, hus, hroom.not_ge, hn, htake, withSession]

/-- Where no mapping takes the message, a waiting descriptor with room for it does. -/
theorem tpOpen_untaken (hroom : RoomFor c m L) (h : Untaken c n m L N) : tpOpen c n m (L, d) =
    (recvFirst N (N.ring.recv.filter (recvMatches c m))).elim (refuseTp c m N, d) (fun r =>
      if r.d.length < n then endStatus 8 r errEngine stFault 1 (recvDrop r (refuseTp c m N), d) else (withSession c n m N, d)) := by
  rw [RoomFor] at hroom
  simp only [tpOpen, hus, if_neg hroom.not_ge, h.look, withSession]
  cases recvFirst N (N.ring.recv.filter (recvMatches c m)) <;> rfl

end
end

/-! Bus-off (R357) -/

section
variable {c : Nat} {L : Lane} {d : StorageDie} {r : Run}

/-- The item of mapping `n` leaves its channel; 2048 stands for a CAN_SEND's. -/
def itemWithdrawn (n : Nat) (y : CanCh) : CanCh := { y with
  q := y.q.filter (fun j => decide (j.map ≠ n))
  cur := match y.cur with
    | some j => if j.map = n then none else some j
    | none => none }

theorem canSendFail_none (det : Nat) (h : canSending L c = none) : canSendFail c det (L, d) = (L, d) := by
  simp only [canSendFail, h]

theorem canSendFail_some (det : Nat) (h : canSending L c = some r) :
    canSendFail c det (L, d) = finish 8 r errEngine stFault (toW det) (setCan c (itemWithdrawn 2048) L, d) := by
  simp only [canSendFail, h]
  rfl

/-- A channel as it goes bus-off. -/
def wentBusOff (c : Nat) (L : Lane) : Lane :=
  canErr c F.CGW_CHc_ERR_BOFF_CNT 0x0DB ((L.setB (F.CGW_CHc_STAT_BUSOFF c) true).putN (F.CGW_CHc_STAT_TEC c) 0xFF)

theorem goBusOff_acts (hen : canEn L c = true) (hbus : busOff L c = false) :
    goBusOff c (L, d) = canSendFail c 2 (wentBusOff c L, d) := by
  simp [goBusOff, hen, hbus, onL, wentBusOff]

theorem goBusOff_idle (h : canEn L c = false ∨ busOff L c = true) : goBusOff c (L, d) = (L, d) := by
  rcases h with h | h <;> simp [goBusOff, h]

theorem busOffEnds_idle (h : busOff L c = false) : busOffEnds c L = L := if_neg (by simp [h])

/-! A frame is acknowledged (R360) -/

/-- The channel goes on once its frame has been sent. -/
def frameSent (c : Nat) (L : Lane) : Lane := canStart c (setCan c (fun y => { y with cur := none }) L)

theorem canAcked_none (h : (canOf L c).cur = none) : canAcked c (L, d) = (L, d) := by simp only [canAcked, h]

theorem canAcked_other {x : CanItem} (h : (canOf L c).cur = some x)
    (hother : x.map ≠ 2048 ∨ canSending (frameSent c L) c = none) :
    canAcked c (L, d) = (frameSent c L, d) := by
  rw [frameSent] at hother ⊢
  rcases hother with hmap | hsend
  · simp [canAcked, h, hmap, onL]
  · simp [canAcked, h, hsend, onL]

theorem canAcked_send {x : CanItem} (h : (canOf L c).cur = some x) (hmap : x.map = 2048)
    (hsend : canSending (frameSent c L) c = some r) :
    canAcked c (L, d) = finish 8 { r with progress := r.d.length } 0 stDone 0 (frameSent c L, d) := by
  rw [frameSent] at hsend ⊢
  simp [canAcked, h, hmap, hsend, onL]

/-! CAN_SEND and CAN_RECV (R362) -/

/-- Descriptor `r` is a CAN_SEND that starts on channel `c`: a message in several packets finds a session free. -/
structure SendStarts (c : Nat) (r : Run) (L : Lane) : Prop where
  running : runningOp L 8 0x01 = some r
  fresh : r.aux ≠ 1
  channel : b2n (bitAt r.d.w4 31) = c
  enabled : canEn L c = true
  session : bitsOf r.d.w5 29 3 = 4 ∧ 8 < r.d.length → canSessions L c < 4

theorem canSend_idle (h : runningOp L 8 0x01 = none) : canSend (L, d) = (L, d) := by simp only [canSend, h]

section
variable (h : SendStarts c r L)
include h

theorem SendStarts.ready :
    ¬ (r.aux = 1 ∨ ¬ canEn L c = true ∨ ((bitsOf r.d.w5 29 3 = 4 ∧ 8 < r.d.length) ∧ 4 ≤ canSessions L c)) := by
  rintro (haux | hen | ⟨hbig, hfull⟩)
  · exact h.fresh haux
  · exact hen h.enabled
  · exact (h.session hbig).not_ge hfull

theorem canSend_busOff (hbus : busOff L c = true) : canSend (L, d) = finish 8 r errEngine stFault 2 (L, d) := by
  have hready := h.ready
  simp only [canSend, h.running, h.channel, decide_eq_true_eq, if_neg hready, hbus, if_true]

theorem canSend_noAddress (hbus : busOff L c = false) (hmode : bitsOf r.d.w5 29 3 = 4)
    (haddr : L.b (F.CGW_CHc_STAT_ADDR_OK c) = false) : canSend (L, d) = finish 8 r errEngine stFault 4 (L, d) := by
  have hready := h.ready
  simp only [canSend, h.running, h.channel, decide_eq_true_eq, if_neg hready, hbus, Bool.false_eq_true, if_false]
  exact if_pos ⟨hmode, by simp [haddr]⟩

theorem canSend_queues {bs : List Byte} {ld : LD} (hbus : busOff L c = false)
    (haddr : bitsOf r.d.w5 29 3 ≠ 4 ∨ L.b (F.CGW_CHc_STAT_ADDR_OK c) = true)
    (hread : iovaReadN 8 r.d.ctx r.d.src r.d.length (L, d) = (.ok bs, ld)) : canSend (L, d) =
      (let mode := bitsOf r.d.w5 29 3
       let id0 := bitsOf r.d.w4 0 29
       (canQueue c ⟨2048, canKey mode (if mode = 4 then isoId id0 (bitsOf r.d.w5 8 8) (canAddr ld.1 c) else id0),
          decide (mode = 4 ∧ 8 < r.d.length), bitsOf r.d.w5 8 8, bs⟩
        (setEng 8 { getEng ld.1 8 with run := some { r with aux := 1 } } ld.1), ld.2)) := by
  have hready := h.ready
  have hnamed : ¬ (bitsOf r.d.w5 29 3 = 4 ∧ ¬ L.b (F.CGW_CHc_STAT_ADDR_OK c) = true) := by
    rintro ⟨hmode, hno⟩
    exact haddr.elim (fun hother => hother hmode) hno
  simp only [canSend, h.running, h.channel, decide_eq_true_eq, if_neg hready, hbus, Bool.false_eq_true, if_false, if_neg hnamed,
    hread]
  rfl

end

/-- Descriptor `r` has left the engine and waits for a message. -/
def recvWaits (r : Run) (L : Lane) : Lane :=
  let A := setEng 8 { getEng L 8 with run := none } L
  { A with ring := { A.ring with recv := A.ring.recv ++ [r] } }

theorem setEng_recv (role : Nat) (e : Engine) (L : Lane) : (setEng role e L).ring.recv = L.ring.recv := by
  unfold setEng
  dsimp only
  split <;> rfl

theorem canRecv_waits (h : runningOp L 8 0x02 = some r) (hgo : r.abort = false) :
    canRecv (L, d) = engineNext 8 (recvWaits r L, d) := by
  simp only [canRecv, h, hgo]
  rfl

theorem canRecv_idle (h : runningOp L 8 0x02 = none) : canRecv (L, d) = (L, d) := by simp only [canRecv, h]

/-! Time-outs of sessions (R357) -/

theorem tpTimeout_off {rx : Bool} {u : Nat} (h : canEn L c = false ∨ canIso L c = false) : tpTimeout c rx u (L, d) = (L, d) := by
  rcases h with h | h <;> simp [tpTimeout, h]

/-- The transmit sessions of a channel, in order of their start. -/
def txSessions (c : Nat) (L : Lane) : List CanItem := ((canOf L c).cur.toList ++ (canOf L c).q).filter (fun i => i.big)

section
variable {u : Nat} (hen : canEn L c = true) (hiso : canIso L c = true)
include hen hiso

theorem tpTimeout_rx_none (h : (canOf L c).rx[u]? = none) : tpTimeout c true u (L, d) = (L, d) := by
  simp only [tpTimeout, hen, hiso, h]
  rfl

theorem tpTimeout_rx {o : CanRx} (h : (canOf L c).rx[u]? = some o) : tpTimeout c true u (L, d) =
    (setCan c (fun y => { y with rx := y.rx.eraseIdx u }) (if o.da = 0xFF then L else canTpAbort c L), d) := by
  simp only [tpTimeout, hen, hiso, h]
  rfl

theorem tpTimeout_tx_none (h : (txSessions c L)[u]? = none) : tpTimeout c false u (L, d) = (L, d) := by
  rw [txSessions] at h
  simp only [tpTimeout, hen, hiso, h]
  rfl

theorem tpTimeout_tx_mapped {x : CanItem} (h : (txSessions c L)[u]? = some x) (hmap : x.map ≠ 2048) :
    tpTimeout c false u (L, d) = (canStart c (setCan c (itemWithdrawn x.map) (canTpAbort c L)), d) := by
  rw [txSessions] at h
  simp only [tpTimeout, hen, hiso, h, if_neg hmap]
  rfl

theorem tpTimeout_tx_send {x : CanItem} (h : (txSessions c L)[u]? = some x) (hmap : x.map = 2048)
    (hsend : canSending (canTpAbort c L) c = some r) : tpTimeout c false u (L, d) =
      finish 8 r errEngine stFault 3 (setCan c (itemWithdrawn x.map) (canTpAbort c L), d) := by
  have hfail : canSendFail c 3 (canTpAbort c L, d) = _ := canSendFail_some 3 hsend
  rw [txSessions] at h
  rw [hmap]
  simp only [tpTimeout, hen, hiso, h, if_pos hmap]
  exact hfail

end

/-! Addresses (R361) -/

theorem addressClaim_starts (hen : canEn L c = true) (hiso : canIso L c = true) (hnone : (canOf L c).claiming = none)
    (haddr : L.b (F.CGW_CHc_STAT_ADDR_OK c) = false) (hlost : (canOf L c).lost = false) :
    addressClaim c L = setCan c (fun y => { y with claiming := some (L.n (F.CGW_CHc_CFG_PREF c)), tryNext := 0 }) L := by
  simp [addressClaim, hen, hiso, hnone, haddr, hlost]

theorem addressClaim_idle (h : (canOf L c).lost = true ∨ canEn L c = false ∨ canIso L c = false) : addressClaim c L = L := by
  rcases h with h | h | h <;> simp [addressClaim, h]

theorem addressDone_uses {a : Nat} (h : (canOf L c).claiming = some a) : addressDone c L =
    setCan c (fun y => { y with claiming := none }) ((L.setB (F.CGW_CHc_STAT_ADDR_OK c) true).putN (F.CGW_CHc_STAT_ADDR c) a) := by
  simp only [addressDone, h]

theorem addressDone_idle (h : (canOf L c).claiming = none) : addressDone c L = L := by simp only [addressDone, h]

end

/-! Time-outs of receive mappings (R359) -/

/-- Mapping `j`, which reads as `k`, has waited its TMO since its latest delivery. -/
structure MapDue (j : Nat) (k : CanMap) (L : Lane) : Prop where
  aged : ∃ age, smFind L.cgw.age j = some age ∧ k.tmo ≤ age
  reads : canMap j L = (some k, L)
  receives : k.valid = true ∧ k.out = false
  listed : j < nMap L
  timed : k.tmo ≠ 0

/-- What the mapping fills shows that its value is stale. -/
def mapStale (k : CanMap) (L : Lane) : Lane :=
  if k.tgt = 1 then putBit (canBufAddr k.index) 31 false L
  else if k.tgt = 2 ∧ k.staten then putBit (sampleOff L + 4 * k.sword) k.sbit false L
  else L

section
variable {j : Nat} {k : CanMap} {L : Lane}

theorem canRxTimeout_due (h : MapDue j k L) : canRxTimeout j L = raise 0x0DD (cgwEvent (2 * k.ch + 1)
    (mapStale k { L with cgw := { L.cgw with age := smErase L.cgw.age j } })) := by
  obtain ⟨⟨age, hfind, hage⟩, hmap, ⟨hvalid, hin⟩, hlisted, htimed⟩ := h
  simp only [canRxTimeout, hfind, hmap, hvalid, hin]
  exact if_pos (decide_eq_true ⟨hlisted, htimed, hage⟩)

theorem mapStale_buffer (h : k.tgt = 1) : mapStale k L = putBit (canBufAddr k.index) 31 false L := if_pos h

theorem mapStale_sample (h : k.tgt = 2) (hst : k.staten = true) :
    mapStale k L = putBit (sampleOff L + 4 * k.sword) k.sbit false L := by simp [mapStale, h, hst]

theorem mapStale_nothing (h : k.tgt = 0 ∨ (k.tgt = 2 ∧ k.staten = false)) : mapStale k L = L := by
  rcases h with h | ⟨h, hst⟩
  · simp [mapStale, h]
  · simp [mapStale, h, hst]

theorem canRxTimeout_idle (h : smFind L.cgw.age j = none) : canRxTimeout j L = L := by simp only [canRxTimeout, h]

end

/-- Settles O48: by what happens on the channel, and for each by what the lane holds for it. -/
theorem canMessagesAndChannels : Obligations.CanMessagesAndChannels := by
  intro l s c m i a k r x bs N j age size u o L C arrives err abort hears long session H offered opens room refused opened off q id0
    mode big next sends out without due E hlive
  have die {e : Instr} {f : LD → LD} {ld : LD} (he : exec e s = .next (onDie l f s)) (hf : f (L, s.sto) = ld) :
      exec e s = .next (s.withLD l ld) := exec_of_onDie hlive he hf
  have lane {e : Instr} {f : LD → LD} {A : Lane} (he : exec e s = .next (onDie l f s)) (hf : f (L, s.sto) = (A, s.sto)) :
      exec e s = .next (s.setLane l A) := (die he hf).trans (congrArg Host.Outcome.next (withLD_same_die s l A))
  have still {e : Instr} {f : LD → LD} (he : exec e s = .next (onDie l f s)) (hf : f (L, s.sto) = (L, s.sto)) :
      exec e s = .next s := (lane he hf).trans (congrArg Host.Outcome.next (setLane_lane_self s l))
  have event {e : Instr} {f : Lane → Lane} {A : Lane} (he : exec e s = .next (s.onLane l (whenLive f))) (hf : f L = A) :
      exec e s = .next (s.setLane l A) := exec_of_whenLive hlive he hf
  have idle {e : Instr} {f : Lane → Lane} (he : exec e s = .next (s.onLane l (whenLive f))) (hf : f L = L) :
      exec e s = .next s := exec_of_whenLive_same hlive he hf
  have hearing (h : hears) : Hears c.val m L := ⟨h.1, h.2.1, h.2.2⟩
  have offer (h : offered) : canReceived c.val m (L, s.sto) = canOffer c.val m (H, s.sto) :=
    canReceived_offers (hearing h.1) h.2.1 h.2.2
  have opening (h : opens) : canReceived c.val m (L, s.sto) = tpOpen c.val size m (L, s.sto) :=
    canReceived_opens (hearing h.1) h.2.1
  have starts (h : sends) : SendStarts c.val r L := by
    obtain ⟨hrun, hfresh, hch, hen, hsession⟩ := h
    exact ⟨hrun, hfresh, hch, hen, fun hbig => hsession (decide_eq_true hbig)⟩
  have isDue (h : due) : MapDue j.val k L := by
    obtain ⟨hfind, hmap, hvalid, hin, hlisted, htimed, hage⟩ := h
    exact ⟨⟨age, hfind, hage⟩, hmap, ⟨hvalid, hin⟩, hlisted, htimed⟩
  refine ⟨fun h hn htake => lane rfl ((offer h).trans (canOffer_taken hn htake)), mapDeliver_short,
    fun h hlook hlong => ⟨fun hrecv => die rfl ((offer h).trans (canOffer_recv ⟨hlook, hlong⟩ hrecv)),
      fun hrecv => lane rfl ((offer h).trans (canOffer_none ⟨hlook, hlong⟩ hrecv))⟩,
    fun h hpart hlong hclosed => still rfl (canReceived_noSession (hearing h) hpart hlong hclosed),
    fun h => still rfl (canReceived_deaf fun hh => h ⟨hh.enabled, hh.onBus, hh.mode⟩),
    fun h hpart hus => still rfl (canReceived_notOurs (hearing h) hpart hus),
    fun h hroom => lane rfl ((opening h).trans (tpOpen_full h.2.2 hroom)),
    fun h hroom hn htake => lane rfl ((opening h).trans (tpOpen_mapped h.2.2 hroom hn htake)),
    fun h hroom hlook hlong => ?untaken, fun h hpart hus => die rfl (canReceived_aborts (hearing h) hpart),
    fun hen hbus hsend => lane rfl ((goBusOff_acts hen hbus).trans (canSendFail_none 2 hsend)),
    fun hen hbus hsend => die rfl ((goBusOff_acts hen hbus).trans (canSendFail_some 2 hsend)),
    fun h => still rfl (goBusOff_idle h), fun hbus => event rfl (if_pos hbus), fun hbus => idle rfl (busOffEnds_idle hbus),
    fun hcur hother => lane rfl (canAcked_other hcur hother), fun hcur hmap hsend => die rfl (canAcked_send hcur hmap hsend),
    fun hcur => still rfl (canAcked_none hcur),
    fun h hbus haddr hread => die rfl (canSend_queues (starts h) hbus haddr (Prod.ext hread rfl)),
    fun h hbus => die rfl (canSend_busOff (starts h) hbus),
    fun h hbus hmode haddr => die rfl (canSend_noAddress (starts h) hbus hmode haddr), fun h => still rfl (canSend_idle h),
    fun h hgo => ⟨recvWaits r L, die rfl (canRecv_waits h hgo), congrArg (· ++ [r]) (setEng_recv ..), rfl, setEng_mem ..⟩,
    fun h => still rfl (canRecv_idle h), fun h b => still rfl (tpTimeout_off h),
    fun hen hiso h => still rfl (tpTimeout_rx_none hen hiso h),
    fun hen hiso h => ⟨fun hda => lane rfl ((tpTimeout_rx hen hiso h).trans (by rw [if_neg hda]; rfl)),
      fun hda => lane rfl ((tpTimeout_rx hen hiso h).trans (by rw [if_pos hda]))⟩,
    fun hen hiso h => still rfl (tpTimeout_tx_none hen hiso h),
    fun hen hiso h => ⟨fun hmap => lane rfl (tpTimeout_tx_mapped hen hiso h hmap),
      fun hmap hsend => die rfl (tpTimeout_tx_send hen hiso h hmap hsend)⟩,
    fun hen hiso hnone haddr hlost => event rfl (addressClaim_starts hen hiso hnone haddr hlost),
    fun h => idle rfl (addressClaim_idle h), fun h => event rfl (addressDone_uses h), fun h => idle rfl (addressDone_idle h),
    fun h htgt => event rfl ((canRxTimeout_due (isDue h)).trans (by rw [mapStale_nothing htgt])),
    fun h htgt => event rfl ((canRxTimeout_due (isDue h)).trans (by rw [mapStale_buffer htgt])),
    fun h htgt hst => event rfl ((canRxTimeout_due (isDue h)).trans (by rw [mapStale_sample htgt hst])),
    fun h => idle rfl (canRxTimeout_idle h)⟩
  case untaken =>
    have htp : canReceived c.val m (L, s.sto) = _ := (opening h).trans (tpOpen_untaken h.2.2 hroom ⟨hlook, hlong⟩)
    refine ⟨fun hrecv => lane rfl ?_, fun hrecv hfits => lane rfl ?_, fun hrecv hshort => die rfl ?_⟩
    · rw [htp, hrecv]
      rfl
    · rw [htp, hrecv]
      exact if_neg hfits.not_gt
    · rw [htp, hrecv]
      exact if_pos hshort

end Sys2Proof.Machine
end

section
/-! SUPPORT. Proofs of the statements about a step, about every command, and about memory and fields that read back: what
earlier statements say of one lane, and the commands of the storage die beside it. -/

namespace Sys2Proof.Machine

/-! A step -/

/-- Settles O1: `step` takes the command off the queue's front. -/
theorem stepRunsTheFrontCommand : Obligations.StepRunsTheFrontCommand := fun _ _ => rfl

/-! Every command completes -/

theorem codeword_pending (blk g bits : Nat) (s : State) : (codeword blk g bits s).pending = s.pending := by
  unfold codeword
  split_ifs <;> rfl

/-- A command of no lane is one of the storage die's. -/
theorem exec_completes_of_die {c : Instr} (hl : c.laneOf = none) (s : State) : ∃ t, exec c s = .next t ∧ t.pending = s.pending := by
  cases c with
  | storageDiePowerOn | steMount => exact ⟨_, rfl, rfl⟩
  | storageDiePowerLoss =>
    refine ⟨_, rfl, ?_⟩
    simp
  | relocation blk g bits bad =>
    refine ⟨_, rfl, ?_⟩
    split_ifs
    · exact codeword_pending ..
    · exact codeword_pending ..
    · rfl
  | readDisturbRelocate =>
    refine ⟨_, rfl, ?_⟩
    split_ifs <;> rfl
  | patrolRead =>
    refine ⟨_, rfl, ?_⟩
    split_ifs
    · exact codeword_pending ..
    · rfl
  | patrolLate =>
    refine ⟨_, rfl, ?_⟩
    split_ifs <;> rfl
  | write l bad =>
    match bad, hl with
    | some (.programFails blk), _ =>
      refine ⟨_, rfl, (onDie_pending ..).trans ?_⟩
      dsimp only
      split_ifs <;> rfl
  | _ => exact nomatch hl

theorem exec_completes (c : Instr) (s : State) : ∃ t, exec c s = .next t ∧ t.pending = s.pending := by
  rcases hl : c.laneOf with _ | l
  · exact exec_completes_of_die hl s
  cases hb : c.bindsDevice with
  | true =>
    obtain ⟨F, hF⟩ := exec_of_bindsDevice hl hb
    exact ⟨_, hF s, (abandonAll_pending ..).trans (onLane_pending ..)⟩
  | false =>
    by_cases ht : ∃ k x w, c = .timeTransfer l k x w
    · obtain ⟨k, x, w, rfl⟩ := ht
      exact ⟨_, rfl, onLane_pending ..⟩
    · obtain ⟨f, hf, hexec⟩ := runsWithin_of_laneOf hl hb (fun k x w h => ht ⟨k, x, w, h⟩)
      exact ⟨_, hexec s, (hf s s ⟨rfl, rfl⟩).1.1⟩

theorem step_of_pending {c : Instr} {rest : List Instr} {s : State} (h : s.pending = c :: rest) :
    step s = exec c { s with pending := rest } := by simp [step, h]

theorem run_succ {s t : State} (h : step s = .next t) (n : Nat) : Sys2Proof.core.run (n + 1) s = Sys2Proof.core.run n t := by
  have hstep : Sys2Proof.core.step s = .next t := h
  simp only [Host.Core.run, hstep]

/-- As many steps as commands wait empty the queue. -/
theorem run_empties (n : Nat) (s : State) (hn : s.pending.length = n) :
    ∃ t, Sys2Proof.core.run n s = .next t ∧ t.pending = [] := by
  induction n generalizing s with
  | zero => exact ⟨s, rfl, List.length_eq_zero_iff.mp hn⟩
  | succ n ih =>
    obtain ⟨c, rest, hq⟩ := List.exists_cons_of_length_eq_add_one hn
    obtain ⟨u, hu, hpend⟩ := exec_completes c { s with pending := rest }
    rw [run_succ ((step_of_pending hq).trans hu)]
    have hrest : rest.length = n := by simpa [hq] using hn
    exact ih u ((congrArg List.length hpend).trans hrest)

/-- Settles O4: a command of a lane completes as the statements about what it reaches say, one of the die by its own meaning. -/
theorem everyCommandCompletes : Obligations.EveryCommandCompletes :=
  ⟨exec_completes, fun s => run_empties _ s rfl⟩

/-! Memory and fields read back -/

theorem toNat_fld_put_same {L : Lane} {f : Fld} (w : Word) (hs : smSorted L.regs = true) (hw : f.w ≤ 32) :
    ((L.put f w).fld f).toNat = w.toNat % 2 ^ f.w := by
  rw [fld_put L f f w hs (fun _ => rfl), if_pos rfl, toW, BitVec.toNat_ofNat]
  have hpow : 2 ^ f.w ≤ 2 ^ 32 := Nat.pow_le_pow_right (by decide) hw
  exact Nat.mod_eq_of_lt ((Nat.mod_lt _ (Nat.two_pow_pos _)).trans_le hpow)

/-- Settles O58: the laws of sparse maps in canonical form, read for memory and for fields. -/
theorem memoryAndFieldsReadBackAsWritten : Obligations.MemoryAndFieldsReadBackAsWritten := by
  refine ⟨reset_memWf, fun l => by cases l <;> rfl, fun L a b v bs w f g hmem hs => ?_⟩
  have hm : smSorted L.mem = true := memWf_sorted hmem
  exact ⟨rdB_wrB L a b v hm, wrB_memWf L a v hmem, wrBytes_memWf L a bs hmem, rdBytes_wrBytes_same a bs hm,
    rdB_wrBytes_outside hm, rdW_wrW_same a w hm, wrBytes_regs .., toNat_fld_put_same w hs, fun h => fld_put_other w hs h,
    put_sorted L f w hs, put_mem L f w⟩

/-! The storage die at reset -/

/-- Settles O8: the array, the marked blocks and the wear counts are empty in the reset state. -/
theorem dieInvariantHoldsAtReset : Obligations.DieInvariantHoldsAtReset := by
  refine ⟨fun _ => rfl, fun _ => rfl, rfl, rfl, ?_, ?_, ?_⟩ <;> decide

end Sys2Proof.Machine
end

section
/-! SUPPORT. Proof of the statement about the storage die's invariant: each operation that reaches the die keeps it, in the order of
the definitions, then each command of the table and the passing of time. -/

namespace Sys2Proof.Machine

/-! A change of the lane alone -/

theorem dieInv_onL {ld : LD} {f : Lane → Lane} (h : dieInv ld.2) : dieInv (onL f ld).2 := h

theorem dieInv_pair {L : Lane} {d : StorageDie} (h : dieInv d) : dieInv ((L, d) : LD).2 := h

theorem dieInv_ite {p : Prop} [Decidable p] {x y : LD} (hx : dieInv x.2) (hy : dieInv y.2) : dieInv (if p then x else y).2 := by
  split
  · exact hx
  · exact hy

/-! What an engine's accesses do to the die -/

theorem dieInv_setStoOf {d : StorageDie} (l : LaneId) (x : StoLane) (h : dieInv d) : dieInv (setStoOf d l x) := by
  cases l <;> exact h

section
variable {role ctx iova n pa : Nat} {bs : List Byte} {ld ld1 : LD} {r : Run} {err st : Nat} {det : Word}

/-- A read leaves the die as it is. -/
theorem physRead_die : (physRead pa n ld).2.2 = ld.2 := by
  unfold physRead
  split
  · rfl
  split
  · split
    · split <;> rfl
    · rfl
  · dsimp only
    split <;> rfl

theorem iovaRead_die (cs : List (Nat × Nat)) : (iovaRead role ctx cs ld).2.2 = ld.2 := by
  induction cs generalizing ld with
  | nil => rfl
  | cons c cs ih =>
    rw [iovaRead]
    split
    · rfl
    next pa L1 _ =>
    have hread : (physRead pa c.2 (L1, ld.2)).2.2 = ld.2 := physRead_die
    split
    next hp => rwa [hp] at hread
    next ld1 hp =>
    rw [hp] at hread
    have hrest := ih (ld := ld1)
    split <;> next hq => rw [hq] at hrest; exact hrest.trans hread

theorem dieInv_iovaReadN {x : Except AccErr (List Byte)} (h : dieInv ld.2) (hq : iovaReadN role ctx iova n ld = (x, ld1)) :
    dieInv ld1.2 := by
  have hdie : (iovaReadN role ctx iova n ld).2.2 = ld.2 := iovaRead_die _
  rw [hq] at hdie
  rwa [hdie]

theorem dieInv_physPut (h : dieInv ld.2) : dieInv (physPut pa bs ld).2.2 := by
  unfold physPut
  split
  · split
    · exact dieInv_setStoOf _ _ h
    · exact h
  · dsimp only
    split <;> exact h

theorem dieInv_physWrite (h : dieInv ld.2) : dieInv (physWrite pa bs ld).2.2 := by
  unfold physWrite
  split
  · exact h
  · exact dieInv_physPut h

theorem dieInv_iovaWriteGo (keep : Bool) (cs : List (Nat × Nat)) (h : dieInv ld.2) :
    dieInv (iovaWriteGo role ctx keep cs bs ld).2.2 := by
  induction cs generalizing bs ld with
  | nil => exact h
  | cons c cs ih =>
    rw [iovaWriteGo]
    split
    · exact h
    next pa L1 _ =>
    have hwrite : dieInv (physWrite pa (bs.take c.2) (L1, ld.2)).2.2 := dieInv_physWrite h
    split
    next hp => rwa [hp] at hwrite
    next hp =>
    rw [hp] at hwrite
    have hrest := ih (bs := bs.drop c.2) hwrite
    split
    next hq => rwa [hq] at hrest
    next hq =>
    rw [hq] at hrest
    split
    · exact hrest
    · exact h

theorem dieInv_iovaWrite {x : Except AccErr Unit} (h : dieInv ld.2) (hq : iovaWrite role ctx iova bs ld = (x, ld1)) :
    dieInv ld1.2 := by
  have hdie : dieInv (iovaWrite role ctx iova bs ld).2.2 := dieInv_iovaWriteGo _ _ h
  rwa [hq] at hdie

/-! Status words, the end of a descriptor and what the engine takes next -/

theorem dieInv_statusWrite (h : dieInv ld.2) : dieInv (statusWrite role r err st det ld).2.2 := by
  unfold statusWrite
  split
  · exact h
  next pa L1 _ =>
  have hput (A : Lane) (bs : List Byte) : dieInv (physPut pa bs (A, ld.2)).2.2 := dieInv_physPut h
  cases domainBars (domainOf pa) L1 with
  | none =>
    dsimp only
    split <;> exact hput _ _
  | some b =>
    by_cases hb : b.1 = errWait
    · simp only [hb, if_true]
      split <;> exact hput _ _
    · simp only [hb, if_false]
      exact h

theorem dieInv_statusMid (h : dieInv ld.2) : dieInv (statusMid role r st ld).2.2 := by
  unfold statusMid
  split
  · exact h
  · dsimp only
    split <;> exact dieInv_statusWrite h

theorem dieInv_endStatus (h : dieInv ld.2) : dieInv (endStatus role r err st det ld).2 := by
  rw [endStatus_eq]
  exact dieInv_statusWrite h

theorem dieInv_engineNext (h : dieInv ld.2) : dieInv (engineNext role ld).2 := by
  unfold engineNext
  dsimp only
  split
  · exact h
  split
  · exact h
  · exact dieInv_statusMid h
  · exact dieInv_statusMid h

theorem dieInv_finish (h : dieInv ld.2) : dieInv (finish role r err st det ld).2 := dieInv_engineNext (dieInv_endStatus h)

theorem dieInv_finishErr {e : AccErr} (h : dieInv ld.2) : dieInv (finishErr role r e ld).2 := by
  unfold finishErr
  split
  · exact h
  · exact dieInv_finish h

theorem dieInv_endAtFetch (h : dieInv ld.2) : dieInv (endAtFetch role r err st det ld).2 := by
  unfold endAtFetch
  have hend (p : Prop) [Decidable p] (f : Lane → Lane) : dieInv (endStatus role r err st det (if p then onL f ld else ld)).2 := by
    split <;> exact dieInv_endStatus h
  dsimp only
  split <;> exact hend _ _

theorem dieInv_startRun (h : dieInv ld.2) : dieInv (startRun role r ld).2 := by
  unfold startRun
  dsimp only
  split <;> exact dieInv_statusMid h

theorem dieInv_fetchRing (parms : ParmCheck) (h : dieInv ld.2) : dieInv (fetchRing parms n ld).2 := by
  unfold fetchRing
  dsimp only
  split
  · exact h
  split
  · exact h
  split
  · exact h
  split
  · exact h
  split
  · split <;> exact dieInv_endAtFetch h
  split
  · exact dieInv_endAtFetch h
  split
  · exact dieInv_endAtFetch h
  split
  · exact dieInv_endAtFetch h
  split
  · exact dieInv_endAtFetch h
  split
  · exact dieInv_endAtFetch h
  split
  · exact dieInv_endAtFetch h
  split
  · exact dieInv_endAtFetch h
  · exact dieInv_startRun h

theorem dieInv_atBoundary (h : dieInv ld.2) : dieInv (atBoundary role r ld).2 := by
  unfold atBoundary
  dsimp only
  split
  · exact dieInv_finish h
  split
  · exact dieInv_engineNext (dieInv_statusMid h)
  · exact dieInv_statusMid h

end

/-! Engines' operations -/

section
variable {n op k c role : Nat} {ld ld1 : LD} {r : Run} {bs : List Byte} {m : CanMsg}

theorem dieInv_ringLeft (was : Bool) (h : dieInv ld.2) : dieInv (ringLeft n was ld).2 := by
  unfold ringLeft
  split
  · exact dieInv_engineNext h
  · exact h

theorem dieInv_ringAbortIdle (e : Engine) (h : dieInv ld.2) : dieInv (ringAbort.ringAbortIdle n role e ld).2 := by
  unfold ringAbort.ringAbortIdle
  split
  · exact dieInv_engineNext (dieInv_endStatus h)
  split
  · exact dieInv_engineNext (dieInv_endStatus h)
  · exact dieInv_endStatus h
  · exact dieInv_engineNext h

theorem dieInv_ringAbort (h : dieInv ld.2) : dieInv (ringAbort n ld).2 := by
  unfold ringAbort
  dsimp only
  split
  · split
    · exact h
    · exact dieInv_ringAbortIdle _ h
  · exact dieInv_ringAbortIdle _ h

/-- A unit that keeps the invariant keeps it in every round of its loop. -/
theorem dieInv_unitLoop {unit : Run → LD → LD} (hunit : ∀ r ld, dieInv ld.2 → dieInv (unit r ld).2) (role : Nat) (r0 : Run)
    (fuel : Nat) (h : dieInv ld.2) : dieInv (unitLoop unit role r0 fuel ld).2 := by
  induction fuel generalizing ld with
  | zero => exact h
  | succ fuel ih =>
    rw [unitLoop]
    split
    · split
      · exact ih (hunit _ _ h)
      · exact h
    · exact h

theorem dieInv_copyUnit (h : dieInv ld.2) : dieInv (copyUnit r ld).2 := by
  have hdone (r1 : Run) (p : Prop) [Decidable p] {x : LD} (hx : dieInv x.2) :
      dieInv (if p then finish 0 r1 0 stDone 0 x else atBoundary 0 r1 x).2 := by
    split
    · exact dieInv_finish hx
    · exact dieInv_atBoundary hx
  have hput (bs : List Byte) {x : LD} (hx : dieInv x.2) :
      dieInv (match iovaWrite 0 r.d.ctx (r.d.dst + r.progress) bs x with
        | (.error e, ld2) => finishErr 0 r e ld2
        | (.ok _, ld2) => copyUnitDone r (min 4096 (r.d.length - r.progress)) ld2).2 := by
    split
    next hw => exact dieInv_finishErr (dieInv_iovaWrite hx hw)
    next hw => exact hdone _ _ (dieInv_iovaWrite hx hw)
  unfold copyUnit
  dsimp only
  split
  · exact hput _ h
  split
  next hq => exact dieInv_finishErr (dieInv_iovaReadN h hq)
  next hq =>
  split
  · exact hput _ (dieInv_iovaReadN h hq :)
  · exact hput _ (dieInv_iovaReadN h hq)

theorem dieInv_copyRun (h : dieInv ld.2) : dieInv (copyRun op ld).2 := by
  unfold copyRun
  split
  · exact dieInv_unitLoop (fun _ _ => dieInv_copyUnit) _ _ _ h
  · exact h

theorem dieInv_flushReq (h : dieInv ld.2) : dieInv (flushReq ld).2 := by
  unfold flushReq
  split
  · exact h
  dsimp only
  split
  · exact dieInv_finish h
  · exact h

theorem dieInv_modeRequest (h : dieInv ld.2) : dieInv (modeRequest ld).2 := by
  unfold modeRequest
  split
  · exact h
  split
  · exact h
  split
  · exact dieInv_finish h
  split
  next hq => exact dieInv_finishErr (dieInv_iovaReadN h hq)
  next hq =>
  have hread := dieInv_iovaReadN h hq
  dsimp only
  split
  · exact dieInv_finish hread
  split
  · exact dieInv_finish hread
  · exact hread

theorem dieInv_mbLost (h : dieInv ld.2) : dieInv (mbLost ld).2 := by
  unfold mbLost
  split
  · exact h
  split
  · exact dieInv_finish (ld := (_, ld.2)) h
  · exact h

theorem dieInv_mbSend (h : dieInv ld.2) : dieInv (mbSend ld).2 := by
  unfold mbSend
  split
  · exact h
  split
  · exact h
  split
  · exact dieInv_finish h
  split
  next hq =>
    split
    · exact dieInv_iovaReadN h hq
    · exact dieInv_finishErr (dieInv_iovaReadN h hq)
  next hq => exact (dieInv_iovaReadN h hq :)

theorem dieInv_mbAcked (h : dieInv ld.2) : dieInv (mbAcked ld).2 := by
  unfold mbAcked
  split
  · exact h
  split
  · exact dieInv_finish h
  · exact h

/-! CAN -/

theorem dieInv_canSendFail (det : Nat) (h : dieInv ld.2) : dieInv (canSendFail c det ld).2 := by
  unfold canSendFail
  split
  · exact h
  · exact dieInv_finish h

theorem dieInv_canSend (h : dieInv ld.2) : dieInv (canSend ld).2 := by
  unfold canSend
  split
  · exact h
  dsimp only
  split
  · exact h
  split
  · exact dieInv_finish h
  split
  · exact dieInv_finish h
  split
  next hq => exact dieInv_finishErr (dieInv_iovaReadN h hq)
  next hq => exact (dieInv_iovaReadN h hq :)

theorem dieInv_canAcked (h : dieInv ld.2) : dieInv (canAcked c ld).2 := by
  unfold canAcked
  split
  · exact h
  dsimp only
  split
  · split
    · exact dieInv_finish h
    · exact h
  · exact h

theorem dieInv_canRecv (h : dieInv ld.2) : dieInv (canRecv ld).2 := by
  unfold canRecv
  split
  · exact h
  split
  · exact dieInv_finish h
  · exact dieInv_engineNext h

theorem dieInv_recvEnd (h : dieInv ld.2) : dieInv (recvEnd m r ld).2 := by
  unfold recvEnd
  dsimp only
  split
  · exact dieInv_endStatus h
  split
  next hw => exact dieInv_endStatus (dieInv_iovaWrite (ld := onL (recvDrop r) ld) h hw)
  next hw => exact dieInv_endStatus (dieInv_iovaWrite (ld := onL (recvDrop r) ld) h hw)

theorem dieInv_tpOpen (h : dieInv ld.2) : dieInv (tpOpen c n m ld).2 := by
  unfold tpOpen
  dsimp only
  split
  · exact h
  split
  · exact h
  split
  · exact h
  split
  · exact h
  split
  · exact dieInv_endStatus (ld := (_, ld.2)) h
  · exact h

theorem dieInv_tpPeerEnd (h : dieInv ld.2) : dieInv (tpPeerEnd c m ld).2 := by
  unfold tpPeerEnd
  split
  · exact h
  have hfail (p : Prop) [Decidable p] : dieInv (if p then canSendFail c 3 ld else ld).2 := by
    split
    · exact dieInv_canSendFail 3 h
    · exact h
  exact hfail _

theorem dieInv_canOffer (h : dieInv ld.2) : dieInv (canOffer c m ld).2 := by
  unfold canOffer
  dsimp only
  split
  · exact h
  split
  · exact dieInv_recvEnd (ld := (_, ld.2)) h
  · exact h

theorem dieInv_canReceived (h : dieInv ld.2) : dieInv (canReceived c m ld).2 := by
  unfold canReceived
  split
  · exact h
  split
  · exact dieInv_tpOpen h
  · exact dieInv_tpPeerEnd h
  split
  · split
    · exact dieInv_canOffer h
    · exact h
  · exact dieInv_canOffer h

theorem dieInv_goBusOff (h : dieInv ld.2) : dieInv (goBusOff c ld).2 := by
  unfold goBusOff
  split
  · exact dieInv_canSendFail 2 h
  · exact h

theorem dieInv_tpTimeout (rx : Bool) (h : dieInv ld.2) : dieInv (tpTimeout c rx k ld).2 := by
  unfold tpTimeout
  split
  · exact h
  split
  · split <;> exact h
  dsimp only
  split
  · exact h
  split
  · exact dieInv_canSendFail 3 h
  · exact h

end

/-! The die's own functions: sectors, retired blocks, erase counts, the log (R367 to R372, R377) -/

theorem dieInv_setPart {d : StorageDie} (l : LaneId) (p : Nat) (bs : List (Nat × Byte)) (bad : List Nat) (h : dieInv d) :
    dieInv (setPart d l p bs bad) := by
  unfold setPart
  split
  · exact h
  · exact dieInv_setStoOf _ _ h

theorem dieInv_trimSecs {d : StorageDie} (p sec k : Nat) (l : LaneId) (h : dieInv d) : dieInv (trimSecs p sec k l d) :=
  dieInv_setPart _ _ _ _ h

theorem dieInv_writeSecs {d : StorageDie} (p sec : Nat) (bs : List Byte) (l : LaneId) (h : dieInv d) :
    dieInv (writeSecs p sec bs l d) := dieInv_setPart _ _ _ _ (dieInv_trimSecs _ _ _ _ h)

theorem dieInv_logEntry {d : StorageDie} (kind blk val : Nat) (h : dieInv d) : dieInv (logEntry kind blk val d) := h

theorem dieInv_markBad {d : StorageDie} (g : Nat) (h : dieInv d) : dieInv (markBad g d) := by
  unfold markBad
  split
  · exact h
  split
  · exact h
  · exact dieInv_setPart _ _ _ _ h

theorem insAsc_length (x : Nat) (ys : List Nat) : (insAsc x ys).length = ys.length + 1 := by
  induction ys with
  | nil => rfl
  | cons y ys ih =>
    rw [insAsc]
    split <;> simp [ih]

/-- A block more is retired, a spare block less is left (R368). -/
theorem dieInv_retireDie {d : StorageDie} (blk : Nat) (h : dieInv d) : dieInv (retireDie blk d) := by
  obtain ⟨hsupply, hlinks, hspare, hgrown, hwear⟩ := h
  have hretired : dieInv { d with
      retired := insAsc blk d.retired, spare := d.spare - 1, grown := min (d.grown + 1) 65535 } := by
    refine ⟨hsupply, hlinks, ?_, ?_, hwear⟩
    · simp only [insAsc_length]
      omega
    · simp only [insAsc_length]
      omega
  unfold retireDie
  split
  · exact ⟨hsupply, hlinks, hspare, hgrown, hwear⟩
  dsimp only
  split
  · exact dieInv_logEntry _ _ _ (dieInv_logEntry _ _ _ hretired)
  · exact dieInv_logEntry _ _ _ hretired

/-- Erase counts step within their spread (R369). -/
theorem dieInv_wearStep {ld : LD} (h : dieInv ld.2) : dieInv (wearStep ld).2 := by
  obtain ⟨hsupply, hlinks, hspare, hgrown, hlow, hspread, hmax⟩ := h
  refine ⟨hsupply, hlinks, hspare, hgrown, ?_⟩
  dsimp only [wearStep]
  split_ifs <;> omega

theorem dieInv_diePowerOn {d : StorageDie} (h : dieInv d) : dieInv (diePowerOn d) := by
  obtain ⟨hsupply, hlinks, hrest⟩ := h
  unfold diePowerOn
  split
  · exact ⟨hsupply, hlinks, hrest⟩
  · exact ⟨fun _ => rfl, fun _ => rfl, hrest⟩

/-- Links go down; where the die is not mounted none is up. -/
theorem dieInv_linkDown {d : StorageDie} (m : BitVec 3) (h : dieInv d) : dieInv { d with links := d.links &&& m } := by
  obtain ⟨hsupply, hlinks, hrest⟩ := h
  exact ⟨hsupply, fun hm => by simp [hlinks hm], hrest⟩

section
variable {role op : Nat} {ld : LD} {r : Run}

theorem dieInv_endLink (h : dieInv ld.2) : dieInv (endLink role ld).2 := by
  unfold endLink
  split
  · exact dieInv_finish h
  · exact h

theorem dieInv_storageLinkDown (h : dieInv ld.2) : dieInv (storageLinkDown ld).2 := by
  unfold storageLinkDown
  split
  · exact dieInv_endLink (dieInv_endLink (dieInv_linkDown _ h))
  · exact h

/-! STORAGE descriptors (R380 to R383) -/

theorem dieInv_audAdvance (k : Nat) (h : dieInv ld.2) : dieInv (audAdvance k ld).2 := dieInv_setStoOf _ _ h

theorem dieInv_acceptStorage (h : dieInv ld.2) : dieInv (acceptStorage r ld).2 := by
  unfold acceptStorage
  split
  · exact dieInv_audAdvance _ h
  · exact h

theorem dieInv_unitBlocked {ld1 : LD} (h : dieInv ld.2) (hb : unitBlocked r ld = some ld1) : dieInv ld1.2 := by
  unfold unitBlocked at hb
  split at hb
  · obtain rfl := Option.some.inj hb
    exact dieInv_finish h
  split at hb
  · obtain rfl := Option.some.inj hb
    exact dieInv_finish h
  · exact nomatch hb

theorem dieInv_unitDone (total : Nat) (h : dieInv ld.2) : dieInv (unitDone r total ld).2 := by
  unfold unitDone
  split
  · exact dieInv_finish h
  · exact dieInv_atBoundary h

theorem dieInv_readUnit (h : dieInv ld.2) : dieInv (readUnit r ld).2 := by
  unfold readUnit
  split
  next hb => exact dieInv_unitBlocked h hb
  dsimp only
  split
  · exact dieInv_finish h
  split
  next hw => exact dieInv_finishErr (dieInv_iovaWrite h hw)
  next hw => exact dieInv_unitDone _ (dieInv_iovaWrite h hw)

theorem dieInv_writeUnit (h : dieInv ld.2) : dieInv (writeUnit r ld).2 := by
  unfold writeUnit
  split
  next hb => exact dieInv_unitBlocked h hb
  dsimp only
  split
  next hq => exact dieInv_finishErr (dieInv_iovaReadN h hq)
  next hq => exact dieInv_unitDone _ (dieInv_wearStep (dieInv_writeSecs _ _ _ _ (dieInv_iovaReadN h hq)))

theorem dieInv_trimUnit (h : dieInv ld.2) : dieInv (trimUnit r ld).2 := by
  unfold trimUnit
  split
  next hb => exact dieInv_unitBlocked h hb
  · exact dieInv_unitDone _ (dieInv_trimSecs _ _ _ _ h)

theorem dieInv_verifyUnit (h : dieInv ld.2) : dieInv (verifyUnit r ld).2 := by
  unfold verifyUnit
  split
  next hb => exact dieInv_unitBlocked h hb
  dsimp only
  split
  · exact dieInv_finish h
  · exact dieInv_unitDone _ h

theorem dieInv_storageRun {unit : Run → LD → LD} (hunit : ∀ r ld, dieInv ld.2 → dieInv (unit r ld).2) (h : dieInv ld.2) :
    dieInv (storageRun op unit ld).2 := by
  unfold storageRun
  split
  · exact dieInv_unitLoop hunit _ _ _ h
  · exact h

/-! The recorder (R384 to R394) -/

theorem dieInv_auditAppend (bs : List Byte) (h : dieInv ld.2) : dieInv (auditAppend bs ld).2.2 := by
  unfold auditAppend
  dsimp only
  split
  · exact h
  · exact dieInv_audAdvance 1 (dieInv_writeSecs _ _ _ _ h)

theorem dieInv_foldl {α : Type} {f : LD → α → LD} (hf : ∀ x a, dieInv x.2 → dieInv (f x a).2) (xs : List α)
    (h : dieInv ld.2) : dieInv (xs.foldl f ld).2 := by
  induction xs generalizing ld with
  | nil => exact h
  | cons a xs ih => exact ih (hf ld a h)

theorem dieInv_auditFlush (h : dieInv ld.2) : dieInv (auditFlush ld).2 := by
  unfold auditFlush
  split
  · exact dieInv_foldl (fun _ _ hx => dieInv_auditAppend _ hx) _ (dieInv_foldl (fun _ _ hx => dieInv_auditAppend _ hx) _ h)
  · exact h

theorem dieInv_winSync (h : dieInv ld.2) : dieInv (winSync ld).2 := by
  unfold winSync
  dsimp only
  split
  · exact dieInv_setStoOf _ _ h
  · exact h

theorem dieInv_pump (h : dieInv ld.2) : dieInv (pump ld).2 := dieInv_winSync (dieInv_auditFlush h)

theorem dieInv_sealSign (ok : Bool) (h : dieInv ld.2) : dieInv (sealSign ok ld).2 := by
  unfold sealSign
  split
  · exact h
  split
  · exact h
  extract_lets _ _ _ _ _ _ _ _ _ L6
  clear_value L6
  split
  · exact dieInv_pump (dieInv_finish (ld := (_, ld.2)) h)
  · exact dieInv_pump h

theorem dieInv_asCapture {f : LD → LD} (hf : dieInv (f ld).2) (h : dieInv ld.2) : dieInv (asCapture role f ld).2 := by
  unfold asCapture
  split
  · exact h
  · exact dieInv_engineNext hf

theorem dieInv_storeSeg {d : StorageDie} (n place : Nat) (gone : Option Nat) (bs : List Byte) (l : LaneId) (h : dieInv d) :
    dieInv (storeSeg n place gone bs l d) := dieInv_setStoOf _ _ (dieInv_writeSecs _ _ _ _ h)

theorem dieInv_segProgram (h : dieInv ld.2) : dieInv (segProgram ld).2 := by
  unfold segProgram
  split
  · exact h
  split
  · exact h
  split
  · exact h
  split
  · exact h
  dsimp only
  split
  · exact h
  have hstored (A : Lane) (n place : Nat) (gone : Option Nat) (bs : List Byte) :
      dieInv (wearStep (A, storeSeg n place gone bs ld.1.id ld.2)).2 :=
    dieInv_wearStep (dieInv_storeSeg n place gone bs ld.1.id h)
  split
  · split
    · exact dieInv_pump (dieInv_finish (hstored _ _ _ _ _))
    · exact dieInv_pump (hstored _ _ _ _ _)
  · exact dieInv_pump (hstored _ _ _ _ _)

theorem dieInv_evrTail (h : dieInv ld.2) : dieInv (evrTail ld).2 := by
  unfold evrTail
  extract_lets
  split
  · exact dieInv_pump h
  · exact h

/-- A link comes up on a die that is mounted. -/
theorem dieInv_storageLinkUp (h : dieInv ld.2) : dieInv (storageLinkUp ld).2 := by
  obtain ⟨hsupply, hlinks, hrest⟩ := h
  unfold storageLinkUp
  split
  next hm =>
    have hup : dieInv { ld.2 with links := ld.2.links ||| laneBit ld.1.id } :=
      ⟨hsupply, fun (hno : ld.2.mounted = false) => absurd hm.1 (by simp [hno]), hrest⟩
    exact dieInv_pump hup
  · exact ⟨hsupply, hlinks, hrest⟩

theorem dieInv_evrDormant (h : dieInv ld.2) : dieInv (evrDormant ld).2 := by
  unfold evrDormant
  split
  · exact dieInv_pump h
  · exact h

theorem dieInv_evrWrite (h : dieInv ld.2) : dieInv (evrWrite ld).2 := by
  unfold evrWrite
  split
  · exact h
  split
  · exact h
  split
  next hq => exact dieInv_finishErr (dieInv_iovaReadN h hq)
  next ld1 hq =>
  have hread := dieInv_iovaReadN h hq
  extract_lets
  split
  · exact dieInv_pump (dieInv_finish (dieInv_pair hread))
  · exact dieInv_pump (dieInv_finish (dieInv_pair hread))

theorem dieInv_evrFreeze (h : dieInv ld.2) : dieInv (evrFreeze ld).2 := by
  unfold evrFreeze
  split
  · exact h
  split
  · exact h
  dsimp only
  split
  · exact dieInv_pump (dieInv_finish (ld := (_, ld.2)) h)
  · exact dieInv_pump (dieInv_finish (ld := (_, ld.2)) h)

theorem dieInv_evrReadSeg (h : dieInv ld.2) : dieInv (evrReadSeg r ld).2 := by
  have hdone (r1 : Run) {p : Prop} [Decidable p] {ld1 : LD} (h1 : dieInv ld1.2) : dieInv (if p then finish 4 r1 0 stDone 0 ld1
      else onL (fun L => setEng 4 { getEng L 4 with run := some (statusMid 4 r1 4 ld1).1 } L) (statusMid 4 r1 4 ld1).2).2 :=
    dieInv_ite (dieInv_finish h1) (dieInv_onL (dieInv_statusMid h1))
  rw [evrReadSeg]
  refine dieInv_ite (dieInv_finish h) (dieInv_ite (dieInv_finish (dieInv_onL h)) ?_)
  cases smFind (stoOf ld.2 ld.1.id).place ((r.d.w4.toNat + r.progress / 65536) % 4294967296) with
  | none => exact dieInv_finish h
  | some place =>
    refine dieInv_ite (dieInv_finish h) ?_
    rcases hw : iovaWrite 4 r.d.ctx (r.d.dst + r.progress) (readSecs ld.2 ld.1.id 2 (16 * place) 16) ld with ⟨_ | _, ld1⟩
    · exact dieInv_finishErr (dieInv_iovaWrite h hw)
    · exact hdone _ (dieInv_iovaWrite h hw)

theorem dieInv_evrRead (h : dieInv ld.2) : dieInv (evrRead ld).2 := by
  unfold evrRead
  split
  · exact dieInv_unitLoop (fun _ _ => dieInv_evrReadSeg) _ _ _ h
  · exact h

theorem dieInv_evrSeal (h : dieInv ld.2) : dieInv (evrSeal ld).2 := by
  unfold evrSeal
  split
  · exact h
  split
  · exact dieInv_pump h
  · exact h

theorem dieInv_evrWinlist (h : dieInv ld.2) : dieInv (evrWinlist ld).2 := by
  unfold evrWinlist
  split
  · exact h
  split
  next hw => exact dieInv_finishErr (dieInv_iovaWrite h hw)
  next hw => exact dieInv_finish (dieInv_iovaWrite h hw)

theorem dieInv_evrRelease (h : dieInv ld.2) : dieInv (evrRelease ld).2 := by
  unfold evrRelease
  split
  · exact h
  dsimp only
  split
  · exact dieInv_finish h
  split
  · exact dieInv_finish h
  · exact dieInv_pump (dieInv_finish h)

end

/-! Self-test (R424, R426, R429) -/

section
variable {op k t role : Nat} {ld : LD} {r : Run} {ok pass : Bool} {failed : Option Nat}

theorem dieInv_demandElem (h : dieInv ld.2) : dieInv (demandElem k r t pass ld).2 := by
  unfold demandElem
  dsimp only
  split
  · split
    · exact dieInv_finish (dieInv_pair h)
    · exact h
  · exact dieInv_finish (dieInv_pair h)

theorem dieInv_elemComplete (h : dieInv ld.2) : dieInv (elemComplete k pass ld).2 := by
  unfold elemComplete
  split
  · split
    · exact h
    · exact dieInv_demandElem h
    · exact h
  · exact h

theorem dieInv_bistAbort (h : dieInv ld.2) : dieInv (bistAbort k ld).2 := by
  unfold bistAbort
  split
  · dsimp only
    split
    · exact dieInv_elemComplete h
    · exact h
  · exact h

theorem dieInv_bistRun (h : dieInv ld.2) : dieInv (bistRun failed ld).2 := by
  unfold bistRun
  split
  · exact h
  dsimp only
  split
  · split
    · exact dieInv_finish h
    · exact h
  · exact dieInv_finish h

theorem dieInv_bistMfg (h : dieInv ld.2) : dieInv (bistMfg failed ld).2 := by
  unfold bistMfg
  split
  · exact h
  extract_lets
  split
  · exact dieInv_finish h
  split
  · exact dieInv_finish h
  split
  · exact dieInv_finish (dieInv_pair h)
  split
  · exact dieInv_finish (dieInv_pair h)
  · exact dieInv_finish (dieInv_pair h)

theorem dieInv_bistStatus (h : dieInv ld.2) : dieInv (bistStatus ld).2 := by
  unfold bistStatus
  split
  · exact h
  split
  next hw => exact dieInv_finishErr (dieInv_iovaWrite h hw)
  next hw => exact dieInv_finish (dieInv_iovaWrite h hw)

/-! The checkpoint and Dormant (R408 to R413) -/

theorem dieInv_stopAll (h : dieInv ld.2) : dieInv (stopAll ld).2 := by
  unfold stopAll
  extract_lets
  exact dieInv_mbLost (dieInv_onL (dieInv_pair h))

theorem dieInv_enginesNext (h : dieInv ld.2) : dieInv (enginesNext ld).2 := by
  unfold enginesNext
  exact dieInv_foldl (fun _ _ => dieInv_engineNext) _ h

theorem dieInv_afterFetch (was : Bool) (h : dieInv ld.2) : dieInv (afterFetch was ld).2 := by
  unfold afterFetch
  split
  · exact dieInv_enginesNext h
  · exact h

theorem dieInv_ckptAct (h : dieInv ld.2) : dieInv (ckptAct ld).2 := by
  unfold ckptAct
  extract_lets
  split
  · split
    next i e L1 _ =>
      split
      · extract_lets L2 _ c ld1
        split
        · exact h
        have hnext : dieInv ld1.2 := dieInv_afterFetch _ (dieInv_pump (dieInv_flushReq (dieInv_pair h)))
        split
        · rw [stepC]
          exact dieInv_onL (dieInv_stopAll hnext)
        · exact hnext
      · exact h
    · exact h
  · exact h

theorem dieInv_endRun (h : dieInv ld.2) : dieInv (endRun role ld).2 := by
  unfold endRun
  split
  · exact dieInv_endStatus h
  · exact h

theorem dieInv_endRecv (h : dieInv ld.2) : dieInv (endRecv ld).2 := by
  unfold endRecv
  exact dieInv_foldl (fun _ _ => dieInv_endStatus) _ (dieInv_onL h)

theorem dieInv_dormantA (h : dieInv ld.2) : dieInv (dormantA ld).2 := by
  unfold dormantA
  split
  · extract_lets _ _ ld2
    have hended : dieInv ld2.2 := 
      dieInv_onL (dieInv_endRecv (dieInv_foldl (fun _ _ => dieInv_endRun) _ (dieInv_onL h)))
    split
    · exact dieInv_evrDormant hended
    · exact dieInv_enginesNext hended
  · exact h

theorem dieInv_dormantB (h : dieInv ld.2) : dieInv (dormantB ld).2 := by
  unfold dormantB
  split <;> exact h

theorem dieInv_wokenCore (h : dieInv ld.2) : dieInv (wokenCore ld).2 := by
  unfold wokenCore
  extract_lets
  exact dieInv_enginesNext (dieInv_pump (dieInv_pair h))

theorem dieInv_linkIdle (h : dieInv ld.2) : dieInv (linkIdle ld).2 := by
  unfold linkIdle
  split
  · split
    · exact dieInv_onL (dieInv_stopAll h)
    · exact h
  · exact h

/-! Staging operations (R98, R453) -/

section
variable {base : Nat → Nat} {done : Nat → Lane → Lane}

theorem dieInv_slotErase (h : dieInv ld.2) : dieInv (slotErase role op base done ld).2 := by
  unfold slotErase
  split
  · exact h
  · exact dieInv_finish h

theorem dieInv_slotPages (at0 fuel : Nat) (h : dieInv ld.2) : dieInv (slotPages role at0 r fuel ld).2 := by
  induction fuel generalizing r ld with
  | zero => exact dieInv_finish h
  | succ fuel ih =>
    rw [slotPages]
    split
    · exact dieInv_finish h
    split
    next hq => exact dieInv_finishErr (dieInv_iovaReadN h hq)
    next hq => exact ih (dieInv_onL (dieInv_iovaReadN h hq))

theorem dieInv_slotWrite (h : dieInv ld.2) : dieInv (slotWrite role op base done ld).2 := by
  unfold slotWrite
  split
  · exact h
  · exact dieInv_slotPages _ _ h

end

theorem dieInv_stageVerify (h : dieInv ld.2) : dieInv (stageVerify ld).2 := by
  unfold stageVerify
  split
  · exact h
  · exact dieInv_finish (dieInv_pair h)

theorem dieInv_stageActivate (h : dieInv ld.2) : dieInv (stageActivate ld).2 := by
  unfold stageActivate
  split
  · exact h
  · exact dieInv_finish h

/-! Firmware, keys, lifecycle (R442 to R455) -/

theorem dieInv_fwVerifyOp (h : dieInv ld.2) : dieInv (fwVerifyOp ld).2 := by
  unfold fwVerifyOp
  split
  · exact h
  · exact dieInv_finish (dieInv_pair h)

theorem dieInv_fwActivateOp (h : dieInv ld.2) : dieInv (fwActivateOp ld).2 := by
  unfold fwActivateOp
  split
  · exact h
  · exact dieInv_finish h

theorem dieInv_fwReject {reason : Nat} (h : dieInv ld.2) : dieInv (fwReject r reason ld).2 := dieInv_finish h

theorem dieInv_bootcfg (h : dieInv ld.2) : dieInv (bootcfg ld).2 := by
  unfold bootcfg
  split
  · exact h
  split
  next hq => exact dieInv_finishErr (dieInv_iovaReadN h hq)
  next hq =>
  have hread := dieInv_iovaReadN h hq
  split
  · exact dieInv_fwReject hread
  split
  · exact dieInv_fwReject hread
  · exact dieInv_finish hread

theorem dieInv_svcNonce (h : dieInv ld.2) : dieInv (svcNonce ok ld).2 := by
  unfold svcNonce
  split
  · exact h
  split
  · extract_lets
    split
    next hw => exact dieInv_finishErr (dieInv_iovaWrite (dieInv_pair h) hw)
    next hw => exact dieInv_finish (dieInv_iovaWrite (dieInv_pair h) hw)
  · exact dieInv_finish h

theorem dieInv_svcEnter (h : dieInv ld.2) : dieInv (svcEnter ld).2 := by
  unfold svcEnter
  split
  · exact h
  split
  next hq => exact dieInv_finishErr (dieInv_iovaReadN h hq)
  next ld1 hq =>
  have hread := dieInv_iovaReadN h hq
  extract_lets
  split
  · exact dieInv_pump (dieInv_finish (dieInv_pair hread))
  · exact dieInv_pump (dieInv_fwReject (dieInv_pair hread))

theorem dieInv_svcEndOp (h : dieInv ld.2) : dieInv (svcEndOp ld).2 := by
  unfold svcEndOp
  split
  · exact h
  · exact dieInv_pump (dieInv_finish h :)

theorem dieInv_lcAdvance (h : dieInv ld.2) : dieInv (lcAdvance ld).2 := by
  unfold lcAdvance
  split
  · exact h
  split
  next hq => exact dieInv_finishErr (dieInv_iovaReadN h hq)
  next ld1 hq =>
  have hread := dieInv_iovaReadN h hq
  have hdone {r1 : Run} {A : Lane} : dieInv (pump (finish 9 r1 0 stDone 0 (A, ld1.2))).2 :=
    dieInv_pump (dieInv_finish (ld := (A, ld1.2)) hread)
  have hno {r1 : Run} {reason : Nat} {A : Lane} : dieInv (fwReject r1 reason (A, ld1.2)).2 :=
    dieInv_fwReject (ld := (A, ld1.2)) hread
  extract_lets
  split
  · exact dieInv_pump hno
  split
  · exact dieInv_fwReject hread
  split
  · split
    · split
      · exact hdone
      · exact hno
    · exact hdone
  · extract_lets
    split
    · exact hdone
    · exact dieInv_pump hno

theorem dieInv_keySet (h : dieInv ld.2) : dieInv (keySet ld).2 := by
  unfold keySet
  split
  · exact h
  split
  next hq => exact dieInv_finishErr (dieInv_iovaReadN h hq)
  next ld1 hq =>
  have hread := dieInv_iovaReadN h hq
  extract_lets
  split
  · exact dieInv_fwReject hread
  split
  · exact dieInv_fwReject hread
  split
  · exact dieInv_fwReject hread
  · exact dieInv_pump (dieInv_finish (dieInv_pair hread))

theorem dieInv_keyRevoke (h : dieInv ld.2) : dieInv (keyRevoke ld).2 := by
  unfold keyRevoke
  split
  · exact h
  extract_lets
  split
  · exact dieInv_fwReject h
  split
  · exact dieInv_fwReject h
  split
  · exact dieInv_fwReject h
  split
  · exact dieInv_fwReject h
  · exact dieInv_pump (dieInv_finish (dieInv_pair h))

/-! The crypto unit (R452, R454) -/

theorem dieInv_cryptoPut (n : Nat) (bs : List Byte) (h : dieInv ld.2) : dieInv (cryptoPut r n bs ld).2 := by
  unfold cryptoPut
  split
  next hw => exact dieInv_finishErr (dieInv_iovaWrite h hw)
  next hw => exact dieInv_finish (dieInv_iovaWrite h hw)

theorem dieInv_hashUnit (h : dieInv ld.2) : dieInv (hashUnit ok r ld).2 := by
  unfold hashUnit
  extract_lets
  split
  next hq => exact dieInv_finishErr (dieInv_iovaReadN h hq)
  next ld1 hq =>
  have hread := dieInv_iovaReadN h hq
  extract_lets
  split
  · exact dieInv_atBoundary hread
  split
  · exact dieInv_cryptoPut _ _ hread
  split
  · exact dieInv_cryptoPut _ _ (dieInv_pair hread)
  · exact dieInv_finish hread

theorem dieInv_sm3Run (h : dieInv ld.2) : dieInv (sm3Run ld).2 := by
  unfold sm3Run
  split
  · exact h
  · exact dieInv_unitLoop (fun _ _ => dieInv_hashUnit) _ _ _ h

theorem dieInv_sm2VerifyRun (h : dieInv ld.2) : dieInv (sm2VerifyRun ld).2 := by
  unfold sm2VerifyRun
  split
  · exact h
  split
  next hq => exact dieInv_finishErr (dieInv_iovaReadN h hq)
  next hq => exact dieInv_finish (dieInv_iovaReadN h hq)

theorem dieInv_sm2SignRun (h : dieInv ld.2) : dieInv (sm2SignRun ok ld).2 := by
  unfold sm2SignRun
  split
  · exact h
  split
  · exact dieInv_finish h
  · exact dieInv_unitLoop (fun _ _ => dieInv_hashUnit) _ _ _ h

theorem dieInv_attestRun (h : dieInv ld.2) : dieInv (attestRun ok ld).2 := by
  unfold attestRun
  split
  · exact h
  split
  · exact dieInv_finish h
  split
  next hq => exact dieInv_finishErr (dieInv_iovaReadN h hq)
  next ld1 hq =>
  have hread := dieInv_iovaReadN h hq
  split
  · exact dieInv_finish hread
  extract_lets
  split
  next hw => exact dieInv_finishErr (dieInv_iovaWrite (dieInv_pair hread) hw)
  next hw =>
  have hwrite := dieInv_iovaWrite (dieInv_pair hread) hw
  extract_lets
  split
  · exact dieInv_finish hwrite
  split
  · exact dieInv_finish hwrite
  split
  · exact dieInv_finish (dieInv_auditAppend _ hwrite)
  · exact dieInv_finish (dieInv_auditAppend _ hwrite)

theorem dieInv_randomRun (h : dieInv ld.2) : dieInv (randomRun ok ld).2 := by
  unfold randomRun
  split
  · exact h
  split
  · exact dieInv_cryptoPut _ _ (dieInv_pair h)
  · exact dieInv_finish h

/-! The fetch of a descriptor and its boundaries (R122, R131 to R135) -/

theorem dieInv_descriptorFetch (n : Nat) (h : dieInv ld.2) : dieInv (descriptorFetch n ld).2 := by
  unfold descriptorFetch
  extract_lets _ ld1
  split
  · have hfetch : dieInv ld1.2 := dieInv_fetchRing parmsOf h
    refine dieInv_engineNext ?_
    split
    · exact dieInv_acceptStorage hfetch
    · exact hfetch
  · exact dieInv_engineNext h

theorem dieInv_boundaryUnit (h : dieInv ld.2) : dieInv (boundaryUnit role r ld).2 := by
  have hunit (p : Prop) [Decidable p] {x : LD} (hx : dieInv x.2) : dieInv (if p then x else ld).2 := by
    split
    · exact hx
    · exact h
  unfold boundaryUnit
  extract_lets
  split
  · exact hunit _ (dieInv_copyUnit h)
  · exact hunit _ (dieInv_readUnit h)
  · exact hunit _ (dieInv_writeUnit h)
  · exact hunit _ (dieInv_trimUnit h)
  · exact hunit _ (dieInv_verifyUnit h)
  · exact hunit _ (dieInv_hashUnit h)
  · exact hunit _ (dieInv_hashUnit h)
  · exact h

theorem dieInv_descriptorBoundary (h : dieInv ld.2) : dieInv (descriptorBoundary role ld).2 := by
  unfold descriptorBoundary
  split
  · split
    · exact dieInv_boundaryUnit h
    · exact h
  · exact h

end

/-! Reads and core accesses -/

section
variable {ld ld1 : LD} {l : LaneId}

theorem answered_die (x : Word) (L : Lane) (d : StorageDie) : ((x, (L, d)) : Word × LD).2.2 = d := rfl

theorem regRead_die (a : Nat) (ld : LD) : (regRead a ld).2.2 = ld.2 := by
  unfold regRead
  extract_lets
  split
  · exact answered_die ..
  split
  · rfl
  split
  · split
    · rfl
    split
    · exact answered_die ..
    split
    · exact answered_die ..
    split
    · exact answered_die ..
    · rfl
  · rfl

theorem dieInv_memAccess (op : CoreOp) (w : Width) (a : Nat) (v : Word) (h : dieInv ld.2) : dieInv (memAccess op w a v ld).2.2 := by
  cases op with
  | store =>
    unfold memAccess
    dsimp only
    split
    · exact h
    have hwrite : dieInv (physWrite a (storeBytes w v) ld).2.2 := dieInv_physWrite h
    split <;> next hq => rwa [hq] at hwrite
  | load | fetch =>
    unfold memAccess
    dsimp only
    have hread : (physRead a (widthBytes w) ld).2.2 = ld.2 := physRead_die ..
    split <;> next hq => rw [hq] at hread; rwa [← hread] at h

theorem cacheFill_die (m c a : Nat) (ld : LD) : (cacheFill m c a ld).2.2 = ld.2 := by
  unfold cacheFill
  split
  · rfl
  have hread : (physRead a (eccBytes m) ld).2.2 = ld.2 := physRead_die ..
  split <;> next hq => rwa [hq] at hread

theorem cachedRead_die (m c a n : Nat) (ld : LD) : (cachedRead m c a n ld).2.2 = ld.2 := by
  unfold cachedRead
  extract_lets w
  have hfill : (cacheFill m c w ld).2.2 = ld.2 := cacheFill_die ..
  split
  next hq => rwa [hq] at hfill
  next ld1 hq =>
  rw [hq] at hfill
  extract_lets r
  split
  · exact hfill
  have hagain : (cacheFill m c w (cacheDrop m c w r.2, ld1.2)).2.2 = ld1.2 := cacheFill_die ..
  split
  next hq2 => rw [hq2] at hagain; exact hagain.trans hfill
  next hq2 =>
  rw [hq2] at hagain
  dsimp only
  split <;> exact hagain.trans hfill

theorem dieInv_coreMem (c : Nat) (op : CoreOp) (w : Width) (a : Nat) (v : Word) (h : dieInv ld.2) :
    dieInv (coreMem c op w a v ld).2.2 := by
  unfold coreMem
  split
  · rwa [cachedRead_die]
  dsimp only
  split <;> exact dieInv_memAccess op w a v h

end

/-! Effects on the state -/

/-- The effect `f` keeps the storage die's invariant. -/
def KeepsDie (f : State → State) : Prop := ∀ s, dieInv s.sto → dieInv (f s).sto

section
variable {l : LaneId} {f g : State → State} {s : State}

theorem KeepsDie.then (hf : KeepsDie f) (hg : KeepsDie g) : KeepsDie (fun s => g (f s)) := fun _ h => hg _ (hf _ h)

theorem keepsDie_onLane (F : Lane → Lane) : KeepsDie (fun s => s.onLane l F) := fun s h => by rwa [onLane_sto]

theorem keepsDie_setLane (L : Lane) : KeepsDie (fun s => s.setLane l L) := fun s h => by rwa [setLane_sto]

theorem keepsDie_onLaneDie {F : Lane → StorageDie → Lane × StorageDie} (hF : ∀ L d, dieInv d → dieInv (F L d).2) :
    KeepsDie (fun s => s.onLaneDie l F) := fun _ h => hF _ _ h

theorem keepsDie_onDie {F : LD → LD} (hF : ∀ {ld : LD}, dieInv ld.2 → dieInv (F ld).2) : KeepsDie (onDie l F) := by
  refine keepsDie_onLaneDie fun L d hd => ?_
  split
  · exact hF hd
  · exact hd

theorem keepsDie_onLaneReq (F : Lane → Lane) : KeepsDie (onLaneReq l F) :=
  keepsDie_onDie fun h => dieInv_flushReq (dieInv_onL h)

theorem keepsDie_abandonAll (F : Lane → Lane) : KeepsDie (fun s => abandonAll l s (s.onLane l F)) := fun s h => by
  rwa [abandonAll_sto, onLane_sto]

theorem keepsDie_dspDbgWrite (v : Word) : KeepsDie (dspDbgWrite l v) := by
  obtain ⟨F, hF⟩ := execCdspStep_onLane l
  have hstep (s : State) : stateOf (execCdspStep l s) s = s.onLane l F := by rw [hF]; rfl
  have hone (b : Bool) (F : Lane → Lane) : KeepsDie (fun s => if b then s.onLane l F else s) := fun s h => by
    cases b <;> simpa using h
  unfold dspDbgWrite
  simp only [hstep]
  exact ((hone _ dbgHalt).then (hone _ dbgResume)).then (hone _ F)

theorem keepsDie_regWrite (a : Nat) (v : Word) : KeepsDie (regWrite l a v) := by
  intro s h
  unfold regWrite
  extract_lets off s1 n
  have hblock : dieInv s1.sto := keepsDie_onLane _ s h
  split
  · exact keepsDie_onLane _ s h
  split
  · exact keepsDie_onLane _ s h
  split
  · exact keepsDie_dspDbgWrite v s h
  split
  · split
    · exact keepsDie_onDie dieInv_ringAbort s1 hblock
    split
    · exact keepsDie_onDie (dieInv_ringLeft _) s1 hblock
    · exact hblock
  · exact h

theorem keepsDie_coreDo (c : Nat) (op : CoreOp) (w : Width) (a : Nat) (v : Word) : KeepsDie (coreDo l c op w a v) := by
  intro s h
  have hload : KeepsDie (fun s => s.onLaneDie l (fun L d =>
      let r := regRead a (L, d)
      (coreResp c (.ok r.1) r.2.1, r.2.2))) := keepsDie_onLaneDie fun L d hd => by rwa [regRead_die]
  unfold coreDo
  split
  · cases op <;> exact keepsDie_onLane _ s h
  split
  · cases op
    case store => exact ((keepsDie_regWrite a v).then (keepsDie_onLane _)) s h
    all_goals exact hload s h
  · exact keepsDie_onLaneDie (fun L d hd => dieInv_coreMem (ld := (L, d)) c op w a v hd) s h

theorem keepsDie_coreGo (c : Nat) (op : CoreOp) (w : Width) (a : Nat) (v : Word) : KeepsDie (coreGo l c op w a v) := by
  intro s h
  unfold coreGo
  split
  · exact keepsDie_coreDo c op w a v s h
  extract_lets p s1 s2
  have hpass : dieInv s1.sto := keepsDie_setLane _ s h
  have hdone : dieInv s2.sto := keepsDie_coreDo c op w a v s1 hpass
  split
  · exact keepsDie_onLane _ s1 hpass
  split
  · exact hdone
  · exact keepsDie_onLane _ s2 hdone

theorem keepsDie_coreAccess (c : Nat) (op : CoreOp) (w : Width) (a : Nat) (v : Word) : KeepsDie (coreAccess l c op w a v) := by
  intro s h
  have hgo : dieInv (coreGo l c op w a v s).sto := keepsDie_coreGo c op w a v s h
  unfold coreAccess
  dsimp only
  split
  · split
    · exact keepsDie_onLane _ s h
    split
    · exact hgo
    split
    · exact keepsDie_onLane _ s h
    split
    · exact keepsDie_onLane _ s h
    · exact hgo
  · exact h

/-! Crossings and woken domains -/

theorem keepsDie_xingDeliver (id : Nat) : KeepsDie (xingDeliver l id) := by
  intro s h
  unfold xingDeliver
  dsimp only
  split
  · split
    · exact h
    split
    · exact keepsDie_regWrite _ _ _ (keepsDie_setLane _ s h)
    · exact keepsDie_onLaneDie (fun L d hd => by rwa [regRead_die]) _ (keepsDie_setLane _ s h)
  split
  · split
    · exact h
    · exact keepsDie_setLane _ s h
  · exact h

theorem keepsDie_accSpoilt (id : Nat) (x : BusAcc) (req : Bool) : KeepsDie (accSpoilt l id x req) := by
  intro s h
  unfold accSpoilt
  split
  · exact keepsDie_onLane _ s h
  · exact keepsDie_onLane _ _ (keepsDie_coreDo _ _ _ _ _ s h)

theorem keepsDie_crossingTransfer (id : Nat) (parityOk : Bool) (acc : Option BusAcc) :
    KeepsDie (crossingTransfer l id parityOk acc) := by
  intro s h
  unfold crossingTransfer
  dsimp only
  split
  · split
    · split
      · exact keepsDie_coreGo _ _ _ _ _ s h
      · exact keepsDie_accSpoilt _ _ _ _ (keepsDie_setLane _ s h)
    · split
      · exact keepsDie_xingDeliver id _ (keepsDie_setLane _ s h)
      · exact keepsDie_onLane _ _ (keepsDie_setLane _ s h)
  · exact h

theorem keepsDie_xingAbandon (id : Nat) (acc : Option BusAcc) : KeepsDie (xingAbandon l id acc) := by
  intro s h
  unfold xingAbandon
  dsimp only
  split
  · split
    · refine keepsDie_onLane _ _ ?_
      split
      · exact h
      · exact keepsDie_coreDo _ _ _ _ _ s h
    · exact keepsDie_onLane _ s h
  · exact h

theorem keepsDie_heldGo (c d : Nat) : KeepsDie (heldGo l c d) := by
  intro s h
  unfold heldGo
  split
  · exact keepsDie_coreGo _ _ _ _ _ s h
  · exact h

theorem keepsDie_domainWoken (d : Nat) : KeepsDie (domainWoken l d) := by
  intro s h
  unfold domainWoken
  extract_lets L m _ _ s1 s2
  have hon : dieInv s1.sto := keepsDie_setLane _ s h
  split
  · refine keepsDie_heldGo 1 d _ (keepsDie_heldGo 0 d s2 ?_)
    unfold s2
    split
    · exact keepsDie_onDie (dieInv_wokenCore) s1 hon
    · exact hon
  · exact h

/-! The storage die's own commands (R367 to R373) -/

theorem keepsDie_retireAll (blk : Nat) : KeepsDie (retireAll blk) := fun _ h => dieInv_retireDie _ h

theorem keepsDie_codeword (blk g bits : Nat) : KeepsDie (codeword blk g bits) := by
  intro s h
  unfold codeword
  split
  · exact dieInv_logEntry _ _ _ (dieInv_markBad _ h)
  split
  · exact dieInv_logEntry _ _ _ h
  · exact h

theorem keepsDie_meetNand (bad : NandTrouble) : KeepsDie (meetNand bad) := by
  cases bad with
  | programFails blk => exact keepsDie_retireAll _
  | noResponse => exact fun _ h => h

theorem keepsDie_powerLoss : KeepsDie (fun s => stateOf (execStorageDiePowerLoss s) s) := by
  intro s h
  have hdown (p : LaneId) : KeepsDie (fun s => s.onLaneDie p (fun L d => storageLinkDown (L, d))) :=
    keepsDie_onLaneDie fun L d hd => dieInv_storageLinkDown (ld := (L, d)) hd
  have hall := hdown .c _ (hdown .b _ (hdown .a s h))
  exact ⟨fun _ => rfl, fun _ => rfl, hall.2.2⟩

theorem keepsDie_mount : KeepsDie (fun s => { s with sto := { s.sto with mounted := s.sto.powered || s.sto.mounted } }) := by
  intro s ⟨hsupply, hlinks, hrest⟩
  refine ⟨fun hoff => ?_, fun hun => hlinks (Bool.or_eq_false_iff.mp hun).2, hrest⟩
  have hpow : s.sto.powered = false := hoff
  simp [hpow, hsupply hpow]

theorem keepsDie_relocation (blk : Fin 8192) (g bits : Nat) (bad : Bool) :
    KeepsDie (fun s => stateOf (execRelocation blk g bits bad s) s) := by
  intro s h
  show dieInv (if s.sto.mounted then _ else s).sto
  split
  · have hword : dieInv (codeword blk.val g bits s).sto := keepsDie_codeword _ _ _ s h
    split
    · exact keepsDie_retireAll _ _ hword
    · exact hword
  · exact h

theorem keepsDie_readDisturb (blk : Fin 8192) : KeepsDie (fun s => stateOf (execReadDisturbRelocate blk s) s) := by
  intro s h
  show dieInv (if _ then _ else s).sto
  split
  · exact dieInv_logEntry _ _ _ h
  · exact h

/-- The die after a patrol read of block `blk`: the position, the reads and, at the end of a pass, the passes with their log
entry (R370). -/
def patrolDie (blk : Nat) (d : StorageDie) : StorageDie :=
  let pass := decide (blk < d.patrolPos)
  let d1 := { d with
    patrolPos := blk
    passes := if pass then d.passes + 1 else d.passes
    reads := smSet d.reads blk (smGet d.reads blk 0 + 1) }
  let d2 := if pass then logEntry 4 0 d1.passes d1 else d1
  { d2 with patrolLate := d2.patrolLate && decide (0 < patrolBehind d2) }

theorem execPatrolRead_mounted {blk : Fin 8192} (hm : s.sto.mounted = true) (g bits : Nat) : execPatrolRead blk g bits s =
    .next (codeword blk.val g bits (onLinked s.sto (fun L => if decide (blk.val < s.sto.patrolPos) then steEvent 2 L else L)
      { s with sto := patrolDie blk.val s.sto })) := by
  rw [execPatrolRead, if_pos hm]
  rfl

theorem dieInv_patrolDie {d : StorageDie} (blk : Nat) (h : dieInv d) : dieInv (patrolDie blk d) := by
  unfold patrolDie
  extract_lets pass d1 d2
  have hread : dieInv d1 := h
  have hlogged : dieInv d2 := by
    unfold d2
    split
    · exact dieInv_logEntry _ _ _ hread
    · exact hread
  exact hlogged

theorem keepsDie_patrolRead (blk : Fin 8192) (g bits : Nat) : KeepsDie (fun s => stateOf (execPatrolRead blk g bits s) s) := by
  intro s h
  show dieInv (stateOf (execPatrolRead blk g bits s) s).sto
  by_cases hm : s.sto.mounted = true
  · rw [execPatrolRead_mounted hm]
    exact keepsDie_codeword _ _ _ _ (dieInv_patrolDie _ h)
  · rwa [execPatrolRead, if_neg hm]

theorem keepsDie_patrolLate : KeepsDie (fun s => stateOf (execPatrolLate s) s) := by
  intro s h
  show dieInv (if _ then _ else s).sto
  split <;> exact h

/-- Time passes on a powered die alone (log 1). -/
theorem keepsDie_idle : KeepsDie idle := by
  intro s h
  show dieInv (if s.sto.powered then _ else s.sto)
  split <;> exact h

/-! Every command keeps the invariant -/

/-- The meaning of command `c` keeps the storage die's invariant. -/
def CommandKeepsDie (c : Instr) : Prop := ∃ f, KeepsDie f ∧ ∀ s, exec c s = .next (f s)

theorem commandKeepsDie_of_onLane {c : Instr} {F : Lane → Lane} (h : ∀ s, exec c s = .next (s.onLane l F)) :
    CommandKeepsDie c :=
  ⟨_, keepsDie_onLane F, h⟩

theorem commandKeepsDie_of_onDie {c : Instr} {F : LD → LD} (hF : ∀ {ld : LD}, dieInv ld.2 → dieInv (F ld).2)
    (h : ∀ s, exec c s = .next (onDie l F s)) : CommandKeepsDie c := ⟨_, keepsDie_onDie hF, h⟩

theorem keepsDie_write (bad : Option NandTrouble) : KeepsDie (fun s => stateOf (execWrite l bad s) s) := by
  intro s h
  have hrun : KeepsDie (onDie l (storageRun 0x02 writeUnit)) := keepsDie_onDie (dieInv_storageRun fun _ _ => dieInv_writeUnit)
  refine hrun _ ?_
  cases bad with
  | none => exact h
  | some b =>
    show dieInv (if writes (s.lane l) s.sto then meetNand b s else s).sto
    split
    · exact keepsDie_meetNand b s h
    · exact h

theorem keepsDie_regWrite_if (p : State → Prop) [DecidablePred p] (a : Nat) (v : Word) :
    KeepsDie (fun s => if p s then regWrite l a v s else s) := by
  intro s h
  dsimp only
  split
  · exact keepsDie_regWrite a v s h
  · exact h

/-- The table read once for the storage die: most commands are an effect on a lane alone, those of the rings, of Clove, of the
storage and of the recorder one on a lane and the die; the bus and the die have their own. -/
theorem commandKeepsDie (c : Instr) : CommandKeepsDie c := by
  cases c with
  | storageDiePowerOn => exact ⟨_, fun _ h => dieInv_diePowerOn h, fun _ => rfl⟩
  | steMount => exact ⟨_, keepsDie_mount, fun _ => rfl⟩
  | storageDiePowerLoss => exact ⟨_, keepsDie_powerLoss, fun _ => rfl⟩
  | relocation => exact ⟨_, keepsDie_relocation _ _ _ _, fun _ => rfl⟩
  | readDisturbRelocate => exact ⟨_, keepsDie_readDisturb _, fun _ => rfl⟩
  | patrolRead => exact ⟨_, keepsDie_patrolRead _ _ _, fun _ => rfl⟩
  | patrolLate => exact ⟨_, keepsDie_patrolLate, fun _ => rfl⟩
  | timeTransfer => exact ⟨_, fun s h => by rwa [onLane_sto], fun _ => rfl⟩
  | frameStart | syncFrame | coldstartFrame | syncFrameSend => exact ⟨_, keepsDie_abandonAll _, fun _ => rfl⟩
  | write => exact ⟨_, keepsDie_write _, fun _ => rfl⟩
  | cdspStep l =>
    obtain ⟨f, hf⟩ := execCdspStep_onLane l
    exact commandKeepsDie_of_onLane hf
  | storageLinkDown =>
    exact ⟨_, keepsDie_onLaneDie fun L d hd => dieInv_storageLinkDown (ld := (L, d)) hd, fun _ => rfl⟩
  | linkDown | blockLockLoss => exact ⟨_, (keepsDie_onLaneReq _).then (keepsDie_onDie dieInv_mbLost), fun _ => rfl⟩
  | sampleTransfer | sampleDeadline | voteTransfer | voteDeadline => exact ⟨_, keepsDie_onLaneReq _, fun _ => rfl⟩
  | registerWrite _ a val =>
    exact ⟨_, keepsDie_regWrite_if (fun s => (s.lane _).live ∧ a.toNat % 4 = 0) a.toNat val, fun _ => rfl⟩
  | lockSet _ a val =>
    exact ⟨_, keepsDie_regWrite_if (fun s => (s.lane _).live ∧ lockBits.any (fun f => decide (f.addr = a.toNat))) a.toNat val,
      fun _ => rfl⟩
  | coreAccess | stagingWindowAccess => exact ⟨_, keepsDie_coreAccess _ _ _ _ _, fun _ => rfl⟩
  | crossingTransfer => exact ⟨_, keepsDie_crossingTransfer _ _ _, fun _ => rfl⟩
  | xingTimeout => exact ⟨_, keepsDie_xingAbandon _ _, fun _ => rfl⟩
  | domainWakeOnAccess => exact ⟨_, keepsDie_domainWoken _, fun _ => rfl⟩
  | modeRequest => exact commandKeepsDie_of_onDie dieInv_modeRequest fun _ => rfl
  | ckpt => exact commandKeepsDie_of_onDie dieInv_ckptAct fun _ => rfl
  | evrMark | voteRel | serviceExpiry => exact commandKeepsDie_of_onDie (fun h => dieInv_pump (dieInv_onL h)) fun _ => rfl
  | stageErase | fwErase => exact commandKeepsDie_of_onDie dieInv_slotErase fun _ => rfl
  | stageWrite | fwWrite => exact commandKeepsDie_of_onDie dieInv_slotWrite fun _ => rfl
  | stageVerify => exact commandKeepsDie_of_onDie dieInv_stageVerify fun _ => rfl
  | stageActivate => exact commandKeepsDie_of_onDie dieInv_stageActivate fun _ => rfl
  | ringEnable => exact commandKeepsDie_of_onDie (fun h => dieInv_ringLeft _ (dieInv_onL h)) fun _ => rfl
  | ringAbort => exact commandKeepsDie_of_onDie dieInv_ringAbort fun _ => rfl
  | descriptorFetch => exact commandKeepsDie_of_onDie (dieInv_descriptorFetch _) fun _ => rfl
  | descriptorBoundary => exact commandKeepsDie_of_onDie dieInv_descriptorBoundary fun _ => rfl
  | copy | fill => exact commandKeepsDie_of_onDie dieInv_copyRun fun _ => rfl
  | mbSend => exact commandKeepsDie_of_onDie dieInv_mbSend fun _ => rfl
  | mailboxAcknowledged => exact commandKeepsDie_of_onDie dieInv_mbAcked fun _ => rfl
  | canFrameReceived => exact commandKeepsDie_of_onDie dieInv_canReceived fun _ => rfl
  | canFrameAcknowledged => exact commandKeepsDie_of_onDie dieInv_canAcked fun _ => rfl
  | canBusOff => exact commandKeepsDie_of_onDie dieInv_goBusOff fun _ => rfl
  | tpTimeout => exact commandKeepsDie_of_onDie (dieInv_tpTimeout _) fun _ => rfl
  | canSend => exact commandKeepsDie_of_onDie dieInv_canSend fun _ => rfl
  | canRecv => exact commandKeepsDie_of_onDie dieInv_canRecv fun _ => rfl
  | storageLinkUp => exact commandKeepsDie_of_onDie dieInv_storageLinkUp fun _ => rfl
  | read => exact commandKeepsDie_of_onDie (dieInv_storageRun fun _ _ => dieInv_readUnit) fun _ => rfl
  | trim => exact commandKeepsDie_of_onDie (dieInv_storageRun fun _ _ => dieInv_trimUnit) fun _ => rfl
  | verify => exact commandKeepsDie_of_onDie (dieInv_storageRun fun _ _ => dieInv_verifyUnit) fun _ => rfl
  | evrWrite => exact commandKeepsDie_of_onDie dieInv_evrWrite fun _ => rfl
  | sealSign => exact commandKeepsDie_of_onDie (fun h => dieInv_asCapture (dieInv_sealSign _ h) h) fun _ => rfl
  | segmentProgram => exact commandKeepsDie_of_onDie (fun h => dieInv_asCapture (dieInv_segProgram h) h) fun _ => rfl
  | evrFreeze => exact commandKeepsDie_of_onDie dieInv_evrFreeze fun _ => rfl
  | evrRead => exact commandKeepsDie_of_onDie dieInv_evrRead fun _ => rfl
  | evrSeal => exact commandKeepsDie_of_onDie dieInv_evrSeal fun _ => rfl
  | evrWinlist => exact commandKeepsDie_of_onDie dieInv_evrWinlist fun _ => rfl
  | evrRelease => exact commandKeepsDie_of_onDie dieInv_evrRelease fun _ => rfl
  | evrTail => exact commandKeepsDie_of_onDie dieInv_evrTail fun _ => rfl
  | dormantStepA => exact commandKeepsDie_of_onDie dieInv_dormantA fun _ => rfl
  | dormantStepB => exact commandKeepsDie_of_onDie dieInv_dormantB fun _ => rfl
  | dormantStepD => exact commandKeepsDie_of_onDie (fun h => dieInv_afterFetch _ (dieInv_onL h)) fun _ => rfl
  | linkIdle => exact commandKeepsDie_of_onDie dieInv_linkIdle fun _ => rfl
  | bistElementComplete => exact commandKeepsDie_of_onDie dieInv_elemComplete fun _ => rfl
  | bistAbort => exact commandKeepsDie_of_onDie dieInv_bistAbort fun _ => rfl
  | bistRun => exact commandKeepsDie_of_onDie dieInv_bistRun fun _ => rfl
  | bistMfg => exact commandKeepsDie_of_onDie dieInv_bistMfg fun _ => rfl
  | bistStatus => exact commandKeepsDie_of_onDie dieInv_bistStatus fun _ => rfl
  | fwVerify => exact commandKeepsDie_of_onDie dieInv_fwVerifyOp fun _ => rfl
  | fwActivate => exact commandKeepsDie_of_onDie dieInv_fwActivateOp fun _ => rfl
  | bootcfg => exact commandKeepsDie_of_onDie dieInv_bootcfg fun _ => rfl
  | svcNonce => exact commandKeepsDie_of_onDie dieInv_svcNonce fun _ => rfl
  | svcEnter => exact commandKeepsDie_of_onDie dieInv_svcEnter fun _ => rfl
  | svcEnd => exact commandKeepsDie_of_onDie dieInv_svcEndOp fun _ => rfl
  | lcAdvance => exact commandKeepsDie_of_onDie dieInv_lcAdvance fun _ => rfl
  | keySet => exact commandKeepsDie_of_onDie dieInv_keySet fun _ => rfl
  | keyRevoke => exact commandKeepsDie_of_onDie dieInv_keyRevoke fun _ => rfl
  | sm3 => exact commandKeepsDie_of_onDie dieInv_sm3Run fun _ => rfl
  | sm2Verify => exact commandKeepsDie_of_onDie dieInv_sm2VerifyRun fun _ => rfl
  | sm2Sign => exact commandKeepsDie_of_onDie dieInv_sm2SignRun fun _ => rfl
  | attest => exact commandKeepsDie_of_onDie dieInv_attestRun fun _ => rfl
  | random => exact commandKeepsDie_of_onDie dieInv_randomRun fun _ => rfl
  | _ => exact commandKeepsDie_of_onLane fun _ => rfl

end

/-- Settles O7: time keeps the invariant, and so does each command of the table. -/
theorem dieInvariantIsKeptByEveryStep : Obligations.DieInvariantIsKeptByEveryStep := by
  intro s t h ht
  match hq : s.pending with
  | [] =>
    obtain rfl := Host.Outcome.next.inj ((by simp [step, hq] : step s = .next (idle s)).symm.trans ht)
    exact keepsDie_idle s h
  | c :: rest =>
    obtain ⟨f, hf, hexec⟩ := commandKeepsDie c
    have hstep : step s = .next (f { s with pending := rest }) := by rw [← hexec]; simp [step, hq]
    obtain rfl := Host.Outcome.next.inj (hstep.symm.trans ht)
    exact hf _ h

end Sys2Proof.Machine
end

section
/-! SUPPORT. Proofs of the statements about supplies, resets, bring-up and clocks (R398 to R406): what a reset keeps of a sparse map,
one lemma for each case of an event of bring-up, the fields that release sets, and domains that wake. -/

namespace Sys2Proof.Machine

/-! What stays of a sparse map whose keys are chosen -/

section
variable {α : Type} {p : Nat → Bool} {k : Nat}

theorem smFind_filter_out (m : List (Nat × α)) (hp : p k = false) : smFind (m.filter (fun c => p c.1)) k = none := by
  induction m with
  | nil => rfl
  | cons c m ih =>
    obtain ⟨k', v⟩ := c
    cases hk : p k' with
    | false => simpa [hk] using ih
    | true =>
      have hne : k' ≠ k := fun h => by simp [← h, hk] at hp
      simp [hk, smFind, hne, ih]

theorem smFind_filter_in (m : List (Nat × α)) {lo : Nat} (hs : smSortedFrom lo m = true) (hp : p k = true) :
    smFind (m.filter (fun c => p c.1)) k = smFind m k := by
  induction m generalizing lo with
  | nil => rfl
  | cons c m ih =>
    obtain ⟨k', v⟩ := c
    simp only [smSortedFrom, Bool.and_eq_true, decide_eq_true_eq] at hs
    cases hk : p k' with
    | true => simp [hk, smFind, ih hs.2]
    | false =>
      have hne : k' ≠ k := fun h => by simp [← h, hk] at hp
      by_cases hlt : k < k'
      · have hnone : smFind (m.filter (fun c => p c.1)) k = none :=
          smFind_below (filter_sortedFrom (fun c => p c.1) m _ hs.2) (Nat.lt_succ_of_lt hlt)
        simp [hk, smFind, hne, hlt, hnone]
      · simp [hk, smFind, hne, hlt, ih hs.2]

end

theorem rdB_of_kept {L K : Lane} (hk : K.mem = L.mem.filter (fun c => memKept c.1)) (a : Nat) :
    (memKept a = false → K.rdB a = memDefault a) ∧ (memWf L.mem = true → memKept a = true → K.rdB a = L.rdB a) := by
  unfold Lane.rdB smGet
  rw [hk]
  exact ⟨fun ha => by rw [smFind_filter_out _ ha]; rfl, fun hm ha => by rw [smFind_filter_in _ (memWf_sorted hm) ha]⟩

/-! Power-on and lane reset -/

/-- Settles O9: power-on leaves no register, and of the memory the part that power-off keeps. -/
theorem powerOnStartsTheLaneAfresh : Obligations.PowerOnStartsTheLaneAfresh := by
  intro l s
  refine ⟨s.onLane l powerOn, rfl, onlyLane_onLane l s powerOn, ?_⟩
  rw [lane_onLane_same]
  exact ⟨rfl, fun _ => rfl, rfl, rfl, rfl, rfl, fun a => (rdB_of_kept rfl a).1, fun hm a => (rdB_of_kept rfl a).2 hm⟩

/-- A lane on its way to Dormant: ENTRY of AOS_DORM is set. -/
def enteringDormant : Lane := (lanePowered .a otpInit).setB F.AOS_DORM_ENTRY true

/-- Refutes O10: ENTRY of AOS_DORM is a register of the kept block, and lane reset clears it, since a Dormant entry is over with
it (log 25). -/
theorem not_laneResetKeepsOnlyWhatItMust : ¬ Obligations.LaneResetKeepsOnlyWhatItMust := by
  intro h
  obtain ⟨_, _, hkept, _⟩ := h .waitPg enteringDormant
  have hentry : enteringDormant.fld F.AOS_DORM_ENTRY = 1 := by decide +kernel
  have hover : (applyReset .waitPg enteringDormant).fld F.AOS_DORM_ENTRY = 0 := by decide +kernel
  have hsame := hkept (by decide +kernel) F.AOS_DORM_ENTRY (by decide)
  rw [hentry, hover] at hsame
  exact absurd hsame (by decide)

section
variable {L : Lane}

theorem laneReset_off (k : Nat) (h : L.pwr.phase = .off) : laneReset k L = L := by rw [laneReset, h]

theorem laneReset_held (k : Nat) (h : L.pwr.phase = .heldPg ∨ L.pwr.phase = .heldDomain) :
    laneReset k L = L.setBit F.AOS_RSTCAUSE_CAUSE k true := by
  rcases h with h | h <;> rw [laneReset, h]

theorem laneReset_supplied (k : Nat) (h : ¬ (L.pwr.phase = .off ∨ L.pwr.phase = .heldPg ∨ L.pwr.phase = .heldDomain)) :
    laneReset k L = (applyReset .waitPg L).setBit F.AOS_RSTCAUSE_CAUSE k true := by
  unfold laneReset
  split
  next hp => exact absurd (.inl hp) h
  next hp => exact absurd (.inr (.inl hp)) h
  next hp => exact absurd (.inr (.inr hp)) h
  · rfl

/-- A live lane is released or wakes. -/
theorem phase_of_live (h : L.live = true) : L.pwr.phase = .run ∨ L.pwr.phase = .waking := by
  simp only [Lane.live, Bool.or_eq_true, Bool.and_eq_true, decide_eq_true_eq] at h
  exact h.imp_right And.left

theorem supplied_of_live (h : L.live = true) :
    ¬ (L.pwr.phase = .off ∨ L.pwr.phase = .heldPg ∨ L.pwr.phase = .heldDomain) := by
  rcases phase_of_live h with hp | hp <;> simp [hp]

theorem swrst_reset (h : L.live = true) :
    swrst 0x0000A55A L = (applyReset .waitPg L).setBit F.AOS_RSTCAUSE_CAUSE 5 true := by
  rw [swrst, if_pos ⟨rfl, h⟩, laneReset_supplied 5 (supplied_of_live h)]

theorem pgFall_released (h : L.pwr.phase = .run ∨ L.pwr.phase = .dormant ∨ L.pwr.phase = .waking) :
    pgFall L = (applyReset .waitPg L).setBit F.AOS_RSTCAUSE_CAUSE 2 true := by
  rcases h with h | h | h <;> rw [pgFall, h] <;> exact laneReset_supplied 2 (by simp [h])

end

/-- Settles O11: each cause is an effect on its lane, read off the lane's phase. -/
theorem resetCausesAreRecorded : Obligations.ResetCausesAreRecorded := by
  intro l s sup val L after held
  have hself {c : Instr} {f : Lane → Lane} (hc : exec c s = .next (s.onLane l f)) (hf : f (s.lane l) = s.lane l) :
      exec c s = .next s := by rw [hc, onLane_eq_self hf]
  refine ⟨fun h => exec_of_onLane rfl (laneReset_supplied 3 h), fun h => exec_of_onLane rfl (laneReset_supplied 1 h),
    fun h => ⟨hself rfl (laneReset_off 3 h), hself rfl (laneReset_off 1 h)⟩,
    fun h => ⟨exec_of_onLane rfl (laneReset_held 3 h), exec_of_onLane rfl (laneReset_held 1 h)⟩,
    fun h => exec_of_onLane rfl (swrst_reset h), fun h => hself rfl (if_neg fun hv => h hv.1),
    fun h => exec_of_onLane rfl (pgFall_released h), fun h => hself rfl ?_,
    fun hw ho => exec_of_onLane rfl (if_pos ⟨hw, Bool.eq_false_iff.mp ho⟩), fun h => hself rfl (if_neg fun hp => hp.2 h)⟩
  have hb : (s.lane l).pwr.phase = .bringUp := h
  rw [pgFall, hb]

/-! Bring-up -/

section
variable {L : Lane} {d : Nat} {khz : BitVec 16}

theorem pgSeen_waiting (h : L.pwr.phase = .waitPg) : (pgSeen L).pwr = { pwrWait with
      phase := .bringUp, tmrFrac := L.pwr.tmrFrac, everReset := L.pwr.everReset, pgOnce := true, isos := L.pwr.isos } ∧
    (pgSeen L).mem = L.mem.filter (fun c => memKept c.1) ∧ (pgSeen L).cache = [] := by
  rw [pgSeen, if_pos h]
  exact ⟨rfl, rfl, rfl⟩

theorem domainReady_first (hb : L.pwr.phase = .bringUp) (hd : L.pwr.domNext = d) (ht : L.pwr.domTry = 0) : domainReady d L =
    tryRelease { L.setBit F.AOS_STAT_ON d true with pwr := { L.pwr with domNext := d + 1, domTry := 0 } } := by
  have hno : ¬ 0 < L.pwr.domTry := by omega
  rw [domainReady, if_pos ⟨hb, hd⟩]
  simp only [if_neg hno]
  rfl

theorem domainFail_again (hb : L.pwr.phase = .bringUp) (hd : L.pwr.domNext = d) (ht : L.pwr.domTry < 2) : domainFail d L =
    { L.inc F.AOS_ERR_DOMRETRY_CNT with pwr := { L.pwr with domTry := L.pwr.domTry + 1 } } := by
  rw [domainFail, if_pos ⟨hb, hd⟩, if_pos ht]

theorem domainFail_last (hb : L.pwr.phase = .bringUp) (hd : L.pwr.domNext = d) (ht : 2 ≤ L.pwr.domTry) : domainFail d L =
    (applyReset .heldDomain L).setBit F.AOS_RSTCAUSE_CAUSE 7 true := by
  rw [domainFail, if_pos ⟨hb, hd⟩, if_neg (Nat.not_lt.mpr ht)]

theorem crystalReady_inside (hb : L.pwr.phase = .bringUp) (hx : L.pwr.xtal = none)
    (hlo : 95 * L.n F.CLK_STAT_XTAL_KHZ ≤ 100 * khz.toNat) (hhi : 100 * khz.toNat ≤ 105 * L.n F.CLK_STAT_XTAL_KHZ) :
    crystalReady khz L = tryRelease
      { (L.putN F.CLK_MEAS_KHZ khz.toNat).setB F.CLK_STAT_XTAL_OK true with pwr := { L.pwr with xtal := some true } } := by
  rw [crystalReady, if_pos ⟨.inl hb, hx⟩]
  exact if_pos ⟨hlo, hhi⟩

theorem crystalReady_outside (hb : L.pwr.phase = .bringUp) (hx : L.pwr.xtal = none)
    (h : 100 * khz.toNat < 95 * L.n F.CLK_STAT_XTAL_KHZ ∨ 105 * L.n F.CLK_STAT_XTAL_KHZ < 100 * khz.toNat) :
    crystalReady khz L = L.putN F.CLK_MEAS_KHZ khz.toNat := by
  rw [crystalReady, if_pos ⟨.inl hb, hx⟩]
  exact if_neg (by omega)

theorem crystalTimeout_bringUp (hb : L.pwr.phase = .bringUp) (hx : L.pwr.xtal = none) : crystalTimeout L =
    tryRelease (withPwr (fun p => { p with xtal := some false }) (raise 0x002 (clockDegraded 1 L))) :=
  if_pos ⟨.inl hb, hx⟩

theorem pllLocked_first (hb : L.pwr.phase = .bringUp) (hx : L.pwr.xtal = some true) (hp : L.pwr.pll = none)
    (ht : L.pwr.pllTry = 0) : pllLocked L = tryRelease
      { (L.setB F.CLK_STAT_PLL_LOCK true).setB F.CLK_STAT_ON_PLL true with pwr := { L.pwr with pll := some true } } := by
  have hno : ¬ 0 < L.pwr.pllTry := by omega
  rw [pllLocked, if_pos ⟨.inl hb, hx, hp⟩]
  simp only [if_neg hno]
  rfl

theorem pllFail_again (hb : L.pwr.phase = .bringUp) (hx : L.pwr.xtal = some true) (hp : L.pwr.pll = none)
    (ht : L.pwr.pllTry < 2) : pllFail L =
      { L.inc F.AOS_ERR_PLLRETRY_CNT with pwr := { L.pwr with pllTry := L.pwr.pllTry + 1 } } := by
  rw [pllFail, if_pos ⟨.inl hb, hx, hp⟩, if_pos ht]

theorem pllFail_last (hb : L.pwr.phase = .bringUp) (hx : L.pwr.xtal = some true) (hp : L.pwr.pll = none)
    (ht : 2 ≤ L.pwr.pllTry) : pllFail L =
      tryRelease (withPwr (fun p => { p with pll := some false }) (raise 0x002 (clockDegraded 2 L))) := by
  rw [pllFail, if_pos ⟨.inl hb, hx, hp⟩, if_neg (Nat.not_lt.mpr ht)]
  rfl

theorem romCheck_match (hb : L.pwr.phase = .bringUp) (hon : L.bit F.AOS_STAT_ON 0 = true) (hr : L.pwr.romOk = false) :
    romCheck true L = tryRelease (withPwr (fun p => { p with romOk := true }) (returnedDestruction L)) :=
  if_pos ⟨hb, hon, by simp [hr]⟩

theorem romCheck_mismatch (hb : L.pwr.phase = .bringUp) (hon : L.bit F.AOS_STAT_ON 0 = true) (hr : L.pwr.romOk = false) :
    romCheck false L = withPwr (fun p => { p with phase := .heldRom }) (raise 0x054 L) :=
  if_pos ⟨hb, hon, by simp [hr]⟩

end

/-- Settles O12: each event of bring-up, in its phase, is one case of its function. -/
theorem bringUpProceedsStepByStep : Obligations.BringUpProceedsStepByStep := by
  intro l s d khz L x
  refine ⟨fun hw => ?_, fun hb hd ht => exec_of_onLane rfl (domainReady_first hb hd ht),
    fun hb hd ht => exec_of_onLane rfl (domainFail_again hb hd ht),
    fun hb hd ht => exec_of_onLane rfl (domainFail_last hb hd ht),
    fun hb hx hlo hhi => exec_of_onLane rfl (crystalReady_inside hb hx hlo hhi),
    fun hb hx h => exec_of_onLane rfl (crystalReady_outside hb hx h),
    fun hb hx => exec_of_onLane rfl (crystalTimeout_bringUp hb hx),
    fun hb hx hp ht => exec_of_onLane rfl (pllLocked_first hb hx hp ht),
    fun hb hx hp ht => exec_of_onLane rfl (pllFail_again hb hx hp ht),
    fun hb hx hp ht => exec_of_onLane rfl (pllFail_last hb hx hp ht),
    fun hb hon hr => exec_of_onLane rfl (romCheck_match hb hon hr),
    fun hb hon hr => exec_of_onLane rfl (romCheck_mismatch hb hon hr)⟩
  obtain ⟨hpwr, hmem, hcache⟩ := pgSeen_waiting hw
  refine ⟨s.onLane l pgSeen, rfl, onlyLane_onLane l s pgSeen, ?_⟩
  rw [lane_onLane_same, hpwr]
  exact ⟨rfl, rfl, rfl, hcache, rfl, rfl, rfl, fun a => (rdB_of_kept hmem a).1⟩

/-! The last step -/

/-- The clocks of bring-up are settled: degraded at the crystal, or the PLL locked or given up. -/
def clockSettled (p : PwrSt) : Bool :=
  match p.xtal, p.pll with
  | some false, _ => true
  | some true, some _ => true
  | _, _ => false

theorem clockSettled_iff (p : PwrSt) : clockSettled p = true ↔ p.xtal = some false ∨ (p.xtal = some true ∧ p.pll ≠ none) := by
  unfold clockSettled
  rcases hx : p.xtal with _ | _ | _ <;> rcases hp : p.pll with _ | _ <;> simp

/-- The lane with its PHY domain OFF and its pairing shown. -/
def phyOffPaired (L : Lane) : Lane :=
  let K := L.setBit F.AOS_STAT_ON 6 false
  K.setB F.TLS_MS_CFG_PAIR (isSplit K)

/-- The lane in phase `run`. -/
def inRun (L : Lane) : Lane := withPwr (fun p => { p with phase := .run }) L

section
variable {L : Lane}

theorem tryRelease_eq (L : Lane) : tryRelease L =
    if L.pwr.phase = .bringUp ∧ L.pwr.domNext = 7 ∧ clockSettled L.pwr = true ∧ L.pwr.romOk = true then
      if L.otp.lc = 4 then withPwr (fun p => { p with phase := .scrapped }) L
      else
        (phyOffPaired (inRun L)).putN F.TLS_MS_STAT_SUBSTATE (if (phyOffPaired (inRun L)).b F.CLK_STAT_DEGRADED then 7 else 1)
    else L := rfl

theorem fld_setBit_other {f g : Fld} (i : Nat) (v : Bool) (hs : smSorted L.regs = true) (h : g.key ≠ f.key) :
    (L.setBit f i v).fld g = L.fld g := fld_put_other _ hs h

theorem setBit_sorted (f : Fld) (i : Nat) (v : Bool) (hs : smSorted L.regs = true) : smSorted (L.setBit f i v).regs = true :=
  put_sorted L f _ hs

theorem bitAt_setBit_false (w : Word) {i : Nat} (hi : i < 32) : bitAt (setBit w i false) i = false := by
  rw [bitAt, setBit, if_neg Bool.false_ne_true, BitVec.getLsbD_and, BitVec.getLsbD_not, BitVec.getLsbD_ofNat,
    Nat.testBit_two_pow_self, decide_eq_true hi]
  simp

theorem bitAt_cut (w : Word) {i n : Nat} (hi : i < n) (hn : n ≤ 32) : bitAt (toW (w.toNat % 2 ^ n)) i = bitAt w i := by
  rw [bitAt, toW, BitVec.getLsbD_ofNat, Nat.testBit_mod_two_pow, BitVec.testBit_toNat, decide_eq_true hi,
    decide_eq_true (hi.trans_le hn)]
  rfl

theorem bit_setBit_false {f : Fld} {i : Nat} (hs : smSorted L.regs = true) (hi : i < f.w) (hw : f.w ≤ 32) :
    (L.setBit f i false).bit f i = false := by
  rw [Lane.bit, laneSetBit_eq, fld_put L f f _ hs (fun _ => rfl), if_pos rfl, bitAt_cut _ hi hw, bitAt_setBit_false _ (by omega)]

theorem phyOffPaired_sorted (hs : smSorted L.regs = true) : smSorted (phyOffPaired L).regs = true :=
  setB_sorted _ _ (setBit_sorted _ _ _ hs)

theorem phyOffPaired_off (hs : smSorted L.regs = true) : (phyOffPaired L).bit F.AOS_STAT_ON 6 = false := by
  rw [phyOffPaired, Lane.bit, fld_setB_other _ (setBit_sorted _ _ _ hs) (by decide)]
  exact bit_setBit_false hs (by decide) (by decide)

theorem phyOffPaired_degraded (hs : smSorted L.regs = true) :
    (phyOffPaired L).b F.CLK_STAT_DEGRADED = L.b F.CLK_STAT_DEGRADED := by
  rw [phyOffPaired, Lane.b, fld_setB_other _ (setBit_sorted _ _ _ hs) (by decide), fld_setBit_other _ _ hs (by decide)]
  rfl

end

/-- Settles O13: the step that completes bring-up ends it, as the lifecycle and the clocks say. -/
theorem releaseFollowsTheLastStep : Obligations.ReleaseFollowsTheLastStep := by
  intro L clk ready
  have hready : ready ↔ L.pwr.phase = .bringUp ∧ L.pwr.domNext = 7 ∧ clockSettled L.pwr = true ∧ L.pwr.romOk = true := by
    rw [clockSettled_iff]
  rw [tryRelease_eq, hready]
  refine ⟨fun h => if_neg h, fun h hlc => by rw [if_pos h, if_pos hlc], fun h hlc => ?_⟩
  rw [if_pos h, if_neg hlc]
  refine ⟨rfl, rfl, fun hs => ?_⟩
  have hrun : smSorted (inRun L).regs = true := hs
  constructor
  · rw [Lane.bit, fld_putN_other _ (phyOffPaired_sorted hrun) (by decide)]
    exact phyOffPaired_off hrun
  · rw [phyOffPaired_degraded hrun, n_putN_same (phyOffPaired_sorted hrun) ?_ (by decide)]
    · rfl
    · split <;> decide

/-! Supply warnings, lost clocks, domains that wake -/

section
variable {L : Lane} {k d : Nat}

theorem supplyWarn_off (h : L.pwr.phase = .off) : supplyWarn k L = L := by
  rw [supplyWarn, powered, h]
  rfl

theorem supplyWarn_inReset (hon : L.pwr.phase ≠ .off) (hreset : outOfReset L = false) :
    supplyWarn k L = (L.setBit F.AOS_STAT_SUP k true).inc F.AOS_ERR_SUPWARN_CNT := by
  rw [supplyWarn, powered, if_pos (decide_eq_true hon)]
  exact if_neg (Bool.eq_false_iff.mp hreset)

theorem on_of_outOfReset (h : outOfReset L = true) : L.pwr.phase ≠ .off := fun hoff => by
  rw [outOfReset, hoff] at h
  exact Bool.false_ne_true h

theorem supplyWarn_outOfReset (h : outOfReset L = true) :
    supplyWarn k L = raise 0x005 ((L.setBit F.AOS_STAT_SUP k true).inc F.AOS_ERR_SUPWARN_CNT) := by
  rw [supplyWarn, powered, if_pos (decide_eq_true (on_of_outOfReset h))]
  exact if_pos h

/-- The lane whose monitored clock is lost (R405, R406). -/
def lostClock (why : ClockLoss) (L : Lane) : Lane :=
  plicRaise 2 (match why with
    | .pllUnlock => (clockDegraded 3 (physOff (raise 0x003 L))).setB F.CLK_STAT_PLL_LOCK false
    | _ => (clockDegraded 3 (physOff (raise 0x003 L))).setB F.CLK_STAT_XTAL_OK false)

theorem clockLost_live (why : ClockLoss) (hlive : L.live = true) (hclk : L.b F.CLK_STAT_DEGRADED = false) : clockLost why L =
    if curMode (lostClock why L) = mStartup ∧ 1 ≤ substate (lostClock why L) ∧ substate (lostClock why L) ≤ 6 then
      enterHold (lostClock why L)
    else lostClock why L := by
  rw [clockLost, if_pos ⟨hlive, Bool.eq_false_iff.mp hclk⟩]
  rfl

theorem clockLost_ignored (why : ClockLoss) (h : L.live = false ∨ L.b F.CLK_STAT_DEGRADED = true) : clockLost why L = L := by
  rw [clockLost, if_neg]
  rintro ⟨hlive, hclk⟩
  rcases h with h | h
  · exact Bool.eq_false_iff.mp h hlive
  · exact hclk h

/-- Domain `d` is in retention, was asked for and has not failed. -/
def askedFor (L : Lane) (d : Nat) : Prop :=
  L.pwr.retained.getLsbD d = true ∧ L.pwr.waking.getLsbD d = true ∧ L.bit F.AOS_STAT_FAIL d = false

theorem askedFor_iff : askedFor L d ↔ (L.pwr.retained.getLsbD d ∧ L.pwr.waking.getLsbD d ∧ ¬ L.bit F.AOS_STAT_FAIL d) := by
  rw [askedFor, Bool.eq_false_iff]

/-- The lane with domain `d` up. -/
def withDomainUp (d : Nat) (L : Lane) : Lane :=
  { L.setBit F.AOS_STAT_ON d true with pwr := { L.pwr with
      retained := L.pwr.retained &&& ~~~ BitVec.ofNat 7 (2 ^ d), waking := L.pwr.waking &&& ~~~ BitVec.ofNat 7 (2 ^ d) } }

theorem domainWoken_asked {l : LaneId} {s : State} (h : askedFor (s.lane l) d) : domainWoken l d s =
    heldGo l 1 d (heldGo l 0 d (if d = 0 ∧ (s.lane l).pwr.phase = .waking then
      onDie l wokenCore (s.setLane l (withDomainUp d (s.lane l))) else s.setLane l (withDomainUp d (s.lane l)))) :=
  if_pos (askedFor_iff.mp h)

theorem domainWoken_unasked {l : LaneId} {s : State} (h : ¬ askedFor (s.lane l) d) : domainWoken l d s = s :=
  if_neg fun ha => h (askedFor_iff.mpr ha)

theorem domainWakeTimeout_asked (h : askedFor L d) : domainWakeTimeout d L = heldFail 1 d (heldFail 0 d
    (withPwr (fun p => { p with waking := p.waking &&& ~~~ BitVec.ofNat 7 (2 ^ d) })
      (raise 0x001 (L.setBit F.AOS_STAT_FAIL d true)))) :=
  if_pos (askedFor_iff.mp h)

theorem domainWakeTimeout_unasked (h : ¬ askedFor L d) : domainWakeTimeout d L = L :=
  if_neg fun ha => h (askedFor_iff.mpr ha)

theorem heldGo_none {l : LaneId} {c : Nat} {t : State} (h : heldFor (t.lane l) c d = none) : heldGo l c d t = t := by
  rw [heldGo, h]

theorem heldGo_some {l : LaneId} {c : Nat} {t : State} {x : HeldAcc} (h : heldFor (t.lane l) c d = some x) :
    heldGo l c d t = coreGo l c x.op x.w x.addr.toNat x.data t := by
  rw [heldGo, h]

/-- The lane that asks for the domains named by `val`, of those in retention that have not failed. -/
def domainsAsked (val : Word) (L : Lane) : Lane :=
  withPwr (fun p => { p with
    waking := p.waking ||| (val.setWidth 7 &&& p.retained &&& ~~~ BitVec.ofNat 7 (L.n F.AOS_STAT_FAIL)) }) L

theorem aosDomReq_eq (val : Word) (L : Lane) : aosDomReq val L =
    if bitAt val 7 then wakeEvent 7 (domainsAsked val L) else domainsAsked val L := rfl

theorem wakeEvent_sw_run (hrun : L.pwr.phase = .run) (hstep : L.pwr.dormStep ≠ 0) :
    wakeEvent 7 L = withPwr (fun p => { p with wakePend := p.wakePend ||| 0x80 }) L := by
  rw [wakeEvent, wakeEnabled, if_pos (decide_eq_true hstep), hrun]
  rfl

theorem wakeEvent_sw_unheard (h : L.pwr.dormStep = 0 ∨ L.pwr.phase = .waking) : wakeEvent 7 L = L := by
  rw [wakeEvent]
  rcases h with h | h
  · exact if_neg (by simp [wakeEnabled, h])
  · rw [h]
    exact ite_self _

end

/-- Settles O14: supplies and clocks are effects on the lane; a domain that is asked for comes up and its held accesses go on. -/
theorem suppliesClocksAndDomains : Obligations.SuppliesClocksAndDomains := by
  intro l s sup d why val L m warned C1 C inStartup asked up A
  have hself {c : Instr} {f : Lane → Lane} (hc : exec c s = .next (s.onLane l f)) (hf : f (s.lane l) = s.lane l) :
      exec c s = .next s := by rw [hc, onLane_eq_self hf]
  have hwoken (f : State) (hf : domainWoken l d.val s = f) : exec (.domainWakeOnAccess l d) s = .next f := congrArg _ hf
  refine ⟨fun h => hself rfl (supplyWarn_off h), fun h hr => exec_of_onLane rfl (supplyWarn_inReset h hr),
    fun h => exec_of_onLane rfl (supplyWarn_outOfReset h),
    fun hl hc hin => exec_of_onLane rfl ((clockLost_live why hl hc).trans (if_pos hin)),
    fun hl hc hin => exec_of_onLane rfl ((clockLost_live why hl hc).trans (if_neg hin)),
    fun h => hself rfl (clockLost_ignored why h), fun ha hp => hwoken _ ?_, fun ha hp hd => ?_,
    fun ha => ⟨hwoken _ (domainWoken_unasked ha), hself rfl (domainWakeTimeout_unasked ha)⟩,
    fun c t h => heldGo_none h, fun c t x h => heldGo_some h,
    fun ha => exec_of_onLane rfl (domainWakeTimeout_asked ha),
    fun hl hb => exec_of_whenLive hl rfl ?_, fun hrun hb hstep => ?_, fun hl hb h => exec_of_whenLive hl rfl ?_,
    fun hl => hself rfl (if_neg (Bool.eq_false_iff.mp hl))⟩
  · rw [domainWoken_asked ha, if_neg fun h => hp.elim (· h.2) fun hd => hd (Fin.ext h.1)]
    rfl
  · subst hd
    refine hwoken _ ?_
    rw [domainWoken_asked ha, if_pos ⟨rfl, hp⟩]
    rfl
  · rw [aosDomReq_eq, if_neg (Bool.eq_false_iff.mp hb)]
    rfl
  · have hl : L.live = true := by simp [Lane.live, hrun]
    exact exec_of_whenLive hl rfl ((if_pos hb).trans (wakeEvent_sw_run (L := domainsAsked val L) hrun hstep))
  · exact (if_pos hb).trans (wakeEvent_sw_unheard (L := domainsAsked val L) h)

end Sys2Proof.Machine
end

section
/-! SUPPORT. Proofs of the statements about the storage die and STORAGE descriptors (R367 to R383): bytes and sectors of a sparse map,
the die's own events case by case, and the one unit that ends a short descriptor. -/

namespace Sys2Proof.Machine

/-! Bytes of a partition -/

section
variable {m : List (Nat × Byte)} {a k : Nat}

theorem smGet_putBytes_outside (bs : List Byte) (hs : smSorted m = true) (hk : k < a ∨ a + bs.length ≤ k) :
    smGet (smPutBytes m a bs) k 0 = smGet m k 0 := by
  induction bs generalizing m a with
  | nil => rfl
  | cons b bs ih =>
    rw [List.length_cons] at hk
    rw [smPutBytes, ih (smPut_sorted m a 0 b hs) (by omega), smGet_put m a k 0 0 b hs fun _ => rfl, if_neg (by omega)]

theorem smGet_putBytes_inside {bs : List Byte} (hs : smSorted m = true) {i : Nat} (hi : i < bs.length) :
    smGet (smPutBytes m a bs) (a + i) 0 = bs[i] := by
  induction bs generalizing m a i with
  | nil => exact absurd hi (Nat.not_lt_zero i)
  | cons b bs ih =>
    rw [smPutBytes]
    cases i with
    | zero => rw [smGet_putBytes_outside bs (smPut_sorted m a 0 b hs) (by omega), smGet_put m a _ 0 0 b hs fun _ => rfl]; simp
    | succ i =>
      have hi' : i < bs.length := by simpa using hi
      rw [show a + (i + 1) = a + 1 + i by omega, ih (smPut_sorted m a 0 b hs) hi']
      rfl

end

section
variable {d : StorageDie} {l : LaneId} {p : Nat}

@[simp] theorem stoOf_setStoOf (d : StorageDie) (l : LaneId) (x : StoLane) : stoOf (setStoOf d l x) l = x := by cases l <;> rfl

theorem partBytes_setPart (d : StorageDie) (l : LaneId) (p : Nat) (bs : List (Nat × Byte)) (bad : List Nat) :
    partBytes (setPart d l p bs bad) l p = bs := by
  unfold partBytes setPart
  by_cases hp : partShared p = true
  · simp [hp]
  · simp [hp]

theorem partBytes_trimSecs (sec n : Nat) : partBytes (trimSecs p sec n l d) l p =
    (partBytes d l p).filter (fun c => !decide (byteKey p (4096 * sec) ≤ c.1 ∧ c.1 < byteKey p (4096 * (sec + n)))) :=
  partBytes_setPart ..

theorem partBytes_writeSecs (sec : Nat) (bs : List Byte) : partBytes (writeSecs p sec bs l d) l p =
    smPutBytes (partBytes (trimSecs p sec ((bs.length + 4095) / 4096) l d) l p) (byteKey p (4096 * sec)) bs :=
  partBytes_setPart ..

theorem partBytes_trimSecs_sorted (sec n : Nat) (hs : smSorted (partBytes d l p) = true) :
    smSorted (partBytes (trimSecs p sec n l d) l p) = true := by
  rw [partBytes_trimSecs]
  exact filter_sortedFrom _ _ 0 hs

theorem smGet_trimSecs_inside {sec n k : Nat} (hlo : byteKey p (4096 * sec) ≤ k) (hhi : k < byteKey p (4096 * (sec + n))) :
    smGet (partBytes (trimSecs p sec n l d) l p) k 0 = 0 := by
  have hout := smFind_filter_out (k := k)
    (p := fun x => !decide (byteKey p (4096 * sec) ≤ x ∧ x < byteKey p (4096 * (sec + n)))) (partBytes d l p) (by simp [hlo, hhi])
  rw [partBytes_trimSecs, smGet, hout]
  rfl

theorem smGet_trimSecs_outside {sec n k : Nat} (hs : smSorted (partBytes d l p) = true)
    (hk : k < byteKey p (4096 * sec) ∨ byteKey p (4096 * (sec + n)) ≤ k) :
    smGet (partBytes (trimSecs p sec n l d) l p) k 0 = smGet (partBytes d l p) k 0 := by
  have hin := smFind_filter_in (k := k)
    (p := fun x => !decide (byteKey p (4096 * sec) ≤ x ∧ x < byteKey p (4096 * (sec + n)))) (partBytes d l p) (lo := 0) hs
    (by simp; omega)
  rw [partBytes_trimSecs, smGet, hin, smGet]

theorem byteKey_add (p off i : Nat) : byteKey p (off + i) = byteKey p off + i := by rw [byteKey, byteKey, Nat.add_assoc]

theorem readSecs_writeSecs {g : Nat} {bs : List Byte} (hbs : bs.length = 4096) (hs : smSorted (partBytes d l p) = true) :
    readSecs (writeSecs p g bs l d) l p g 1 = bs := by
  refine List.ext_getElem (by simp [readSecs, hbs]) fun i hi hi' => ?_
  simp only [readSecs, List.getElem_map, List.getElem_range]
  rw [byteKey_add, partBytes_writeSecs]
  exact smGet_putBytes_inside (partBytes_trimSecs_sorted _ _ hs) hi'

/-- A sector written leaves every other sector of its partition as it reads. -/
theorem smGet_writeSecs_other {g q i : Nat} {bs : List Byte} (hbs : bs.length = 4096) (hs : smSorted (partBytes d l p) = true)
    (hi : i < 4096) (hq : q ≠ g) : smGet (partBytes (writeSecs p g bs l d) l p) (byteKey p (4096 * q + i)) 0 =
      smGet (partBytes d l p) (byteKey p (4096 * q + i)) 0 := by
  have hbytes : byteKey p (4096 * q + i) < byteKey p (4096 * g) ∨ byteKey p (4096 * g) + 4096 ≤ byteKey p (4096 * q + i) := by
    unfold byteKey
    omega
  have hsecs : byteKey p (4096 * q + i) < byteKey p (4096 * g) ∨ byteKey p (4096 * (g + 1)) ≤ byteKey p (4096 * q + i) := by
    unfold byteKey
    omega
  rw [partBytes_writeSecs, smGet_putBytes_outside bs (partBytes_trimSecs_sorted _ _ hs) (by rw [hbs]; exact hbytes), hbs,
    smGet_trimSecs_outside hs hsecs]

end

/-! Links -/

section
variable {L : Lane} {d : StorageDie}

theorem Kept.ring {L K : Lane} (h : Kept L K) : K.ring = L.ring := congrArg (·.1) h.part

theorem endLink_idle {role : Nat} {ld : LD} (h : (getEng ld.1 role).run = none) : endLink role ld = ld := by
  rw [endLink, h]

theorem steShow_ring (L : Lane) (d : StorageDie) : (steShow L d).ring = L.ring := by
  unfold steShow
  split
  · simp
  · rfl

theorem steShow_id (L : Lane) (d : StorageDie) : (steShow L d).id = L.id := by
  unfold steShow
  split
  · simp
  · rfl

/-- The lane that sees its storage link go down. -/
def sawLinkDown (L : Lane) (d : StorageDie) : Lane :=
  raise 0x0E0 (steEvent 1 (Lane.inc (showWait ((steShow L d).setB F.STE_STAT_LINK false)) F.STE_ERR_LINK_CNT))

theorem sawLinkDown_ring (L : Lane) (d : StorageDie) : (sawLinkDown L d).ring = L.ring := by
  have hevent (K : Lane) : (steEvent 1 K).ring = K.ring := (reacts_eventBits _ _ _ _ K).toKept.ring
  rw [sawLinkDown, (kept_raise _ _).ring, hevent]
  exact steShow_ring L d

theorem storageLinkDown_up (h : linkUp L d = true) : storageLinkDown (L, d) = endLink 4 (endLink 1
    ({ sawLinkDown L d with evr := { (sawLinkDown L d).evr with waitSeal := none } },
      { d with links := d.links &&& ~~~ laneBit L.id })) := by
  have hid : (showWait ((steShow L d).setB F.STE_STAT_LINK false)).id = L.id := steShow_id L d
  rw [storageLinkDown, if_pos h]
  simp only [steSync, hid]
  rfl

theorem storageLinkDown_off (h : linkUp L d = false) : storageLinkDown (L, d) = (L, d) := if_neg (Bool.eq_false_iff.mp h)

/-- Of the die a lane without running descriptors over the link changes its link at most. -/
theorem storageLinkDown_idle (h1 : (getEng L 1).run = none) (h4 : (getEng L 4).run = none) :
    ∃ m, (storageLinkDown (L, d)).2 = { d with links := m } := by
  cases hup : linkUp L d with
  | false => exact ⟨d.links, by rw [storageLinkDown_off hup]⟩
  | true =>
    have hring : ({ sawLinkDown L d with evr := { (sawLinkDown L d).evr with waitSeal := none } } : Lane).ring = L.ring :=
      sawLinkDown_ring L d
    have hend (role : Nat) (h : (getEng L role).run = none) (e : StorageDie) : endLink role
        ({ sawLinkDown L d with evr := { (sawLinkDown L d).evr with waitSeal := none } }, e) =
          ({ sawLinkDown L d with evr := { (sawLinkDown L d).evr with waitSeal := none } }, e) :=
      endLink_idle (by rw [getEng, hring]; exact h)
    exact ⟨d.links &&& ~~~ laneBit L.id, by rw [storageLinkDown_up hup, hend 1 h1, hend 4 h4]⟩

end

/-- The state with the storage link of lane `l` down. -/
def linkLost (l : LaneId) (s : State) : State := s.onLaneDie l (fun L d => storageLinkDown (L, d))

/-- No descriptor of lane `x` runs over its storage link. -/
def linkUnused (s : State) (x : LaneId) : Prop := (getEng (s.lane x) 1).run = none ∧ (getEng (s.lane x) 4).run = none

theorem linkLost_unused {s : State} (l : LaneId) (h : linkUnused s l) : ∃ m, (linkLost l s).sto = { s.sto with links := m } :=
  storageLinkDown_idle h.1 h.2

theorem linkUnused_linkLost {s : State} {l x : LaneId} (hx : x ≠ l) (h : linkUnused s x) : linkUnused (linkLost l s) x := by
  have hlane : (linkLost l s).lane x = s.lane x := lane_onLaneDie_other s l x _ hx
  rwa [linkUnused, hlane]

/-- A die whose links are unused keeps all but its links when it loses them. -/
theorem linksLost_unused {s : State} (h : ∀ x, linkUnused s x) :
    ∃ m, (linkLost .c (linkLost .b (linkLost .a s))).sto = { s.sto with links := m } := by
  obtain ⟨ma, ha⟩ := linkLost_unused .a (h .a)
  obtain ⟨mb, hb⟩ := linkLost_unused .b (linkUnused_linkLost (l := .a) (by decide) (h .b))
  obtain ⟨mc, hc⟩ := linkLost_unused .c
    (linkUnused_linkLost (l := .b) (by decide) (linkUnused_linkLost (l := .a) (by decide) (h .c)))
  exact ⟨mc, by rw [hc, hb, ha]⟩

/-- The die without supply. -/
def supplyLost (d : StorageDie) : StorageDie := { d with powered := false, mounted := false, links := 0 }

theorem exec_powerLoss (s : State) : exec .storageDiePowerLoss s =
    .next { linkLost .c (linkLost .b (linkLost .a s)) with
      sto := supplyLost (linkLost .c (linkLost .b (linkLost .a s))).sto } := rfl

/-- Sectors keep what they hold (R372). -/
theorem supplyLost_unused {s : State} (h : ∀ x, linkUnused s x) :
    let d := supplyLost (linkLost .c (linkLost .b (linkLost .a s))).sto
    d.shared = s.sto.shared ∧ d.retired = s.sto.retired ∧ ∀ x, (stoOf d x).data = (stoOf s.sto x).data := by
  obtain ⟨m, hm⟩ := linksLost_unused h
  rw [hm]
  exact ⟨rfl, rfl, fun x => by cases x <;> rfl⟩

/-! The die's own events -/

section
variable {s : State} {b : Fin 8192} {g n : Nat}

theorem diePowerOn_off {d : StorageDie} (h : d.powered = false) : diePowerOn d = { d with
    powered := true, mounted := false, links := 0, dieFault := false
    stoA := { d.stoA with staging := [], stagBad := [] }, stoB := { d.stoB with staging := [], stagBad := [] }
    stoC := { d.stoC with staging := [], stagBad := [] } } := if_neg (Bool.eq_false_iff.mp h)

theorem diePowerOn_on {d : StorageDie} (h : d.powered = true) : diePowerOn d = d := if_pos h

theorem exec_steMount {k : Bool} (h : (s.sto.powered || s.sto.mounted) = k) :
    exec .steMount s = .next { s with sto := { s.sto with mounted := k } } := by
  rw [← h]
  rfl

theorem storageLinkUp_mounted {L : Lane} {d : StorageDie} (hm : d.mounted = true) (hup : linkUp L d = false) :
    storageLinkUp (L, d) =
      pump (steSync (showWait (steEvent 0 (L.setB F.STE_STAT_LINK true)), { d with links := d.links ||| laneBit L.id })) :=
  if_pos ⟨hm, Bool.eq_false_iff.mp hup⟩

theorem storageLinkUp_idle {L : Lane} {d : StorageDie} (h : d.mounted = false ∨ linkUp L d = true) :
    storageLinkUp (L, d) = (L, d) := by
  refine if_neg fun hc => ?_
  rcases h with h | h
  · exact Bool.eq_false_iff.mp h hc.1
  · exact hc.2 h

theorem codeword_lost (h : 72 < n) : codeword b.val g n s =
    onLinked s.sto (fun A => raise 0x0E1 (steEvent 4 (A.inc F.STE_ERR_UE_CNT)))
      { s with sto := logEntry 3 b.val n (markBad g s.sto) } := if_pos h

theorem codeword_rewritten (hlo : 40 < n) (hhi : n ≤ 72) : codeword b.val g n s =
    onLinked s.sto (fun A => raise 0x0E2 (steEvent 5 (A.inc F.STE_ERR_RELOC_CNT)))
      { s with sto := logEntry 2 b.val n s.sto } := by
  rw [codeword, if_neg (Nat.not_lt.mpr hhi), if_pos hlo]

theorem codeword_good (h : n ≤ 40) : codeword b.val g n s = s := by
  rw [codeword, if_neg (by omega), if_neg (Nat.not_lt.mpr h)]

theorem exec_relocation (hm : s.sto.mounted = true) (bad : Bool) : exec (.relocation b g n bad) s =
    .next (if bad ∧ 40 < n ∧ n ≤ 72 then retireAll b.val (codeword b.val g n s) else codeword b.val g n s) :=
  congrArg _ (if_pos hm)

theorem exec_of_unmounted (hm : s.sto.mounted = false) :
    (∀ bad, exec (.relocation b g n bad) s = .next s) ∧ exec (.readDisturbRelocate b) s = .next s ∧
      exec (.patrolRead b g n) s = .next s ∧ exec .patrolLate s = .next s := by
  have hno : ¬ s.sto.mounted = true := Bool.eq_false_iff.mp hm
  exact ⟨fun _ => congrArg _ (if_neg hno), congrArg _ (if_neg fun h => hno h.1), congrArg _ (if_neg hno),
    congrArg _ (if_neg fun h => hno h.1)⟩

theorem onLinked_id (d : StorageDie) (s : State) : onLinked d (fun L => L) s = s := by simp [onLinked]

/-- A patrol read within a pass, on schedule, moves the position and counts the read. -/
theorem patrolDie_within {d : StorageDie} (hlate : d.patrolLate = false) (hpos : d.patrolPos ≤ b.val) : patrolDie b.val d =
    { d with patrolPos := b.val, reads := smSet d.reads b.val (smGet d.reads b.val 0 + 1) } := by
  have hpass : decide (b.val < d.patrolPos) = false := decide_eq_false (Nat.not_lt.mpr hpos)
  simp [patrolDie, hpass, hlate]

theorem exec_patrolRead_within (hm : s.sto.mounted = true) (hlate : s.sto.patrolLate = false) (hpos : s.sto.patrolPos ≤ b.val)
    (hn : n ≤ 40) : exec (.patrolRead b g n) s = .next { s with sto :=
      { s.sto with patrolPos := b.val, reads := smSet s.sto.reads b.val (smGet s.sto.reads b.val 0 + 1) } } := by
  have hpass : decide (b.val < s.sto.patrolPos) = false := decide_eq_false (Nat.not_lt.mpr hpos)
  have hexec : exec (.patrolRead b g n) s = execPatrolRead b g n s := rfl
  rw [hexec, execPatrolRead_mounted hm, patrolDie_within hlate hpos, codeword_good hn]
  simp only [hpass, Bool.false_eq_true, if_false, onLinked_id]

end

section
variable {l : LaneId} {s : State} {c : Instr} {f : LD → LD}

theorem onDie_eq_self (h : f (s.lane l, s.sto) = (s.lane l, s.sto)) : onDie l f s = s := by
  have hdie : onDie l f s = s.withLD l (if (s.lane l).live then f (s.lane l, s.sto) else (s.lane l, s.sto)) := rfl
  rw [hdie, h, ite_self, withLD_sto_self, setLane_lane_self]

theorem exec_of_onDie_same (hc : exec c s = .next (onDie l f s)) (h : f (s.lane l, s.sto) = (s.lane l, s.sto)) :
    exec c s = .next s := by rw [hc, onDie_eq_self h]

theorem exec_storageLinkDown : exec (.storageLinkDown l) s = .next (s.withLD l (storageLinkDown (s.lane l, s.sto))) := rfl

end

/-- Settles O49: each event of the die is one case of its function; a sector written reads back by the laws of sparse maps. -/
theorem theStorageDieServesItsLanes : Obligations.TheStorageDieServesItsLanes := by
  intro l s b g n L d ln down seen pos
  refine ⟨fun h => ⟨_, rfl, ?powerOn⟩, fun h => congrArg Host.Outcome.next ?powered,
    fun h => exec_steMount (by rw [show s.sto.powered = true from h, Bool.true_or]),
    fun hp _ => exec_steMount (k := s.sto.mounted) (by rw [show s.sto.powered = false from hp, Bool.false_or]),
    ⟨_, exec_powerLoss s, rfl, rfl, rfl, supplyLost_unused⟩,
    fun hl hm hup => exec_of_onDie hl rfl (storageLinkUp_mounted hm hup),
    fun h => exec_of_onDie_same rfl (storageLinkUp_idle h),
    fun hup => by rw [exec_storageLinkDown, storageLinkDown_up hup]; rfl,
    fun hup => by rw [exec_storageLinkDown, storageLinkDown_off hup, withLD_sto_self, setLane_lane_self],
    fun hm hn => ?lost, fun hm hlo hhi => ?rewritten, fun hn => ?good,
    fun hm hr => congrArg Host.Outcome.next (if_pos ⟨hm, Bool.eq_false_iff.mp hr⟩),
    fun hm hlate hpos hn => exec_patrolRead_within hm hlate hpos hn,
    fun hm hlate hb => congrArg Host.Outcome.next (if_pos ⟨hm, hlate, hb⟩),
    fun hb => congrArg Host.Outcome.next (if_neg fun h => not_lt.mpr hb h.2.2), fun hm => ?unmounted,
    fun p bs hbs hs hg => ⟨readSecs_writeSecs hbs hs, fun i hi q hq _ => smGet_writeSecs_other hbs hs hi hq⟩⟩
  case powerOn =>
    rw [diePowerOn_off h]
    exact ⟨rfl, rfl, rfl, rfl, rfl, rfl, rfl, lane_sto_update s l _⟩
  case powered => rw [diePowerOn_on h]
  case lost => rw [exec_relocation hm, if_neg (by simp), codeword_lost hn]
  case rewritten => rw [exec_relocation hm, if_neg (by simp), codeword_rewritten hlo hhi]
  case good =>
    by_cases hm : s.sto.mounted = true
    · rw [exec_relocation hm, if_neg (by omega), codeword_good hn]
    · exact (exec_of_unmounted (b := b) (g := g) (Bool.eq_false_iff.mpr hm)).1 true
  case unmounted =>
    obtain ⟨hrel, hrest⟩ := exec_of_unmounted hm
    exact ⟨hrel true, hrest⟩

/-! STORAGE descriptors -/

section
variable {op : Nat} {unit : Run → LD → LD} {r : Run} {ld : LD}

/-- A descriptor that its first unit ends is that unit. -/
theorem storageRun_once (hop : runningOp ld.1 1 op = some r) (hover : runOver 1 r (unit r ld)) :
    storageRun op unit ld = unit r ld := by
  simp only [storageRun, hop]
  exact unitLoop_once _ (runningOp_eq_some.mp hop).1 hover

theorem storageRun_none (hop : runningOp ld.1 1 op = none) : storageRun op unit ld = ld := by simp only [storageRun, hop]

theorem unitBlocked_free (hup : linkUp ld.1 ld.2 = true) (hdie : ld.2.dieFault = false) : unitBlocked r ld = none := by
  simp [unitBlocked, hup, hdie]

theorem unitBlocked_lost (hup : linkUp ld.1 ld.2 = false) : unitBlocked r ld = some (finish 1 r errLink stFault 0 ld) := by
  simp [unitBlocked, hup]

theorem unitBlocked_silent (hup : linkUp ld.1 ld.2 = true) (hdie : ld.2.dieFault = true) :
    unitBlocked r ld = some (finish 1 r errEngine stFault 3 (onL (raise 0x0E7) ld)) := by
  simp [unitBlocked, hup, hdie]

/-- What keeps a unit from being moved ends each operation alike. -/
theorem units_blocked {x : LD} (h : unitBlocked r ld = some x) :
    readUnit r ld = x ∧ writeUnit r ld = x ∧ trimUnit r ld = x ∧ verifyUnit r ld = x := by
  simp only [readUnit, writeUnit, trimUnit, verifyUnit, h, and_self]

theorem unitDone_all {total k : Nat} (h : k = total) :
    unitDone { r with progress := k } total ld = finish 1 { r with progress := k } 0 stDone 0 ld := if_pos h

end

/-- The descriptor moves at most one unit, which it has not begun. -/
def OneUnit (r : Run) : Prop := r.progress = 0 ∧ dCount r ≤ 4

section
variable {r : Run} {L : Lane} {d : StorageDie} {bs : List Byte} {i : Nat}

section
variable (hone : OneUnit r) (hfree : unitBlocked r (L, d) = none)
include hone

theorem OneUnit.sectors : min 4 (dCount r) = dCount r := Nat.min_eq_right hone.2

include hfree

theorem readUnit_whole {w : LD} (hclean : firstBad d L.id (dPart r) (dSec r + 0) (dCount r) = none)
    (hw : (iovaWrite 1 r.d.ctx (r.d.dst + 0) (readSecs d L.id (dPart r) (dSec r + 0) (dCount r)) (L, d)).1 = .ok ())
    (hw2 : (iovaWrite 1 r.d.ctx (r.d.dst + 0) (readSecs d L.id (dPart r) (dSec r + 0) (dCount r)) (L, d)).2 = w) :
    readUnit r (L, d) = finish 1 { r with progress := 0 + 4096 * dCount r } 0 stDone 0 w := by
  have hwrite : iovaWrite 1 r.d.ctx (r.d.dst + 0) (readSecs d L.id (dPart r) (dSec r + 0) (dCount r)) (L, d) = (.ok (), w) :=
    Prod.ext hw hw2
  simp only [readUnit, hfree, hone.1, Nat.zero_div, Nat.sub_zero, hone.sectors, hclean, hwrite]
  exact unitDone_all (Nat.zero_add _)

theorem readUnit_unreadable (hbad : firstBad d L.id (dPart r) (dSec r + 0) (dCount r) = some i) :
    readUnit r (L, d) = finish 1 r errEngine stFault 1 (L, d) := by
  simp only [readUnit, hfree, hone.1, Nat.zero_div, Nat.sub_zero, hone.sectors, hbad]

theorem writeUnit_whole (hq : (iovaReadN 1 r.d.ctx (r.d.src + 0) (4096 * dCount r) (L, d)).1 = .ok bs) {q : LD}
    (hq2 : (iovaReadN 1 r.d.ctx (r.d.src + 0) (4096 * dCount r) (L, d)).2 = q) :
    writeUnit r (L, d) = finish 1 { r with progress := 0 + 4096 * dCount r } 0 stDone 0
      (wearStep (q.1, writeSecs (dPart r) (dSec r + 0) bs q.1.id q.2)) := by
  have hread : iovaReadN 1 r.d.ctx (r.d.src + 0) (4096 * dCount r) (L, d) = (.ok bs, q) := Prod.ext hq hq2
  simp only [writeUnit, hfree, hone.1, Nat.zero_div, Nat.sub_zero, hone.sectors, hread]
  exact unitDone_all (Nat.zero_add _)

theorem trimUnit_whole : trimUnit r (L, d) = finish 1 { r with progress := 0 + dCount r } 0 stDone 0
    (L, trimSecs (dPart r) (dSec r + 0) (dCount r) L.id d) := by
  simp only [trimUnit, hfree, hone.1, Nat.sub_zero, hone.sectors]
  exact unitDone_all (Nat.zero_add _)

theorem verifyUnit_whole (hclean : firstBad d L.id (dPart r) (dSec r + 0) (dCount r) = none) :
    verifyUnit r (L, d) = finish 1 { r with progress := 0 + dCount r } 0 stDone 0 (L, d) := by
  simp only [verifyUnit, hfree, hone.1, Nat.sub_zero, hone.sectors, hclean]
  exact unitDone_all (Nat.zero_add _)

theorem verifyUnit_unreadable (hbad : firstBad d L.id (dPart r) (dSec r + 0) (dCount r) = some i) :
    verifyUnit r (L, d) = finish 1 r errEngine stFault 1 (L, d) := by
  simp only [verifyUnit, hfree, hone.1, Nat.sub_zero, hone.sectors, hbad]

end

end

/-- A descriptor that its first unit ends, as a command. -/
theorem exec_of_oneUnit {l : LaneId} {s : State} {c : Instr} {op : Nat} {unit : Run → LD → LD} {r : Run} {x : LD}
    (hc : exec c s = .next (onDie l (storageRun op unit) s)) (hlive : (s.lane l).live = true)
    (hop : runningOp (s.lane l) 1 op = some r) (hunit : unit r (s.lane l, s.sto) = x) (hover : runOver 1 r x) :
    exec c s = .next (s.withLD l x) :=
  exec_of_onDie hlive hc ((storageRun_once hop (by rwa [hunit])).trans hunit)

theorem exec_write_met {l : LaneId} {s : State} (t : NandTrouble) (h : writes (s.lane l) s.sto = true) :
    exec (.write l (some t)) s = exec (.write l none) (meetNand t s) :=
  congrArg (fun x => Host.Outcome.next (onDie l (storageRun 0x02 writeUnit) x)) (if_pos h)

theorem exec_write_unmet {l : LaneId} {s : State} (t : NandTrouble) (h : writes (s.lane l) s.sto = false) :
    exec (.write l (some t)) s = exec (.write l none) s :=
  congrArg (fun x => Host.Outcome.next (onDie l (storageRun 0x02 writeUnit) x)) (if_neg (Bool.eq_false_iff.mp h))

/-- Settles O50: a descriptor of one unit is that unit; what blocks a unit ends each operation alike. -/
theorem storageDescriptorsMoveSectors : Obligations.StorageDescriptorsMoveSectors := by
  intro l s r bs i b L d p n isOver ready clean w q x done bad lost silent
  have hunit (h : ready) : OneUnit r ∧ unitBlocked r (L, d) = none := by
    obtain ⟨_, hprog, _, hn, hup, hdie⟩ := h
    exact ⟨⟨hprog, hn⟩, unitBlocked_free hup hdie⟩
  refine ⟨fun hop h hc hw ho => exec_of_oneUnit rfl h.1 hop (readUnit_whole (hunit h).1 (hunit h).2 hc hw rfl) ho,
    fun hop h hq ho => exec_of_oneUnit rfl h.1 hop (writeUnit_whole (hunit h).1 (hunit h).2 hq rfl) ho,
    fun hop h ho => exec_of_oneUnit rfl h.1 hop (trimUnit_whole (hunit h).1 (hunit h).2) ho,
    fun hop h hc ho => exec_of_oneUnit rfl h.1 hop (verifyUnit_whole (hunit h).1 (hunit h).2 hc) ho,
    fun hop h hb ho => exec_of_oneUnit rfl h.1 hop (verifyUnit_unreadable (hunit h).1 (hunit h).2 hb) ho,
    fun hop h hb ho => exec_of_oneUnit rfl h.1 hop (readUnit_unreadable (hunit h).1 (hunit h).2 hb) ho,
    fun h => exec_write_met _ h, fun h => exec_write_met _ h, fun h t => exec_write_unmet t h,
    fun hl hup hdie ho => ?silent, fun hl hup ho => ?lost,
    fun hop => exec_of_onDie_same rfl (storageRun_none hop), fun hop => exec_of_onDie_same rfl (storageRun_none hop),
    fun hop => exec_of_onDie_same rfl (storageRun_none hop), fun hop => exec_of_onDie_same rfl (storageRun_none hop),
    fun _ k hk => ?trimmed⟩
  case silent =>
    obtain ⟨hread, hwrite, htrim, hverify⟩ := units_blocked (unitBlocked_silent (r := r) (ld := (L, d)) hup hdie)
    exact ⟨fun hop => exec_of_oneUnit rfl hl hop hread ho, fun hop => exec_of_oneUnit rfl hl hop hwrite ho,
      fun hop => exec_of_oneUnit rfl hl hop htrim ho, fun hop => exec_of_oneUnit rfl hl hop hverify ho⟩
  case lost =>
    obtain ⟨hread, hwrite, htrim, hverify⟩ := units_blocked (unitBlocked_lost (r := r) (ld := (L, d)) hup)
    exact ⟨fun hop => exec_of_oneUnit rfl hl hop hread ho, fun hop => exec_of_oneUnit rfl hl hop hwrite ho,
      fun hop => exec_of_oneUnit rfl hl hop htrim ho, fun hop => exec_of_oneUnit rfl hl hop hverify ho⟩
  case trimmed =>
    refine smGet_trimSecs_inside ?_ ?_ <;> unfold byteKey <;> omega

end Sys2Proof.Machine
end

section
/-! SUPPORT. Proof of the statement about the recorder (R384 to R394): each of its operations case by case. -/

namespace Sys2Proof.Machine

/-! EVR descriptors -/

section
variable {r : Run} {L P : Lane} {d : StorageDie} {ld : LD} {bs : List Byte} {k : Nat}

theorem evrWrite_placed {q : LD} (hop : runningOp L 4 0x01 = some r) (hrun : evrRuns L = true)
    (hq : (iovaReadN 4 r.d.ctx r.d.src r.d.length (L, d)).1 = .ok bs)
    (hq2 : (iovaReadN 4 r.d.ctx r.d.src r.d.length (L, d)).2 = q)
    (hp : placeRecord 5 (bytesWords bs (r.d.length / 4)) q.1.ckpt q.1.time (drain q.1) = (true, P)) :
    evrWrite (L, d) = pump (finish 4 { r with progress := r.d.length } 0 stDone 0 (P, q.2)) := by
  have hread : iovaReadN 4 r.d.ctx r.d.src r.d.length (L, d) = (.ok bs, q) := Prod.ext hq hq2
  simp only [evrWrite, hop, hrun, hread, hp, Bool.not_true, Bool.false_eq_true, if_false, if_true]

theorem evrWrite_stopped (hop : runningOp L 4 0x01 = some r) (hrun : evrRuns L = false) : evrWrite (L, d) = (L, d) := by
  simp only [evrWrite, hop, hrun, Bool.not_false, if_true]

theorem evrFreeze_opened (hop : runningOp L 4 0x02 = some r) (hrun : evrRuns L = true) (ht : freezeTrigger 3 L = (P, some k)) :
    evrFreeze (L, d) = pump (finish 4 r 0 stDone (toW k) (P, d)) := by
  simp only [evrFreeze, hop, hrun, ht, Bool.not_true, Bool.false_eq_true, if_false]

theorem evrFreeze_full (hop : runningOp L 4 0x02 = some r) (hrun : evrRuns L = true) (ht : freezeTrigger 3 L = (P, none)) :
    evrFreeze (L, d) = pump (finish 4 r errEngine stFault 0x12 (P, d)) := by
  simp only [evrFreeze, hop, hrun, ht, Bool.not_true, Bool.false_eq_true, if_false]

theorem evrRead_once (hop : runningOp ld.1 4 0x03 = some r) (hover : runOver 4 r (evrReadSeg r ld)) :
    evrRead ld = evrReadSeg r ld := by
  simp only [evrRead, hop]
  exact unitLoop_once _ (runningOp_eq_some.mp hop).1 hover

/-- The number of the first segment that EVR_READ asks for. -/
theorem firstSegment (hprog : r.progress = 0) : (r.d.w4.toNat + r.progress / 65536) % 4294967296 = r.d.w4.toNat := by
  rw [hprog]
  exact Nat.mod_eq_of_lt r.d.w4.isLt

theorem evrReadSeg_none (hup : linkUp L d = true) (hdie : d.dieFault = false) (hprog : r.progress = 0)
    (hplace : smFind (stoOf d L.id).place r.d.w4.toNat = none) (hsegs : (stoOf d L.id).segs = []) :
    evrReadSeg r (L, d) = finish 4 r errEngine stFault 0x11 (L, d) := by
  simp only [evrReadSeg, firstSegment hprog, hup, hdie, hplace, hsegs]
  rfl

theorem evrReadSeg_whole {place : Nat} {w : LD} (hup : linkUp L d = true) (hdie : d.dieFault = false) (hprog : r.progress = 0)
    (hlen : r.d.length = 65536) (hplace : smFind (stoOf d L.id).place r.d.w4.toNat = some place)
    (hgood : firstBad d L.id 2 (16 * place) 16 = none)
    (hw : (iovaWrite 4 r.d.ctx r.d.dst (readSecs d L.id 2 (16 * place) 16) (L, d)).1 = .ok ())
    (hw2 : (iovaWrite 4 r.d.ctx r.d.dst (readSecs d L.id 2 (16 * place) 16) (L, d)).2 = w) :
    evrReadSeg r (L, d) = finish 4 { r with progress := 65536 } 0 stDone 0 w := by
  have hwrite : iovaWrite 4 r.d.ctx r.d.dst (readSecs d L.id 2 (16 * place) 16) (L, d) = (.ok (), w) := Prod.ext hw hw2
  simp only [evrReadSeg, hprog, hup, hdie, hgood, hwrite, hlen, Nat.zero_div, Nat.add_zero, Nat.zero_add,
    Nat.mod_eq_of_lt r.d.w4.isLt, hplace, Bool.not_true, Bool.false_eq_true, if_false, Option.isSome_none, if_true]

theorem evrSeal_forced (hop : runningOp L 4 0x04 = some r) (hrun : evrRuns L = true) (hwait : L.evr.waitSeal = none)
    (hforce : L.evr.force = none) :
    evrSeal (L, d) = pump (withEvr (fun e => { e with force := some 2 }) (drain L), d) := by
  simp only [evrSeal, hop]
  exact if_pos ⟨hrun, hwait, hforce⟩

theorem evrWinlist_written {w : LD} (hop : runningOp L 4 0x05 = some r)
    (hw : (iovaWrite 4 r.d.ctx r.d.dst (winList L) (L, d)).1 = .ok ())
    (hw2 : (iovaWrite 4 r.d.ctx r.d.dst (winList L) (L, d)).2 = w) :
    evrWinlist (L, d) = finish 4 { r with progress := 2048 } 0 stDone 0 w := by
  have hwrite : iovaWrite 4 r.d.ctx r.d.dst (winList L) (L, d) = (.ok (), w) := Prod.ext hw hw2
  simp only [evrWinlist, hop, hwrite]

theorem natBytesLe_length (n k : Nat) : (natBytesLe n k).length = n := by
  induction n generalizing k with
  | zero => rfl
  | succ n ih => simp [natBytesLe, ih]

theorem winRecord_length (w : EvrWin) : (winRecord w).length = 32 := by simp [winRecord, natBytesLe_length]

theorem winList_length (L : Lane) : (winList L).length = 2048 := by
  have hconst (f : Nat → List Byte) (n : Nat) (hf : ∀ k, (f k).length = 32) : ((List.range n).flatMap f).length = 32 * n := by
    simp [List.length_flatMap, hf, Nat.mul_comm]
  refine hconst _ 64 fun k => ?_
  split <;> exact winRecord_length _

theorem evrRelease_outside (hop : runningOp L 4 0x06 = some r) (hhold : inServiceHold L = false) :
    evrRelease (L, d) = finish 4 r 1 stRejected 0 (L, d) := by
  simp only [evrRelease, hop, hhold, Bool.not_false, if_true]

theorem evrRelease_open (hop : runningOp L 4 0x06 = some r) (hhold : inServiceHold L = true)
    (hopen : L.evr.wins.any (fun x => decide (x.win = r.d.w4.toNat ∧ x.state = 1)) = true) :
    evrRelease (L, d) = finish 4 r 2 stRejected 0 (L, d) := by
  simp only [evrRelease, hop, hhold, hopen, Bool.not_true, Bool.false_eq_true, if_false, if_true]

theorem evrRelease_closed (hop : runningOp L 4 0x06 = some r) (hhold : inServiceHold L = true)
    (hopen : L.evr.wins.any (fun x => decide (x.win = r.d.w4.toNat ∧ x.state = 1)) = false) :
    evrRelease (L, d) = pump (finish 4 r 0 stDone 0
      (withEvr (fun e => { e with wins := e.wins.filter (fun x => decide (x.win ≠ r.d.w4.toNat)) }) L, d)) := by
  simp only [evrRelease, hop, hhold, hopen, Bool.not_true, Bool.false_eq_true, if_false, onL]

end

/-! Captures: seals and segments -/

section
variable {L : Lane} {d : StorageDie} {f : LD → LD} {x : LD}

theorem asCapture_waits {role : Nat} {ld : LD} (h : (getEng ld.1 role).run.isSome = true) : asCapture role f ld = ld := if_pos h

theorem asCapture_free {role : Nat} {ld : LD} (h : (getEng ld.1 role).run = none) (hx : f ld = x) :
    asCapture role f ld = engineNext role x := by
  rw [asCapture, h, hx]
  rfl

theorem sealSign_idle {ok : Bool} (h : L.evr.sealDue = none) : sealSign ok (L, d) = (L, d) := by simp only [sealSign, h]

/-- The lane with its random draw counted. -/
def drawn (L : Lane) : Lane := { L with lcs := { L.lcs with draws := L.lcs.draws + 1 } }

/-- The lane with the seal that is due signed and recorded (R387). -/
def sealRecorded (sd : SealDue) (L : Lane) : Lane :=
  recordAt 9 (bytesWords (sealBody sd L ++ Config.sm2Sign (laneNo L.id) L.lcs.draws (sealBody sd L)) 32) (drawn L).ckpt
    (drawn L).time 0 (drawn L)

/-- The lane once its seal is in the segment. -/
def sealDone (sd : SealDue) (L : Lane) : Lane :=
  plicRaise 77 (withEvr (fun e => { e with sealDue := none }) ((writeBytes (segBase (sealRecorded sd L) (sealRecorded sd L).evr.buf + 8)
    (natBytesLe 8 (sealRecorded sd L).time) (sealRecorded sd L)).2.incMod F.EVR_SEALNO_SEALNO))

theorem sealSign_signed {sd : SealDue} (hdue : L.evr.sealDue = some sd) (hbuf : evrBufOk L = true) (hopen : L.evr.isOpen = true)
    (hkey : L.otp.idKey = true) (hend : (sealDone sd L).evr.endSeg = false) :
    sealSign true (L, d) = pump (sealDone sd L, d) := by
  have hfold : sealDone sd L = plicRaise 77 (withEvr (fun e => { e with sealDue := none }) ((writeBytes
    (segBase (sealRecorded sd L) (sealRecorded sd L).evr.buf + 8)
    (natBytesLe 8 (sealRecorded sd L).time) (sealRecorded sd L)).2.incMod F.EVR_SEALNO_SEALNO)) := rfl
  unfold sealRecorded drawn at hfold
  simp only [sealSign, hdue, hbuf, hopen, hkey, Bool.not_true, Bool.false_eq_true, if_false, if_true, Bool.and_self, ← hfold, hend,
    false_and]

theorem segProgram_idle (h : L.evr.closed = []) : segProgram (L, d) = (L, d) := by simp only [segProgram, h]

section
variable {b n place : Nat} {rest : List (Nat × Nat)}

theorem segProgram_silent (hc : L.evr.closed = (b, n) :: rest) (hup : linkUp L d = true) (hspare : 8 ≤ d.spare)
    (hdie : d.dieFault = true) : segProgram (L, d) = (raise 0x0E7 L, d) := by
  simp only [segProgram, hc, hup, hdie, Bool.not_true, Bool.false_eq_true, false_or, if_neg (Nat.not_lt.mpr hspare), if_true, onL]

/-- The lane of `ld` once its oldest closed segment is programmed and nothing waits for a seal. -/
def segmentStored (rest : List (Nat × Nat)) (gone : Option Nat) (ld : LD) : Lane :=
  showWait (Lane.putN (withEvr (fun e => { e with
    closed := rest
    hist := match gone with
      | some g => e.hist.filter (fun p => decide (p.1 ≠ g))
      | none => e.hist }) ld.1) F.EVR_STAT_BUFS rest.length)

theorem segmentStored_closed (gone : Option Nat) (ld : LD) : (segmentStored rest gone ld).evr.closed = rest := rfl

theorem pair_snd (A : Lane) (e : StorageDie) : ((A, e) : LD).2 = e := rfl

theorem segProgram_programs {gone : Option Nat} {bs : List Byte} {R : Lane} (hc : L.evr.closed = (b, n) :: rest)
    (hup : linkUp L d = true) (hspare : 8 ≤ d.spare) (hdie : d.dieFault = false)
    (hplace : ringPlace (stoOf d L.id) L.evr.wins = some (place, gone))
    (hread : readBytes (segBase L b) 65536 L = (some bs, R)) (hwait : R.evr.waitSeal = none) :
    segProgram (L, d) = pump (segmentStored rest gone (wearStep (R, storeSeg n place gone bs L.id d)),
      (wearStep (R, storeSeg n place gone bs L.id d)).2) := by
  have hstored : (segmentStored rest gone (wearStep (R, storeSeg n place gone bs L.id d))).evr.waitSeal = none := hwait
  have hgo : ¬ (!linkUp L d ∨ d.spare < 8) := by simp [hup, hspare]
  have hfault : ¬ d.dieFault = true := by simp [hdie]
  cases gone <;>
    simp only [segmentStored] at hstored <;>
    simp only [segProgram, segmentStored, hc, hplace, hread, if_neg hgo, if_neg hfault, hstored]

end

/-! The tail (R393, R394) -/

theorem evrTail_waits (h : L.b F.EVR_CTL_EN = false ∨ L.b F.EVR_STAT_RUN = true ∨ linkUp L d = false) :
    evrTail (L, d) = (L, d) := by
  refine if_neg ?_
  rintro ⟨hen, hrun, hup⟩
  rcases h with h | h | h
  · exact Bool.eq_false_iff.mp h hen
  · exact hrun h
  · exact Bool.eq_false_iff.mp h hup

/-- The recorder of a lane begins on an empty tail. -/
def tailBegun (x : StoLane) (L : Lane) : Lane :=
  showWait (Lane.putN (((Lane.setB (withEvr (fun e => { e with
    isOpen := false, fill := 0, closed := [], prev := List.replicate 32 0, brk := false, sealDue := none
    groupFirst := x.groupFirst, wins := [], nextTrig := none, force := none, endSeg := false, hist := [] }) L)
      F.EVR_STAT_RUN true).putN F.EVR_SEGNO_SEGNO 0).putN F.EVR_SEALNO_SEALNO x.nextSeal) F.EVR_STAT_BUFS 0)

theorem evrTail_begins {P : Lane} (hen : L.b F.EVR_CTL_EN = true) (hrun : L.b F.EVR_STAT_RUN = false) (hup : linkUp L d = true)
    (hsegs : (stoOf d L.id).segs = []) (hwins : (stoOf d L.id).wins = [])
    (hpower : (appendRecord 8 [(tailBegun (stoOf d L.id) L).evr.power] (tailBegun (stoOf d L.id) L).ckpt
      (tailBegun (stoOf d L.id) L).time (tailBegun (stoOf d L.id) L)).1 = some P) :
    evrTail (L, d) = pump (lateTriggers P, d) := by
  unfold tailBegun at hpower
  have hgo : L.b F.EVR_CTL_EN ∧ ¬ L.b F.EVR_STAT_RUN ∧ linkUp L d := ⟨hen, Bool.eq_false_iff.mp hrun, hup⟩
  rw [evrTail, if_pos hgo]
  simp only [hsegs, hwins, List.getLast?_nil, Option.map_none, Bool.false_eq_true, if_false, Option.getD_some,
    Option.isNone_some, Option.isSome_none, List.map_nil, List.filter_nil, List.append_nil, hpower]

end

/-- Settles O51: each operation of the recorder is one case of its function. -/
theorem theRecorderKeepsRecordsSealsAndWindows : Obligations.TheRecorderKeepsRecordsSealsAndWindows := by
  intro l s r bs P k sd place L d ld run q w free body S1 S2 S3 sealed T1 T2 begun miss isOver hlive
  have hdie {c : Instr} {f : LD → LD} {x : LD} (hc : exec c s = .next (onDie l f s)) (hf : f (L, d) = x) :
      exec c s = .next (s.withLD l x) := exec_of_onDie hlive hc hf
  refine ⟨fun hop hrun hq hp => hdie rfl (evrWrite_placed hop hrun hq rfl hp),
    fun hop hrun => exec_of_onDie_same rfl (evrWrite_stopped hop hrun),
    fun hop hrun ht => hdie rfl (evrFreeze_opened hop hrun ht), fun hop hrun ht => hdie rfl (evrFreeze_full hop hrun ht),
    fun hop hup hf hprog hplace hsegs ho => ?missing, fun hop hup hf hprog hlen hplace hgood hw ho => ?present,
    fun hop hrun hwait hforce => hdie rfl (evrSeal_forced hop hrun hwait hforce),
    fun hop hw => hdie rfl (evrWinlist_written hop hw rfl), winList_length L,
    fun hop hh => hdie rfl (evrRelease_outside hop hh), fun hop hh ho => hdie rfl (evrRelease_open hop hh ho),
    fun hop hh ho => hdie rfl (evrRelease_closed hop hh ho),
    fun he => exec_of_onDie_same rfl (asCapture_waits he), fun he => exec_of_onDie_same rfl (asCapture_waits he),
    fun he hs => hdie rfl (asCapture_free he (sealSign_idle hs)),
    fun he hs hb ho hk hend => ?signed,
    fun he hc => hdie rfl (asCapture_free he (segProgram_idle hc)),
    fun b n rest he hc hup hsp hf => hdie rfl (asCapture_free he (segProgram_silent hc hup hsp hf)),
    fun b n rest gone R he hc hup hsp hf hpl hr hw =>
      ⟨_, hdie rfl (asCapture_free he (segProgram_programs hc hup hsp hf hpl hr hw)), segmentStored_closed .., pair_snd ..⟩,
    fun h => exec_of_onDie_same rfl (evrTail_waits h),
    fun hen hrun hup hsegs hwins hp => hdie rfl (evrTail_begins hen hrun hup hsegs hwins hp)⟩
  case signed =>
    have hsealed : sealed = sealDone sd L := rfl
    rw [hsealed] at hend ⊢
    exact hdie rfl (asCapture_free he (sealSign_signed hs hb ho hk hend))
  case missing =>
    have hseg := evrReadSeg_none hup hf hprog hplace hsegs
    exact hdie rfl ((evrRead_once hop (by rwa [hseg])).trans hseg)
  case present =>
    have hseg := evrReadSeg_whole hup hf hprog hlen hplace hgood hw rfl
    exact hdie rfl ((evrRead_once hop (by rwa [hseg])).trans hseg)

end Sys2Proof.Machine
end

section
/-! SUPPORT. Proof of the statement about Dormant (R408 to R413): the fields that a chain of register writes leaves alone, the steps
of the entry, wake events and rejoin. -/

namespace Sys2Proof.Machine

/-! Chains of register writes -/

/-- The fields whose homes `K` may hold other values at than `L`. -/
def Sets (fs : List Fld) (L K : Lane) : Prop := smSorted L.regs = true →
  smSorted K.regs = true ∧ ∀ g : Fld, g.key ∉ fs.map Fld.key → K.fld g = L.fld g

section
variable {fs : List Fld} {L K M : Lane}

theorem sets_refl (L : Lane) : Sets [] L L := fun hs => ⟨hs, fun _ _ => rfl⟩

theorem sets_of_regs (h : K.regs = L.regs) : Sets [] L K := fun hs => ⟨h ▸ hs, fun g _ => fld_of_regs h g⟩

theorem Sets.put (h : Sets fs L K) (f : Fld) (v : Word) : Sets (f :: fs) L (K.put f v) := by
  intro hs
  obtain ⟨hk, hg⟩ := h hs
  refine ⟨put_sorted K f v hk, fun g hne => ?_⟩
  rw [List.map_cons, List.mem_cons, not_or] at hne
  rw [fld_put_other v hk hne.1, hg g hne.2]

theorem Sets.putN (h : Sets fs L K) (f : Fld) (n : Nat) : Sets (f :: fs) L (K.putN f n) := h.put f _

theorem Sets.setB (h : Sets fs L K) (f : Fld) (v : Bool) : Sets (f :: fs) L (K.setB f v) := h.put f _

theorem Sets.setBit (h : Sets fs L K) (f : Fld) (i : Nat) (v : Bool) : Sets (f :: fs) L (K.setBit f i v) := h.put f _

theorem Sets.regs (h : Sets fs L K) (hr : M.regs = K.regs) : Sets fs L M := fun hs =>
  ⟨hr ▸ (h hs).1, fun g hg => (fld_of_regs hr g).trans ((h hs).2 g hg)⟩

theorem Sets.trans {gs : List Fld} (h : Sets fs L K) (k : Sets gs K M) : Sets (gs ++ fs) L M := by
  intro hs
  refine ⟨(k (h hs).1).1, fun g hg => ?_⟩
  rw [List.map_append, List.mem_append, not_or] at hg
  exact ((k (h hs).1).2 g hg.1).trans ((h hs).2 g hg.2)

theorem Sets.sorted (h : Sets fs L K) (hs : smSorted L.regs = true) : smSorted K.regs = true := (h hs).1

theorem Sets.fld (h : Sets fs L K) (hs : smSorted L.regs = true) {g : Fld} (hg : g.key ∉ fs.map Fld.key) : K.fld g = L.fld g :=
  (h hs).2 g hg

theorem Sets.n (h : Sets fs L K) (hs : smSorted L.regs = true) {g : Fld} (hg : g.key ∉ fs.map Fld.key) : K.n g = L.n g := by
  rw [Lane.n, h.fld hs hg]
  rfl

theorem Sets.b (h : Sets fs L K) (hs : smSorted L.regs = true) {g : Fld} (hg : g.key ∉ fs.map Fld.key) : K.b g = L.b g := by
  rw [Lane.b, h.fld hs hg]
  rfl

end

/-! The steps of the entry -/

section
variable {L : Lane} {d : StorageDie}

/-- What is dropped at the end of step A: the request in hand and the wait for a seal. -/
def requestCleared (L : Lane) : Lane :=
  { (withTls (fun t => { t with reqWord := none, reqStage := 0, reqAge := 0, reqEnd := none }) L) with
    evr := { L.evr with waitSeal := none } }

/-- The lane and the die at AP1, after what still ran has ended. -/
def atAp1 (ld : LD) : LD :=
  onL (dormPoint 1 2) (endRecv ([0, 1, 2, 3, 4, 5, 6, 7, 8].foldl (fun a r => endRun r a) (onL requestCleared ld)))

theorem dormantA_one (h : L.pwr.dormStep = 1) : dormantA (L, d) =
    if (atAp1 (L, d)).1.pwr.dormStep = 2 then evrDormant (atAp1 (L, d)) else enginesNext (atAp1 (L, d)) := by
  rw [dormantA, if_pos h]
  unfold atAp1 requestCleared
  rfl

theorem dormantA_other (h : L.pwr.dormStep ≠ 1) : dormantA (L, d) = (L, d) := if_neg h

theorem dormantB_done (h : L.pwr.dormStep = 2) (hdone : evrDormantDone (L, d) = true) :
    dormantB (L, d) = (withPwr (fun p => { p with dormStep := 3 }) L, d) := if_pos ⟨h, hdone⟩

theorem dormantB_waits (h : evrDormantDone (L, d) = false ∨ L.pwr.dormStep ≠ 2) : dormantB (L, d) = (L, d) := by
  refine if_neg ?_
  rintro ⟨hstep, hdone⟩
  exact h.elim (fun hno => Bool.eq_false_iff.mp hno hdone) fun hno => hno hstep

/-- An abort point without a wake event is passed. -/
theorem dormPoint_passed {ap next : Nat} (h : L.pwr.wakePend = 0) : dormPoint ap next L =
    { ((L.putN F.AOS_DORM_PASSED ap).setB F.AOS_DORM_ENTRY true) with
      pwr := { L.pwr with dormStep := next }, ring := { L.ring with noFetch := true } } :=
  if_neg (not_not.mpr h)

/-! Step D -/

/-- The lane of step D with its upper domains in retention. -/
def upperOff (L : Lane) : Lane :=
  withPwr (fun p => { p with retained := p.retained ||| upperOn L, waking := p.waking &&& ~~~ upperOn L })
    (L.putN F.AOS_STAT_ON (L.n F.AOS_STAT_ON % 2))

/-- The lane of step D with its converters and its clocks stopped too. -/
def upperRetained (L : Lane) : Lane := clocksStop (adcsStop (upperOff L))

/-- The lane with AP4 passed. -/
def ap4Passed (L : Lane) : Lane :=
  { ((upperRetained L).putN F.AOS_DORM_PASSED 4).setB F.AOS_DORM_ENTRY true with
    pwr := { (upperRetained L).pwr with dormStep := 5 }, ring := { (upperRetained L).ring with noFetch := true } }

theorem dormantD_other (h : L.pwr.dormStep ≠ 4) : dormantD L = L := if_neg h

theorem dormantD_passed (h : L.pwr.dormStep = 4) (hwake : L.pwr.wakePend = 0) : dormantD L = ap4Passed L := by
  have hpoint : dormPoint 4 5 (upperRetained L) = ap4Passed L := dormPoint_passed hwake
  have hgo : dormantD L = if (dormPoint 4 5 (upperRetained L)).pwr.dormStep = 0 then toRejoin (dormPoint 4 5 (upperRetained L))
      else dormPoint 4 5 (upperRetained L) := by
    rw [dormantD, if_pos h]
    rfl
  rw [hgo, hpoint]
  exact if_neg (Nat.succ_ne_zero 4)

theorem adcsStop_regs (L : Lane) : (adcsStop L).regs = ((L.putN F.ADC_STAT_BUSY 0).setB F.CHP_STAT_GATE false).regs := rfl

theorem sets_adcsStop (L : Lane) : Sets [F.CHP_STAT_GATE, F.ADC_STAT_BUSY] L (adcsStop L) :=
  (((sets_refl L).putN F.ADC_STAT_BUSY 0).setB F.CHP_STAT_GATE false).regs rfl

theorem sets_clocksStop (L : Lane) :
    Sets [F.CLK_STAT_ON_PLL, F.CLK_STAT_PLL_LOCK, F.CLK_STAT_XTAL_OK] L (clocksStop L) :=
  ((((sets_refl L).setB F.CLK_STAT_XTAL_OK false).setB F.CLK_STAT_PLL_LOCK false).setB F.CLK_STAT_ON_PLL false).regs rfl

theorem sets_ap4 (L : Lane) : Sets [F.AOS_DORM_ENTRY, F.AOS_DORM_PASSED] (upperRetained L) (ap4Passed L) :=
  (((sets_refl _).putN F.AOS_DORM_PASSED 4).setB F.AOS_DORM_ENTRY true).regs rfl

theorem sets_upperOff (L : Lane) : Sets [F.AOS_STAT_ON] L (upperOff L) :=
  ((sets_refl L).putN F.AOS_STAT_ON (L.n F.AOS_STAT_ON % 2)).regs rfl

theorem adcsStop_beside (L : Lane) : (adcsStop L).pwr = L.pwr ∧ (adcsStop L).mem = L.mem := ⟨rfl, rfl⟩

theorem clocksStop_beside (L : Lane) : (clocksStop L).pwr.retained = L.pwr.retained ∧ (clocksStop L).mem = L.mem := ⟨rfl, rfl⟩

theorem ap4Passed_mem (L : Lane) : (ap4Passed L).mem = L.mem :=
  calc (ap4Passed L).mem = (upperRetained L).mem := rfl
    _ = (adcsStop (upperOff L)).mem := (clocksStop_beside _).2
    _ = (upperOff L).mem := (adcsStop_beside _).2
    _ = L.mem := rfl

theorem ap4Passed_retained (L : Lane) :
    (ap4Passed L).pwr.retained = L.pwr.retained ||| (BitVec.ofNat 7 (L.n F.AOS_STAT_ON) &&& 0x7E) :=
  calc (ap4Passed L).pwr.retained = (upperRetained L).pwr.retained := rfl
    _ = (adcsStop (upperOff L)).pwr.retained := (clocksStop_beside _).1
    _ = (upperOff L).pwr.retained := by rw [(adcsStop_beside _).1]
    _ = L.pwr.retained ||| (BitVec.ofNat 7 (L.n F.AOS_STAT_ON) &&& 0x7E) := rfl

section
variable (hs : smSorted L.regs = true)
include hs

theorem upperOff_on : (upperOff L).n F.AOS_STAT_ON = L.n F.AOS_STAT_ON % 2 :=
  n_putN_same (L := L) hs ((Nat.mod_lt _ Nat.two_pos).trans (by decide)) (by decide)

theorem ap4Passed_on : (ap4Passed L).n F.AOS_STAT_ON = L.n F.AOS_STAT_ON % 2 := by
  have hoff := (sets_upperOff L).sorted hs
  have hafter := ((sets_adcsStop (upperOff L)).trans (sets_clocksStop (adcsStop (upperOff L)))).trans (sets_ap4 L)
  rw [hafter.n hoff (by decide), upperOff_on hs]

theorem ap4Passed_gate : (ap4Passed L).b F.CHP_STAT_GATE = false := by
  have hbusy : smSorted ((upperOff L).putN F.ADC_STAT_BUSY 0).regs = true := putN_sorted _ _ ((sets_upperOff L).sorted hs)
  have hstop := (sets_adcsStop (upperOff L)).sorted ((sets_upperOff L).sorted hs)
  have hgate : (adcsStop (upperOff L)).b F.CHP_STAT_GATE = false :=
    (b_of_regs (adcsStop_regs _) _).trans (b_setB_same false hbusy rfl)
  rw [((sets_clocksStop (adcsStop (upperOff L))).trans (sets_ap4 L)).b hstop (by decide), hgate]

theorem ap4Passed_passed : (ap4Passed L).n F.AOS_DORM_PASSED = 4 := by
  have hup : smSorted (upperRetained L).regs = true :=
    ((sets_upperOff L).trans ((sets_adcsStop _).trans (sets_clocksStop _))).sorted hs
  have hentry := ((sets_refl ((upperRetained L).putN F.AOS_DORM_PASSED 4)).setB F.AOS_DORM_ENTRY true).regs (M := ap4Passed L) rfl
  rw [hentry.n (putN_sorted _ _ hup) (by decide)]
  exact n_putN_same hup (by decide) (by decide)

end

theorem afterFetch_held {was : Bool} {ld : LD} (h : ld.1.ring.noFetch = true) : afterFetch was ld = ld :=
  if_neg (by simp [h])

theorem afterFetch_open {ld : LD} : afterFetch false ld = ld := if_neg (by simp)

/-- Rings that may not fetch before step D fetch nothing after it. -/
theorem dormantD_holds (h : L.pwr.dormStep = 4) (hwake : L.pwr.wakePend = 0) :
    afterFetch L.ring.noFetch (onL dormantD (L, d)) = (ap4Passed L, d) := by
  rw [onL, dormantD_passed h hwake]
  exact afterFetch_held (ld := (ap4Passed L, d)) rfl

/-! Step E -/

/-- The lane in Dormant: domain 0 in retention, the members kept for the rejoin (R408, R412). -/
def inDormant (L : Lane) : Lane :=
  withClv (fun c => if inSet c.members L.id then { c with rejoin := some c.members } else c)
    (withPwr (fun p => { p with phase := .dormant, dormStep := 0, retained := p.retained ||| 1 })
      ((L.setBit F.AOS_STAT_ON 0 false).setB F.AOS_DORM_ENTRY false))

theorem dormantE_enters (h : L.pwr.dormStep = 5) (hwake : L.pwr.wakePend = 0) : dormantE L = inDormant L := by
  rw [dormantE, if_pos h]
  exact if_neg (not_not.mpr hwake)

theorem dormantE_other (h : L.pwr.dormStep ≠ 5) : dormantE L = L := if_neg h

theorem inDormant_off (hs : smSorted L.regs = true) : (inDormant L).bit F.AOS_STAT_ON 0 = false := by
  have hentry := ((sets_refl (L.setBit F.AOS_STAT_ON 0 false)).setB F.AOS_DORM_ENTRY false).regs (M := inDormant L) rfl
  rw [Lane.bit, hentry.fld (setBit_sorted _ _ _ hs) (by decide)]
  exact bit_setBit_false hs (by decide) (by decide)

theorem inDormant_rejoin (h : inSet L.clv.members L.id = true) : (inDormant L).clv.rejoin = some L.clv.members := by
  show (if inSet L.clv.members L.id then { L.clv with rejoin := some L.clv.members } else L.clv).rejoin = _
  rw [if_pos h]

/-! Wake events (R410, R411, R413) -/

/-- The lane with wake source `k` noted. -/
def wakeNoted (k : Nat) (L : Lane) : Lane := withPwr (fun p => { p with wakePend := p.wakePend ||| BitVec.ofNat 8 (2 ^ k) }) L

theorem wake_time {K : Lane} (hs : smSorted K.regs = true) : (wake K).fld F.AOS_WAKE_TIME_TIME = K.fld F.AOS_TMR_TMR := by
  have hput : (wake K).fld F.AOS_WAKE_TIME_TIME = (K.put F.AOS_WAKE_TIME_TIME (K.fld F.AOS_TMR_TMR)).fld F.AOS_WAKE_TIME_TIME :=
    fld_of_regs rfl _
  have hw : F.AOS_WAKE_TIME_TIME.w = 32 := rfl
  rw [hput, fld_put K _ _ _ hs fun _ => rfl, if_pos rfl, toW, hw, Nat.mod_eq_of_lt (BitVec.isLt _), BitVec.ofNat_toNat,
    BitVec.setWidth_eq]

/-! Rejoin (R411, R412) -/

/-- The lane of the rejoin with its timeline running, and then unlocked at cycle 0. -/
def tlsRunning (L : Lane) : Lane :=
  (withPwr (fun p => { p with phase := .run, waking := p.waking ||| (p.retained &&& 0x0E) }) L).setB F.TLS_STAT_RUN true
def tlsUnlocked (L : Lane) : Lane :=
  ((((tlsRunning L).setB F.TLS_STAT_LOCKED false).setB F.TLS_STAT_HOLDOVER false).putN F.TLS_STAT_CYCLE 0)

/-- The lane of the rejoin with its timeline at the start of its bank. -/
def tlsRestarted (L : Lane) : Lane := ((tlsUnlocked L).setB F.TLS_OFFSET_SEG false).putN F.TLS_OFFSET_OFFSET 0

/-- Formation begins again: what Clove heard and chose before is forgotten (R412). -/
def formAgain (old : Option (BitVec 3)) (L : Lane) : Lane :=
  withClv (fun c => { c with
    rejoin := old, pick := 7, pickRun := 0, formOver := false, formAge := 0, sentForm := none, rxF0 := none, rxF1 := none
    heard := 0, heardVote := 0, quiet0 := 0, quiet1 := 0, train0 := 0, train1 := 0, dig0 := [], dig1 := []
    digDiff0 := false, digDiff1 := false, gaveUp0 := false, gaveUp1 := false }) (setTlPos 0 L)

/-- The lane of the rejoin before its network starts. -/
def formBegun (L : Lane) : Lane :=
  if inSet L.clv.members L.id then setMembers 0 (formAgain (some L.clv.members) (tlsRestarted L))
  else formAgain L.clv.rejoin (tlsRestarted L)

theorem rejoin_runs (hp : L.pwr.phase = .waking) (hon : L.bit F.AOS_STAT_ON 0 = true) (hpll : L.pwr.pll = some true) :
    rejoin L = nteStart (formBegun L) := by
  rw [rejoin, if_pos ⟨hp, hon, hpll⟩, formBegun]
  split <;> rfl

theorem rejoin_stays (h : L.pwr.phase = .run ∨ L.pwr.pll ≠ some true) : rejoin L = L := by
  refine if_neg ?_
  rintro ⟨hp, -, hpll⟩
  exact h.elim (fun hr => nomatch hp.symm.trans hr) fun hno => hno hpll

theorem sets_tlsRunning (L : Lane) : Sets [F.TLS_STAT_RUN] L (tlsRunning L) := (sets_of_regs rfl).setB F.TLS_STAT_RUN true

theorem sets_unlocking (K : Lane) : Sets [F.TLS_STAT_CYCLE, F.TLS_STAT_HOLDOVER, F.TLS_STAT_LOCKED] K
    (((K.setB F.TLS_STAT_LOCKED false).setB F.TLS_STAT_HOLDOVER false).putN F.TLS_STAT_CYCLE 0) :=
  (((sets_refl K).setB F.TLS_STAT_LOCKED false).setB F.TLS_STAT_HOLDOVER false).putN F.TLS_STAT_CYCLE 0

theorem sets_tlsUnlocked (L : Lane) :
    Sets ([F.TLS_STAT_CYCLE, F.TLS_STAT_HOLDOVER, F.TLS_STAT_LOCKED] ++ [F.TLS_STAT_RUN]) L (tlsUnlocked L) :=
  (sets_tlsRunning L).trans (sets_unlocking (tlsRunning L))

theorem sets_tlsRestarted (L : Lane) : Sets [F.TLS_OFFSET_OFFSET, F.TLS_OFFSET_SEG] (tlsUnlocked L) (tlsRestarted L) :=
  ((sets_refl _).setB F.TLS_OFFSET_SEG false).putN F.TLS_OFFSET_OFFSET 0

theorem sets_setMembers (m : BitVec 3) (L : Lane) : Sets [F.TLS_MS_STAT_LANESET, F.CLV_STAT_LANESET] L (setMembers m L) :=
  ((sets_of_regs rfl).putN F.CLV_STAT_LANESET (laneSetCode m)).putN F.TLS_MS_STAT_LANESET (laneSetCode m)

theorem sets_formAgain (old : Option (BitVec 3)) (L : Lane) : Sets [] L (formAgain old L) := sets_of_regs rfl

theorem Sets.mono {fs gs : List Fld} {K : Lane} (h : Sets fs L K) (hsub : fs ⊆ gs) : Sets gs L K := fun hs =>
  ⟨(h hs).1, fun g hg => (h hs).2 g fun hm => hg (List.map_subset _ hsub hm)⟩

theorem sets_formBegun (L : Lane) :
    Sets [F.TLS_MS_STAT_LANESET, F.CLV_STAT_LANESET, F.TLS_OFFSET_OFFSET, F.TLS_OFFSET_SEG] (tlsUnlocked L) (formBegun L) := by
  have hform (old) := (sets_tlsRestarted L).trans (sets_formAgain old (tlsRestarted L))
  rw [formBegun]
  split
  · exact (hform _).trans (sets_setMembers 0 _)
  · exact (hform _).mono (List.subset_append_right [F.TLS_MS_STAT_LANESET, F.CLV_STAT_LANESET] _)

/-- The network starts with a lane that is not CLOCK_DEGRADED (R335, R348). -/
theorem nteStart_listens {K : Lane} (h : K.b F.CLK_STAT_DEGRADED = false) : nteStart K =
    csListen ((withNte (fun n => { n with late := false, held := false }) K).setBit F.AOS_STAT_ON 6 true) := if_neg (by rw [h]; decide)

theorem csListen_regs (K : Lane) :
    (csListen K).regs = ((K.putN F.NTE_TIME_STAT_CS_STATE 1).putN F.NTE_TIME_STAT_HEARD_RANK 0xFFFF).regs := rfl

theorem sets_csListen (K : Lane) : Sets [F.NTE_TIME_STAT_HEARD_RANK, F.NTE_TIME_STAT_CS_STATE] K (csListen K) :=
  (((sets_refl K).putN F.NTE_TIME_STAT_CS_STATE 1).putN F.NTE_TIME_STAT_HEARD_RANK 0xFFFF).regs (csListen_regs K)

theorem csListen_state {K : Lane} (hs : smSorted K.regs = true) : csState (csListen K) = 1 := by
  have hrank := ((sets_refl (K.putN F.NTE_TIME_STAT_CS_STATE 1)).putN F.NTE_TIME_STAT_HEARD_RANK 0xFFFF).regs (csListen_regs K)
  rw [csState, hrank.n (putN_sorted _ _ hs) (by decide)]
  exact n_putN_same hs (by decide) (by decide)

/-- The lane of the rejoin with its network listening. -/
def rejoined (L : Lane) : Lane :=
  csListen ((withNte (fun n => { n with late := false, held := false }) (formBegun L)).setBit F.AOS_STAT_ON 6 true)

theorem rejoined_parts (K : Lane) :
    (csListen (K.setBit F.AOS_STAT_ON 6 true)).pwr = K.pwr ∧ (csListen (K.setBit F.AOS_STAT_ON 6 true)).clv = K.clv ∧
      (csListen (K.setBit F.AOS_STAT_ON 6 true)).mem = K.mem := ⟨rfl, rfl, rfl⟩

theorem formBegun_pwr (L : Lane) : (formBegun L).pwr =
    { L.pwr with phase := .run, waking := L.pwr.waking ||| (L.pwr.retained &&& 0x0E) } := by
  rw [formBegun]
  split <;> rfl

theorem formBegun_mem (L : Lane) : (formBegun L).mem = L.mem := by
  rw [formBegun]
  split <;> rfl

theorem formBegun_formOver (L : Lane) : (formBegun L).clv.formOver = false := by
  rw [formBegun]
  split <;> rfl

theorem formBegun_member (h : inSet L.clv.members L.id = true) :
    (formBegun L).clv.members = 0 ∧ (formBegun L).clv.rejoin = some L.clv.members := by
  rw [formBegun, if_pos h]
  exact ⟨rfl, rfl⟩

theorem sets_listening (K : Lane) : Sets ([F.NTE_TIME_STAT_HEARD_RANK, F.NTE_TIME_STAT_CS_STATE] ++ [F.AOS_STAT_ON]) K
    (csListen ((withNte (fun n => { n with late := false, held := false }) K).setBit F.AOS_STAT_ON 6 true)) :=
  ((sets_of_regs rfl).setBit F.AOS_STAT_ON 6 true).trans (sets_csListen _)

theorem sets_rejoined (L : Lane) : Sets (([F.NTE_TIME_STAT_HEARD_RANK, F.NTE_TIME_STAT_CS_STATE] ++ [F.AOS_STAT_ON]) ++
    [F.TLS_MS_STAT_LANESET, F.CLV_STAT_LANESET, F.TLS_OFFSET_OFFSET, F.TLS_OFFSET_SEG]) (tlsUnlocked L) (rejoined L) :=
  (sets_formBegun L).trans (sets_listening (formBegun L))

section
variable (hs : smSorted L.regs = true)
include hs

theorem formBegun_sorted : smSorted (formBegun L).regs = true := (sets_formBegun L).sorted ((sets_tlsUnlocked L).sorted hs)

theorem formBegun_degraded : (formBegun L).b F.CLK_STAT_DEGRADED = L.b F.CLK_STAT_DEGRADED :=
  ((sets_tlsUnlocked L).trans (sets_formBegun L)).b hs (by decide)

theorem rejoined_csState : csState (rejoined L) = 1 := csListen_state (setBit_sorted _ _ _ (formBegun_sorted hs))

theorem rejoined_cycle : (rejoined L).n F.TLS_STAT_CYCLE = 0 := by
  rw [(sets_rejoined L).n ((sets_tlsUnlocked L).sorted hs) (by decide)]
  refine n_putN_same ?_ (by decide) (by decide)
  exact setB_sorted _ _ (setB_sorted _ _ (setB_sorted _ _ hs))

theorem tlsRunning_sorted : smSorted (tlsRunning L).regs = true := (sets_tlsRunning L).sorted hs

theorem rejoined_run : (rejoined L).b F.TLS_STAT_RUN = true := by
  rw [((sets_unlocking (tlsRunning L)).trans (sets_rejoined L)).b (tlsRunning_sorted hs) (by decide)]
  exact b_setB_same true hs rfl

theorem rejoined_locked : (rejoined L).b F.TLS_STAT_LOCKED = false := by
  have hlater (K : Lane) : Sets [F.TLS_STAT_CYCLE, F.TLS_STAT_HOLDOVER] K
      ((K.setB F.TLS_STAT_HOLDOVER false).putN F.TLS_STAT_CYCLE 0) :=
    ((sets_refl K).setB F.TLS_STAT_HOLDOVER false).putN F.TLS_STAT_CYCLE 0
  rw [((hlater _).trans (sets_rejoined L)).b (setB_sorted _ _ (tlsRunning_sorted hs)) (by decide)]
  exact b_setB_same false (tlsRunning_sorted hs) rfl

end

theorem rejoin_listens (hp : L.pwr.phase = .waking) (hon : L.bit F.AOS_STAT_ON 0 = true) (hpll : L.pwr.pll = some true)
    (hs : smSorted L.regs = true) (hclk : L.b F.CLK_STAT_DEGRADED = false) : rejoin L = rejoined L := by
  rw [rejoin_runs hp hon hpll, nteStart_listens ((formBegun_degraded hs).trans hclk)]
  rfl

/-- The links go idle within 10 us of an abandonment at AP2 (R410). -/
theorem linkIdle_follows {t0 : Nat} (h : L.pwr.ap2Abandon = some t0) (ht : L.time ≤ t0 + 10000) :
    linkIdle (L, d) = onL toRejoin (stopAll (L, d)) := by
  simp only [linkIdle, h, if_pos ht]

theorem linkIdle_none (h : L.pwr.ap2Abandon = none) : linkIdle (L, d) = (L, d) := by
  simp only [linkIdle, h]

end

theorem onlyLane_withLane {l : LaneId} (s : State) (K : Lane) : onlyLane l s (s.setLane l K) := onlyLane_onLane l s fun _ => K

/-- Settles O52: each step of the entry, of a wake event and of the rejoin as its own lemma, the fields of the lane that results read
through the list of those its register writes name. -/
theorem dormantIsEnteredAndLeft : Obligations.DormantIsEnteredAndLeft := by
  unfold Obligations.DormantIsEnteredAndLeft
  intro l s k t0 L noted clear A
  have hA : A = atAp1 (L, s.sto) := rfl
  clear_value A
  subst hA
  refine ⟨fun hlive hstep hgo => exec_of_onDie hlive rfl ((dormantA_one hstep).trans (if_pos hgo)),
    fun hlive hstep hno => exec_of_onDie hlive rfl ((dormantA_one hstep).trans (if_neg hno)),
    fun hstep => exec_of_onDie_same rfl (dormantA_other hstep),
    fun hlive hstep hdone => (exec_of_onDie hlive rfl (dormantB_done hstep hdone)).trans (by rw [withLD_same_die]),
    fun h => exec_of_onDie_same rfl (dormantB_waits h), fun hlive hstep hwake hs _ => ?_,
    fun hstep hopen => exec_of_onDie_same rfl ?_, fun hlive hstep hwake hs => ?_, fun hstep => ?_,
    fun hen hp => exec_of_onLane rfl (wakeEvent_run hen hp), fun hen hp hs => ?_,
    fun hen => ?_, fun hp hon hpll hs hclk => ?_, fun h => ?_,
    fun hlive hab ht => exec_of_onDie hlive rfl (linkIdle_follows hab ht), fun hab => exec_of_onDie_same rfl (linkIdle_none hab)⟩
  case refine_1 => -- step D
    have hd := dormantD_holds (d := s.sto) hstep hwake
    refine ⟨s.setLane l (ap4Passed L), (exec_of_onDie hlive rfl hd).trans (by rw [withLD_same_die]), onlyLane_withLane s _, ?_⟩
    rw [lane_setLane_same]
    exact ⟨rfl, ap4Passed_on hs, ap4Passed_retained _, ap4Passed_passed hs, ap4Passed_gate hs, ap4Passed_mem _⟩
  case refine_2 => -- step D elsewhere
    show afterFetch L.ring.noFetch (onL dormantD (L, s.sto)) = _
    rw [hopen, afterFetch_open, onL, dormantD_other hstep]
  case refine_3 => -- step E
    refine ⟨s.setLane l (inDormant L), exec_of_whenLive hlive rfl (dormantE_enters hstep hwake), onlyLane_withLane s _, ?_⟩
    rw [lane_setLane_same]
    exact ⟨rfl, rfl, rfl, inDormant_off hs, inDormant_rejoin, rfl⟩
  case refine_4 => -- step E elsewhere
    show exec (.dormantStepE l) s = .next s
    refine (exec_of_onLane (K := L) rfl ?_).trans (by rw [setLane_lane_self])
    rw [whenLive, dormantE_other hstep, ite_self]
  case refine_5 => -- a wake event in Dormant
    refine ⟨s.setLane l (wake (wakeNoted k.val L)), exec_of_onLane rfl (wakeEvent_dormant hen hp), onlyLane_withLane s _, ?_⟩
    rw [lane_setLane_same]
    exact ⟨rfl, rfl, rfl, wake_time hs⟩
  case refine_6 => -- a source that is not enabled
    exact (exec_of_onLane rfl (wakeEvent_disabled hen)).trans (by rw [setLane_lane_self])
  case refine_7 => -- rejoin
    have hlive : L.live = true := by rw [Lane.live, hp, hon]; rfl
    refine ⟨s.setLane l (rejoined L), exec_of_whenLive hlive rfl (rejoin_listens hp hon hpll hs hclk), onlyLane_withLane s _, ?_⟩
    rw [lane_setLane_same]
    have hpwr : (rejoined L).pwr = (formBegun L).pwr := (rejoined_parts _).1
    have hclv : (rejoined L).clv = (formBegun L).clv := (rejoined_parts _).2.1
    have hmem : (rejoined L).mem = (formBegun L).mem := (rejoined_parts _).2.2
    rw [hpwr, hclv, hmem, formBegun_pwr]
    exact ⟨rfl, rejoined_run hs, rejoined_locked hs, rejoined_cycle hs, rfl, rejoined_csState hs, formBegun_formOver L,
      formBegun_member, formBegun_mem L⟩
  case refine_8 => -- rejoin elsewhere
    refine (exec_of_onLane (K := L) rfl ?_).trans (by rw [setLane_lane_self])
    rw [whenLive, rejoin_stays h, ite_self]

end Sys2Proof.Machine
end

section
/-! SUPPORT. The statement about self-test and Pepper fails: Pepper arms from a seed of 16 bits (R431), and the statement compares the
field's whole word with 0. -/

namespace Sys2Proof.Machine

/-- A released lane whose PPR_SEED holds a word wider than its field, as no write leaves it. -/
def wideSeed : Lane :=
  { lanePowered .a otpInit with regs := [(F.PPR_SEED_SEED.key, 0x10000)], pwr := { pwrWait with phase := .run } }

/-- The lane as the statement arms Pepper. -/
def armedAsStated (L : Lane) : Lane :=
  { ((L.setB F.PPR_CTL_ARMED true).inc F.PPR_STAT_ARM_CNT) with
    ppr := { L.ppr with lfsr := if L.n F.PPR_SEED_SEED = 0 then 0xACE1 else BitVec.ofNat 16 (L.n F.PPR_SEED_SEED) } }

/-- The clause of the statement that arms Pepper. -/
theorem pprArm_of_selfTestsRunAndReport (h : Obligations.SelfTestsRunAndReport) {L : Lane} (hlive : L.live = true)
    (hallowed : pprAllowed L = true) (harm : L.b F.PPR_CTL_ARMED = false) :
    pprArm L = plicRaise 81 (raise 0x0F3 (armedAsStated L)) := by
  obtain ⟨-, -, -, -, -, -, -, -, -, -, -, -, -, -, -, -, -, -, hinner⟩ :=
    h .a { State.reset with laneA := L } 0 0 0 0 default default 0 0 0 0 default default true
  obtain ⟨-, -, -, -, -, harms, -⟩ := hinner hlive
  have hnext := (exec_of_whenLive (l := .a) (s := { State.reset with laneA := L }) hlive rfl rfl).symm.trans (harms hallowed harm)
  exact congrArg State.laneA (Host.Outcome.next.inj hnext)

/-- Refutes O53: with the word 0x1_0000 in PPR_SEED the seed's 16 bits are 0, so the model takes 0xACE1, where the statement takes
the 16 bits 0 because the word is not 0. -/
theorem not_selfTestsRunAndReport : ¬ Obligations.SelfTestsRunAndReport := by
  intro h
  have hseed : (pprArm wideSeed).ppr.lfsr = 0xACE1 := by decide +kernel
  have hstated : (plicRaise 81 (raise 0x0F3 (armedAsStated wideSeed))).ppr.lfsr = 0 := by decide +kernel
  have harms := pprArm_of_selfTestsRunAndReport h (L := wideSeed) (by decide +kernel) (by decide +kernel) (by decide +kernel)
  have hsame : (0xACE1 : BitVec 16) = 0 :=
    calc 0xACE1 = (pprArm wideSeed).ppr.lfsr := hseed.symm
      _ = (plicRaise 81 (raise 0x0F3 (armedAsStated wideSeed))).ppr.lfsr := congrArg (fun K => K.ppr.lfsr) harms
      _ = 0 := hstated
  exact absurd hsame (by decide)

end Sys2Proof.Machine
end

section
/-! SUPPORT. Proof of the statement about firmware, the boot header and keys (R442 to R445, R453): one lemma for each end of each
operation. -/

namespace Sys2Proof.Machine

section
variable {L : Lane} {d : StorageDie} {r : Run} {bs : List Byte} {q : LD}

theorem fwReport_passed {v : Verdict} (h : v.cause = 0) : fwReport v L = L := if_pos h

theorem fwReport_refused {v : Verdict} (h : v.cause ≠ 0) : fwReport v L = L.putN F.LCS_FW_STAT_REFUSE v.cause := if_neg h

/-- Firmware is verified: the slots of the boot header are shown. -/
def fwBegun (L : Lane) : Lane :=
  ({ L with lcs := { L.lcs with fwDone := true } }.setB F.LCS_FW_STAT_PENDING (decide ((bootHdr L).fwFlag ≠ 0))).putN
    F.LCS_FW_STAT_PSLOT ((bootHdr L).fwPend.toNat % 2)

/-- The slot that is verified first: the pending one where there is one. -/
def fwFirst (L : Lane) : Nat :=
  (if decide ((bootHdr L).fwFlag ≠ 0) then (bootHdr L).fwPend else (bootHdr L).fwAct).toNat % 2

theorem fwStart_runs (hlive : L.live = true) (hmode : curMode L = mStartup) (hsub : substate L = 1) (hdone : L.lcs.fwDone = false)
    (hpass : (fwVerify (fwFirst L) (fwBegun L)).1.cause = 0)
    (hstays : substate (fwRun (fwFirst L) (fwVerify (fwFirst L) (fwBegun L)).1 (fwVerify (fwFirst L) (fwBegun L)).2) = 1) :
    fwStart L = fwRun (fwFirst L) (fwVerify (fwFirst L) (fwBegun L)).1 (fwVerify (fwFirst L) (fwBegun L)).2 := by
  have hgo : L.live ∧ curMode L = mStartup ∧ (substate L = 1 ∨ substate L = 2) ∧ ¬ L.lcs.fwDone :=
    ⟨hlive, hmode, .inl hsub, Bool.eq_false_iff.mp hdone⟩
  have hnot : substate (fwRun (fwFirst L) (fwVerify (fwFirst L) (fwBegun L)).1 (fwVerify (fwFirst L) (fwBegun L)).2) ≠ 2 := by
    rw [hstays]; decide
  rw [fwFirst, fwBegun] at *
  simp only [fwStart, if_pos hgo, fwReport_passed hpass, if_pos hpass, if_neg hnot]

theorem fwStart_once (h : L.lcs.fwDone = true) : fwStart L = L := by
  refine if_neg ?_
  rintro ⟨-, -, -, hno⟩
  exact hno h

theorem fwVerifyOp_passed (hop : runningOp L 9 0x32 = some r) (h : (fwVerify (targetSlot r) L).1.cause = 0) : fwVerifyOp (L, d) =
    finish 9 { r with progress := (fwVerify (targetSlot r) L).1.step } 0 stDone 0
      (fwStageSet true (targetSlot r) (fwVerify (targetSlot r) L).2, d) := by
  simp only [fwVerifyOp, hop, fwReport_passed h, if_pos h]
  rw [h]
  rfl

theorem fwVerifyOp_refused (hop : runningOp L 9 0x32 = some r) (h : (fwVerify (targetSlot r) L).1.cause ≠ 0) : fwVerifyOp (L, d) =
    finish 9 { r with progress := (fwVerify (targetSlot r) L).1.step } 0 stDone (toW (fwVerify (targetSlot r) L).1.cause)
      ((fwVerify (targetSlot r) L).2.putN F.LCS_FW_STAT_REFUSE (fwVerify (targetSlot r) L).1.cause, d) := by
  simp only [fwVerifyOp, hop, fwReport_refused h, if_neg h]

theorem fwActivateOp_pending (hop : runningOp L 9 0x33 = some r) : fwActivateOp (L, d) = finish 9 r 0 stDone 0
    (((bootWrite (fun b => { b with fwPend := BitVec.ofNat 8 (targetSlot r), fwFlag := 1 }) L).setB F.LCS_FW_STAT_PENDING true).putN
      F.LCS_FW_STAT_PSLOT (targetSlot r), d) := by
  simp only [fwActivateOp, hop, onL]

/-! BOOTCFG -/

section
variable (hop : runningOp L 9 0x34 = some r) (hread : iovaReadN 9 r.d.ctx r.d.src 16 (L, d) = (.ok bs, q))
include hop hread

theorem bootcfg_locked (hlock : lockRefuses F.LCS_CTL_LOCK q.1 = true) : bootcfg (L, d) = finish 9 r 6 stRejected 0 q := by
  simp only [bootcfg, hop, hread, hlock, if_true, fwReject, rjLocked]

theorem bootcfg_written (hlock : lockRefuses F.LCS_CTL_LOCK q.1 = false) (h2 : wAt bs 8 = 0) (h3 : wAt bs 12 = 0) :
    bootcfg (L, d) = finish 9 { r with progress := 16 } 0 stDone 0
      (bootWrite (fun b => { b with xtalKhz := wAt bs 0, pair := if bitAt (wAt bs 4) 0 then 1 else 0 }) q.1, q.2) := by
  have hform : ¬ (wAt bs 8 ≠ 0 ∨ wAt bs 12 ≠ 0) := fun h => h.elim (fun hno => hno h2) fun hno => hno h3
  simp only [bootcfg, hop, hread, hlock, Bool.false_eq_true, if_false, if_neg hform, onL]

end

/-! KEY_SET and KEY_REVOKE (R442) -/

section
variable (hop : runningOp L 9 0x39 = some r) (hread : iovaReadN 9 r.d.ctx r.d.src 80 (L, d) = (.ok bs, q))
include hop hread

theorem keySet_lifecycle (hlc : q.1.otp.lc ≠ 1) : keySet (L, d) = finish 9 r 1 stRejected 0 q := by
  simp only [keySet, hop, hread, if_pos hlc, fwReject, rjLifecycle]

section
variable (hlc : q.1.otp.lc = 1) (hlock : q.1.b F.CRU_CTL_LOCK = false)
include hlc hlock

theorem keySet_used (hstate : (keyAt q.1 (keyNo r)).state ≠ 0) : keySet (L, d) = finish 9 r 9 stRejected 0 q := by
  simp only [keySet, hop, hread, if_neg (not_not.mpr hlc), hlock, Bool.false_eq_true, if_false, if_pos hstate, fwReject, rjSlotState]

theorem keySet_filled (hstate : (keyAt q.1 (keyNo r)).state = 0) : keySet (L, d) = pump (finish 9 { r with progress := 80 } 0 stDone 0
    (lcRecord 5 (keyNo r) q.1.otp.lc 0 (setKey (keyNo r) ⟨1, bs.take 64, bs.drop 64⟩ q.1), q.2)) := by
  simp only [keySet, hop, hread, if_neg (not_not.mpr hlc), hlock, Bool.false_eq_true, if_false, if_neg (not_not.mpr hstate)]

end
end

/-- A key may be revoked: in MANUFACTURING, or in SERVICE in Service hold (R442). -/
def MayRevoke (L : Lane) : Prop := L.otp.lc = 1 ∨ (L.lcs.svc = true ∧ inServiceHold L = true)

section
variable (hop : runningOp L 9 0x3A = some r)
include hop

theorem keyRevoke_lifecycle (hno : ¬ MayRevoke L) : keyRevoke (L, d) = finish 9 r 1 stRejected 0 (L, d) := by
  rw [MayRevoke] at hno
  simp only [keyRevoke, hop, if_pos hno, fwReject, rjLifecycle]

section
variable (hmay : MayRevoke L)
include hmay

theorem keyRevoke_locked (hlock : lockRefuses F.CRU_CTL_LOCK L = true) : keyRevoke (L, d) = finish 9 r 6 stRejected 0 (L, d) := by
  rw [MayRevoke] at hmay
  simp only [keyRevoke, hop, if_neg (not_not.mpr hmay), hlock, if_true, fwReject, rjLocked]

section
variable (hlock : lockRefuses F.CRU_CTL_LOCK L = false)
include hlock

theorem keyRevoke_notValid (hstate : (keyAt L (keyNo r)).state ≠ 1) : keyRevoke (L, d) = finish 9 r 9 stRejected 0 (L, d) := by
  rw [MayRevoke] at hmay
  simp only [keyRevoke, hop, if_neg (not_not.mpr hmay), hlock, Bool.false_eq_true, if_false, if_pos hstate, fwReject, rjSlotState]

section
variable (hstate : (keyAt L (keyNo r)).state = 1)
include hstate

theorem keyRevoke_last (hkind : kindValid L (keyKind (keyNo r)).1 (keyKind (keyNo r)).2 (keyNo r) = false) :
    keyRevoke (L, d) = finish 9 r 7 stRejected 0 (L, d) := by
  rw [MayRevoke] at hmay
  simp only [keyRevoke, hop, if_neg (not_not.mpr hmay), hlock, Bool.false_eq_true, if_false, if_neg (not_not.mpr hstate), hkind,
    Bool.not_false, if_true, fwReject, rjLastKey]

theorem keyRevoke_revoked (hkind : kindValid L (keyKind (keyNo r)).1 (keyKind (keyNo r)).2 (keyNo r) = true) :
    keyRevoke (L, d) = pump (finish 9 r 0 stDone 0
      (lcRecord 6 (keyNo r) L.otp.lc 0 (setKey (keyNo r) { keyAt L (keyNo r) with state := 2 } L), d)) := by
  rw [MayRevoke] at hmay
  simp only [keyRevoke, hop, if_neg (not_not.mpr hmay), hlock, Bool.false_eq_true, if_false, if_neg (not_not.mpr hstate), hkind,
    Bool.not_true]

end
end
end
end
end

/-- Settles O54: each operation by the check at which it ends. -/
theorem firmwareAndKeysAreGuarded : Obligations.FirmwareAndKeysAreGuarded := by
  unfold Obligations.FirmwareAndKeysAreGuarded
  intro l s r bs L ld op put rej q k kq pend F0 first v v2 mayRevoke hlive
  exact ⟨fun hmode hsub hdone hpass hstays => exec_of_onLane rfl (fwStart_runs hlive hmode hsub hdone hpass hstays),
    fun hdone => (exec_of_onLane rfl (fwStart_once hdone)).trans (by rw [setLane_lane_self]),
    fun hop hpass => exec_of_onDie hlive rfl (fwVerifyOp_passed hop hpass),
    fun hop hno => exec_of_onDie hlive rfl (fwVerifyOp_refused hop hno),
    fun hop => exec_of_onDie hlive rfl (fwActivateOp_pending hop),
    fun hop hread hlock => exec_of_onDie hlive rfl (bootcfg_locked hop (Prod.ext hread rfl) hlock),
    fun hop hread hlock h2 h3 => exec_of_onDie hlive rfl (bootcfg_written hop (Prod.ext hread rfl) hlock h2 h3),
    fun hop hread hlc => exec_of_onDie hlive rfl (keySet_lifecycle hop (Prod.ext hread rfl) hlc),
    fun hop hread hlc hlock hst => exec_of_onDie hlive rfl (keySet_used hop (Prod.ext hread rfl) hlc hlock hst),
    fun hop hread hlc hlock hst => exec_of_onDie hlive rfl (keySet_filled hop (Prod.ext hread rfl) hlc hlock hst),
    fun hop hno => exec_of_onDie hlive rfl (keyRevoke_lifecycle hop hno),
    fun hop hmay hlock => exec_of_onDie hlive rfl (keyRevoke_locked hop hmay hlock),
    fun hop hmay hlock hst => exec_of_onDie hlive rfl (keyRevoke_notValid hop hmay hlock hst),
    fun hop hmay hlock hst hkind => exec_of_onDie hlive rfl (keyRevoke_last hop hmay hlock hst hkind),
    fun hop hmay hlock hst hkind => exec_of_onDie hlive rfl (keyRevoke_revoked hop hmay hlock hst hkind)⟩

end Sys2Proof.Machine
end

section
/-! SUPPORT. Proof of the statement about nonces, SERVICE, lifecycle transitions and debug (R436 to R438, R448 to R451): the token's
checks in their order, then each end of each operation. -/

namespace Sys2Proof.Machine

/-! The checks of a token (R448, R450) -/

/-- The lane whose nonce is used. -/
def nonceUsed (L : Lane) : Lane := { L with lcs := { L.lcs with nonce := none } }

section
variable {L : Lane} {typ : Nat} {t : List Byte}

theorem tokenCheck_form (hform : tokenForm typ t = false) : tokenCheck typ t L = (8, L) := by
  simp only [tokenCheck, hform, Bool.not_false, if_true, rjFormat]

section
variable (hform : tokenForm typ t = true)
include hform

theorem tokenCheck_binding (hbind : tokenBinds t L = false) : tokenCheck typ t L = (4, L) := by
  simp only [tokenCheck, hform, hbind, Bool.not_true, Bool.not_false, Bool.false_eq_true, if_false, if_true, rjBinding]

section
variable (hbind : tokenBinds t L = true)
include hbind

theorem tokenCheck_nonce (hnonce : nonceOk t L = false) : tokenCheck typ t L = (2, nonceUsed L) := by
  simp only [tokenCheck, hform, hbind, hnonce, Bool.not_true, Bool.not_false, Bool.false_eq_true, if_false, if_true, rjNonce, nonceUsed]

/-- The check of the nonce clears it, whatever the later checks say. -/
theorem tokenCheck_uses : (tokenCheck typ t L).2 = nonceUsed L := by
  cases hnonce : nonceOk t L with
  | false => rw [tokenCheck_nonce hform hbind hnonce]
  | true =>
    simp only [tokenCheck, hform, hbind, hnonce, Bool.not_true, Bool.false_eq_true, if_false]
    cases tokenKey typ L with
    | none => rfl
    | some k =>
      dsimp only
      split <;> rfl

end
end

theorem tokenCheck_accepts (h : (tokenCheck typ t L).1 = 0) :
    tokenForm typ t = true ∧ tokenBinds t L = true ∧ nonceOk t L = true := by
  cases hform : tokenForm typ t with
  | false => rw [tokenCheck_form hform] at h; exact nomatch h
  | true =>
    cases hbind : tokenBinds t L with
    | false => rw [tokenCheck_binding hform hbind] at h; exact nomatch h
    | true =>
      cases hnonce : nonceOk t L with
      | false => rw [tokenCheck_nonce hform hbind hnonce] at h; exact nomatch h
      | true => exact ⟨rfl, rfl, rfl⟩

end

section
variable {L A : Lane} {d : StorageDie} {r : Run} {t n : List Byte} {q : LD} {t0 typ : Nat}

/-! Nonces (R449) -/

/-- The lane that holds a fresh nonce. -/
def nonceDrawn (L : Lane) : Lane :=
  { (trngDraw (trngShow true L)).2 with lcs := { (trngDraw (trngShow true L)).2.lcs with
      nonce := some ((trngDraw (trngShow true L)).1, (trngDraw (trngShow true L)).2.time) } }

theorem svcNonce_drawn (hop : runningOp L 9 0x35 = some r)
    (hw : iovaWrite 9 r.d.ctx r.d.dst (trngDraw (trngShow true L)).1 (nonceDrawn L, d) = (.ok (), q)) :
    svcNonce true (L, d) = finish 9 { r with progress := 32 } 0 stDone 0 q := by
  rw [nonceDrawn] at hw
  simp only [svcNonce, hop, if_true, hw]

theorem svcNonce_failed (hop : runningOp L 9 0x35 = some r) : svcNonce false (L, d) = finish 9 r errEngine stFault 0x30
    (raise 0x0FE ((L.setB F.CRU_STAT_TRNG_OK false).inc F.LCS_ERR_TRNG_CNT), d) := by
  simp only [svcNonce, hop, Bool.false_eq_true, if_false, onL, trngFail, trngShow]

theorem nonceExpiry_over (h : L.lcs.nonce = some (n, t0)) (ht : t0 + 600000000000 ≤ L.time) : nonceExpiry L = nonceUsed L := by
  simp only [nonceExpiry, h]
  exact if_pos ht

theorem nonceExpiry_held (h : L.lcs.nonce = some (n, t0)) (ht : L.time < t0 + 600000000000) : nonceExpiry L = L := by
  simp only [nonceExpiry, h]
  exact if_neg (Nat.not_le.mpr ht)

/-! SERVICE (R450, R451) -/

section
variable (hop : runningOp L 9 0x36 = some r) (hread : iovaReadN 9 r.d.ctx r.d.src 128 (L, d) = (.ok t, q))
include hop hread

theorem svcEnter_lifecycle (hlc : q.1.otp.lc ≠ 2) :
    svcEnter (L, d) = pump (finish 9 r 1 stRejected 0 (tokenRefused true 1 t q.1, q.2)) := by
  simp only [svcEnter, hop, hread, if_neg hlc, rjLifecycle, Nat.one_ne_zero, if_false, fwReject]

theorem svcEnter_refused (hlc : q.1.otp.lc = 2) (hno : (tokenCheck 1 t q.1).1 ≠ 0) : svcEnter (L, d) =
    pump (finish 9 r (tokenCheck 1 t q.1).1 stRejected 0 (tokenRefused true (tokenCheck 1 t q.1).1 t (tokenCheck 1 t q.1).2, q.2)) := by
  simp only [svcEnter, hop, hread, if_pos hlc, if_neg hno, fwReject]

theorem svcEnter_starts (hlc : q.1.otp.lc = 2) (hyes : (tokenCheck 1 t q.1).1 = 0) : svcEnter (L, d) =
    pump (finish 9 { r with progress := 128 } 0 stDone 0 (svcStart (hAt t 6) t (tokenCheck 1 t q.1).2, q.2)) := by
  simp only [svcEnter, hop, hread, if_pos hlc, if_pos hyes]

end

theorem svcEndOp_ends (hop : runningOp L 9 0x37 = some r) :
    svcEndOp (L, d) = pump (onL (svcEnded 2) (finish 9 r 0 stDone 0 (L, d))) := by
  simp only [svcEndOp, hop]

theorem serviceExpiry_over (hsvc : L.lcs.svc = true) (ht : L.lcs.svcEnd ≤ L.time) : serviceExpiry L = svcEnded 1 L :=
  if_pos ⟨hsvc, ht⟩

theorem serviceExpiry_runs (ht : L.time < L.lcs.svcEnd) : serviceExpiry L = L := if_neg fun h => Nat.not_le.mpr ht h.2

/-! Transitions (R438) -/

section
variable (hop : runningOp L 9 0x38 = some r) (hread : iovaReadN 9 r.d.ctx r.d.src r.d.length (L, d) = (.ok t, q))
include hop hread

theorem lcAdvance_none (htr : transition q.1.otp.pendLc (bitsOf r.d.w4 8 4) = none) : lcAdvance (L, d) =
    pump (finish 9 r 1 stRejected 0 (if r.d.length = 0 then q.1 else tokenRefused false 1 t q.1, q.2)) := by
  simp only [lcAdvance, hop, hread, htr, fwReject, rjLifecycle]

theorem lcAdvance_locked (htr : (transition q.1.otp.pendLc (bitsOf r.d.w4 8 4)).isSome = true)
    (hlock : lockRefuses F.LCS_CTL_LOCK q.1 = true) : lcAdvance (L, d) = finish 9 r 6 stRejected 0 q := by
  obtain ⟨k, hk⟩ := Option.isSome_iff_exists.mp htr
  simp only [lcAdvance, hop, hread, hk, hlock, if_true, fwReject, rjLocked]

section
variable (hlock : lockRefuses F.LCS_CTL_LOCK q.1 = false)
include hlock

theorem lcAdvance_free (htr : transition q.1.otp.pendLc (bitsOf r.d.w4 8 4) = some 0) (hdst : bitsOf r.d.w4 8 4 ≠ 2) :
    lcAdvance (L, d) = pump (finish 9 { r with progress := r.d.length } 0 stDone 0
      (lcWrite (bitsOf r.d.w4 8 4) (List.replicate 32 0) q.1, q.2)) := by
  simp only [lcAdvance, hop, hread, htr, hlock, Bool.false_eq_true, if_false, if_true, if_neg hdst]

/-- PROVISIONED asks for the keys and the firmware that R438 names. -/
theorem lcAdvance_provisioned (htr : transition q.1.otp.pendLc (bitsOf r.d.w4 8 4) = some 0) (hdst : bitsOf r.d.w4 8 4 = 2) :
    lcAdvance (L, d) = if (provisionable q.1).1 = true
      then pump (finish 9 { r with progress := r.d.length } 0 stDone 0
        (lcWrite (bitsOf r.d.w4 8 4) (List.replicate 32 0) (provisionable q.1).2, q.2))
      else finish 9 r 5 stRejected 0 ((provisionable q.1).2, q.2) := by
  simp only [lcAdvance, hop, hread, htr, hlock, Bool.false_eq_true, if_false, if_true, if_pos hdst, fwReject, rjPrecondition]

theorem lcAdvance_token (htr : transition q.1.otp.pendLc (bitsOf r.d.w4 8 4) = some typ) (htyp : typ ≠ 0) :
    lcAdvance (L, d) = if (tokenCheck typ t q.1).1 = 0
      then pump (finish 9 { r with progress := r.d.length } 0 stDone 0
        (lcWrite (bitsOf r.d.w4 8 4) (Config.sm3 t) (tokenCheck typ t q.1).2, q.2))
      else pump (finish 9 r (tokenCheck typ t q.1).1 stRejected 0
        (tokenRefused false (tokenCheck typ t q.1).1 t (tokenCheck typ t q.1).2, q.2)) := by
  simp only [lcAdvance, hop, hread, htr, hlock, Bool.false_eq_true, if_false, if_neg htyp, fwReject]

end
end

/-- A transition waits in OTP: the state itself stays until lane reset. -/
theorem lcWrite_waits (dst : Nat) (t : List Byte) (L : Lane) :
    (lcWrite dst t L).otp.pendLc = dst ∧ (lcWrite dst t L).otp.lc = L.otp.lc := by
  rw [lcWrite, plicRaise_otp]
  exact ⟨rfl, rfl⟩

/-! Debug (R436, R437) -/

theorem debugAccess_denied (h : debugAllowed L = false) {b : Fin 3} :
    ∀ k ∈ [DebugKind.debugModule, .jtagTest, .haltRequest b, .resumeRequest b],
      debugAccess k L = raise 0x0FF (L.inc F.LCS_ERR_DBGDENY_CNT) := by
  simp [debugAccess, h]

theorem debugAccess_dsp (h : debugAllowed L = true) : debugAccess (.haltRequest 2) L = dbgHalt L := by
  simp [debugAccess, h]

theorem debugAccess_core0 (h : debugAllowed L = true) : debugAccess (.haltRequest 0) L = haltShow (pwmHalt (coreHalt 0 true L)) := by
  simp [debugAccess, h]

/-- In Free pairing a core halts by itself. -/
theorem coreHalt_core0 (h : L.b F.TLS_MS_CFG_PAIR = true) : coreHalt 0 true L = { L with core0 := { L.core0 with halted := true } } := by
  simp [coreHalt, h]

theorem debugAllowed_scrapped (hlc : L.otp.lc = 4) (hhold : inServiceHold L = false) : debugAllowed L = false := by
  simp [debugAllowed, hlc, hhold]

end

theorem exec_debugAccess {l : LaneId} {s : State} {k : DebugKind} {K : Lane}
    (h : (s.lane l).live = true ∨ (s.lane l).pwr.phase = .scrapped) (hk : debugAccess k (s.lane l) = K) :
    exec (.debugAccess l k) s = .next (s.setLane l K) := by
  refine exec_of_onLane rfl ?_
  rw [if_pos (by simpa using h), hk]

/-- Settles O55: each operation by the check at which it ends, a token by its checks in their order. -/
theorem lifecycleChangesNeedTheirTokens : Obligations.LifecycleChangesNeedTheirTokens := by
  unfold Obligations.LifecycleChangesNeedTheirTokens
  intro l s r t n typ t0 b L ld op put g G gw q c a A dst used
  refine ⟨fun hscrap hlc hhold k hk => exec_debugAccess (.inr hscrap) (debugAccess_denied (debugAllowed_scrapped hlc hhold) k hk),
    fun hlive => ⟨fun hop hw => exec_of_onDie hlive rfl (svcNonce_drawn hop (Prod.ext hw rfl)),
      fun hop => exec_of_onDie hlive rfl (svcNonce_failed hop),
      fun hn ht => exec_of_whenLive hlive rfl (nonceExpiry_over hn ht),
      fun hn ht => exec_of_whenLive_same hlive rfl (nonceExpiry_held hn ht),
      fun hop hread hlc => exec_of_onDie hlive rfl (svcEnter_lifecycle hop (Prod.ext hread rfl) hlc),
      fun hop hread hlc hno => exec_of_onDie hlive rfl (svcEnter_refused hop (Prod.ext hread rfl) hlc hno),
      fun hop hread hlc hyes => exec_of_onDie hlive rfl (svcEnter_starts hop (Prod.ext hread rfl) hlc hyes),
      tokenCheck_form, tokenCheck_binding, tokenCheck_nonce, tokenCheck_uses, tokenCheck_accepts,
      fun hop => exec_of_onDie hlive rfl (svcEndOp_ends hop),
      fun hsvc ht => exec_of_onDie hlive rfl (congrArg (fun K => pump (K, s.sto)) (serviceExpiry_over hsvc ht)),
      fun ht => exec_of_onDie hlive rfl (congrArg (fun K => pump (K, s.sto)) (serviceExpiry_runs ht)),
      fun hop hread htr => exec_of_onDie hlive rfl (lcAdvance_none hop (Prod.ext hread rfl) htr),
      fun hop hread htr hlock => exec_of_onDie hlive rfl (lcAdvance_locked hop (Prod.ext hread rfl) htr hlock),
      fun hop hread htr hdst hlock => exec_of_onDie hlive rfl (lcAdvance_free hop (Prod.ext hread rfl) hlock htr hdst),
      fun hop hread htr hdst hlock => ?_, fun hop hread htr htyp hlock => ?_, by decide,
      lcWrite_waits dst t L,
      fun hno k hk => exec_debugAccess (.inl hlive) (debugAccess_denied hno k hk),
      fun hyes hb => ?_, fun hyes hb hpair => ?_,
      (exec_debugAccess (.inl hlive) rfl).trans (by rw [debugAccess, setLane_lane_self])⟩⟩
  case refine_1 => -- PROVISIONED
    refine (exec_of_onDie hlive rfl (lcAdvance_provisioned hop (Prod.ext hread rfl) hlock htr hdst)).trans ?_
    split <;> rfl
  case refine_2 => -- a token's transition
    refine (exec_of_onDie hlive rfl (lcAdvance_token hop (Prod.ext hread rfl) hlock htr htyp)).trans ?_
    split <;> rfl
  case refine_3 => -- a halt of the CDSP
    subst hb
    exact exec_debugAccess (.inl hlive) (debugAccess_dsp hyes)
  case refine_4 => -- a halt of core 0
    subst hb
    refine ⟨_, exec_debugAccess (.inl hlive) (debugAccess_core0 hyes), onlyLane_withLane s _, ?_⟩
    rw [lane_setLane_same, coreHalt_core0 hpair]
    exact ⟨rfl, rfl, rfl⟩

end Sys2Proof.Machine
end

section
/-! SUPPORT. Proof of the statement about the crypto unit (R452, R454): operations of one unit, the ends of the others, the lengths of an
attestation report and of the TRNG's draws. -/

namespace Sys2Proof.Machine

section
variable {L : Lane} {d : StorageDie} {r : Run} {bs : List Byte} {q : LD}

/-! Messages of one unit -/

/-- A descriptor that begins, whose message fits one unit. -/
def OneMessage (r : Run) : Prop := r.progress = 0 ∧ r.msg = [] ∧ r.d.length ≤ 4096

/-- The descriptor at the end of its message. -/
def messageRead (r : Run) (bs : List Byte) : Run := { r with progress := 0 + r.d.length, msg := [] ++ bs }

section
variable (hone : OneMessage r) (hread : iovaReadN 2 r.d.ctx (r.d.src + 0) r.d.length (L, d) = (.ok bs, q))
include hone hread

theorem hashUnit_digest (hop : r.d.opcode = 0x01) (ok : Bool) : hashUnit ok r (L, d) =
    cryptoPut (messageRead r bs) (messageRead r bs).progress ((Config.sm3 ([] ++ bs) ++ List.replicate 32 0).take 32) q := by
  obtain ⟨hstart, hmsg, hlen⟩ := hone
  have hend : ¬ 0 + r.d.length < r.d.length := by rw [Nat.zero_add]; exact Nat.lt_irrefl _
  simp only [hashUnit, hstart, hmsg, Nat.sub_zero, Nat.min_eq_right hlen, hread, if_neg hend, if_pos hop, messageRead]

theorem hashUnit_signature (hop : r.d.opcode = 0x03) : hashUnit true r (L, d) =
    cryptoPut (messageRead r bs) (messageRead r bs).progress (idSign (ascii "EKSW" ++ ([] ++ bs)) (trngShow true q.1)).1
      ((idSign (ascii "EKSW" ++ ([] ++ bs)) (trngShow true q.1)).2, q.2) := by
  obtain ⟨hstart, hmsg, hlen⟩ := hone
  have hend : ¬ 0 + r.d.length < r.d.length := by rw [Nat.zero_add]; exact Nat.lt_irrefl _
  have hno : r.d.opcode ≠ 0x01 := by rw [hop]; decide
  simp only [hashUnit, hstart, hmsg, Nat.sub_zero, Nat.min_eq_right hlen, hread, if_neg hend, if_neg hno, if_true, messageRead]

end

theorem unitLoop_one {unit : Run → LD → LD} {op fuel : Nat} {x : LD} (hop : runningOp L 2 op = some r) (hunit : unit r (L, d) = x)
    (hover : runOver 2 r x) : unitLoop unit 2 r (fuel + 1) (L, d) = x := by
  rw [unitLoop_once fuel (runningOp_eq_some.mp hop).1 (by rwa [hunit]), hunit]

theorem sm3Run_hashes {x : LD} (hop : runningOp L 2 0x01 = some r) (hunit : hashUnit true r (L, d) = x) (hover : runOver 2 r x) :
    sm3Run (L, d) = x := by
  simp only [sm3Run, hop]
  exact unitLoop_one hop hunit hover

theorem sm3Run_idle (hop : runningOp L 2 0x01 = none) : sm3Run (L, d) = (L, d) := by simp only [sm3Run, hop]

theorem sm2VerifyRun_answers (hop : runningOp L 2 0x02 = some r) (hread : iovaReadN 2 r.d.ctx r.d.src 160 (L, d) = (.ok bs, q)) :
    sm2VerifyRun (L, d) = finish 2 { r with progress := 160 } 0 stDone (if Config.sm2VerifyDigest (bs.take 64)
      ((bs.drop 64).take 32) ((bs.drop 96).take 32) ((bs.drop 128).take 32) then 0 else 1) q := by
  simp only [sm2VerifyRun, hop, hread]

theorem sm2SignRun_returned {ok : Bool} (hop : runningOp L 2 0x03 = some r) (hlc : L.otp.lc = 3) :
    sm2SignRun ok (L, d) = finish 2 r 1 stRejected 0 (L, d) := by
  simp only [sm2SignRun, hop, if_pos hlc, rjLifecycle]

theorem sm2SignRun_signs {ok : Bool} {x : LD} (hop : runningOp L 2 0x03 = some r) (hlc : L.otp.lc ≠ 3)
    (hunit : hashUnit ok r (L, d) = x) (hover : runOver 2 r x) : sm2SignRun ok (L, d) = x := by
  simp only [sm2SignRun, hop, if_neg hlc]
  exact unitLoop_one hop hunit hover

/-! ATTEST and RANDOM -/

theorem attestRun_returned {ok : Bool} (hop : runningOp L 2 0x04 = some r) (hlc : L.otp.lc = 3) :
    attestRun ok (L, d) = finish 2 r 1 stRejected 0 (L, d) := by
  simp only [attestRun, hop, if_pos hlc, rjLifecycle]

section
variable (hop : runningOp L 2 0x04 = some r) (hlc : L.otp.lc ≠ 3)
  (hread : iovaReadN 2 r.d.ctx r.d.src 32 (L, d) = (.ok bs, q))
include hop hlc hread

theorem attestRun_unhealthy : attestRun false (L, d) = finish 2 r errEngine stFault 0x30
    (raise 0x0FE ((q.1.setB F.CRU_STAT_TRNG_OK false).inc F.LCS_ERR_TRNG_CNT), q.2) := by
  simp only [attestRun, hop, if_neg hlc, hread, Bool.not_false, if_true, onL, trngFail, trngShow]

/-- A report that is not logged ends with its write. -/
theorem attestRun_reports {x : LD} (hw : iovaWrite 2 r.d.ctx r.d.dst
      (attestBody bs q.1 ++ (idSign (attestBody bs q.1) (trngShow true q.1)).1)
      ((idSign (attestBody bs q.1) (trngShow true q.1)).2, q.2) = (.ok (), x)) (hlog : bitAt r.d.w4 0 = false) :
    attestRun true (L, d) = finish 2 { r with progress := 256 } 0 stDone 0 x := by
  simp only [attestRun, hop, if_neg hlc, hread, Bool.not_true, Bool.false_eq_true, if_false, hw, hlog, Bool.not_false, if_true]

end

section
variable (hop : runningOp L 2 0x05 = some r)
include hop

theorem randomRun_draws : randomRun true (L, d) = cryptoPut r r.d.length
    ((trngDraws ((r.d.length + 31) / 32) (trngShow true L)).1.take r.d.length)
    ((trngDraws ((r.d.length + 31) / 32) (trngShow true L)).2, d) := by
  simp only [randomRun, hop, if_true]

theorem randomRun_unhealthy : randomRun false (L, d) = finish 2 r errEngine stFault 0x30
    (raise 0x0FE ((L.setB F.CRU_STAT_TRNG_OK false).inc F.LCS_ERR_TRNG_CNT), d) := by
  simp only [randomRun, hop, Bool.false_eq_true, if_false, onL, trngFail, trngShow]

end

theorem randomRun_idle {ok : Bool} (hop : runningOp L 2 0x05 = none) : randomRun ok (L, d) = (L, d) := by simp only [randomRun, hop]

/-- PLIC source 78 is raised before the status of a SM2_SIGN or an ATTEST is written (R452). -/
theorem onL_cryptoEnd_signed (e st : Nat) (h : r.d.opcode = 0x03 ∨ r.d.opcode = 0x04) :
    onL (fun A => cryptoEnd 2 r (ringLast r.ring r.seq 2 e st A)) (L, d) = (plicRaise 78 (ringLast r.ring r.seq 2 e st L), d) := by
  rw [onL, cryptoEnd_signed _ rfl h]

end

/-! Lengths -/

theorem wordBytes_length (w : Word) : (wordBytes w).length = 4 := rfl

theorem wordsBytes_length (ws : List Word) : (wordsBytes ws).length = 4 * ws.length := by
  rw [wordsBytes, List.length_flatMap, List.map_congr_left fun w _ => wordBytes_length w]
  simp [Nat.mul_comm]

theorem attestBody_length {ch : List Byte} (L : Lane) (h : ch.length = 32) : (attestBody ch L).length = 192 := by
  simp [attestBody, natBytesLe_length, wordsBytes_length, h]

theorem trngDraw_length (L : Lane) : (trngDraw L).1.length = 32 := by simp [trngDraw]

theorem trngDraws_counts (k : Nat) (L : Lane) :
    (trngDraws k L).1.length = 32 * k ∧ (trngDraws k L).2.lcs.draws = L.lcs.draws + k := by
  induction k generalizing L with
  | zero => exact ⟨rfl, rfl⟩
  | succ k ih =>
    obtain ⟨hlen, hdraws⟩ := ih (trngDraw L).2
    have hone : (trngDraw L).2.lcs.draws = L.lcs.draws + 1 := rfl
    refine ⟨?_, ?_⟩
    · rw [trngDraws, List.length_append, trngDraw_length, hlen]; omega
    · rw [trngDraws, hdraws, hone]; omega

/-- Settles O56: each operation by the way it ends; a message of one unit ends with its first. -/
theorem cryptoOperationsGiveTheirResults : Obligations.CryptoOperationsGiveTheirResults := by
  unfold Obligations.CryptoOperationsGiveTheirResults
  intro l s r bs L ld op put isOver first q r1 hash sg sign vq ok cq body ag aw rd ends hlive
  exact ⟨fun hop hone hread hover => exec_of_onDie hlive rfl (sm3Run_hashes hop
      (hashUnit_digest hone (Prod.ext hread rfl) (runningOp_eq_some.mp hop).2.2 true) hover),
    fun hop hread => exec_of_onDie hlive rfl (sm2VerifyRun_answers hop (Prod.ext hread rfl)),
    fun hop hlc => exec_of_onDie hlive rfl (sm2SignRun_returned hop hlc),
    fun hop hlc hone hread hover => exec_of_onDie hlive rfl (sm2SignRun_signs hop hlc
      (hashUnit_signature hone (Prod.ext hread rfl) (runningOp_eq_some.mp hop).2.2) hover),
    fun hop hlc => exec_of_onDie hlive rfl (attestRun_returned hop hlc),
    fun hop hlc hread => exec_of_onDie hlive rfl (attestRun_unhealthy hop hlc (Prod.ext hread rfl)),
    fun hop hlc hread hw hlog => exec_of_onDie hlive rfl (attestRun_reports hop hlc (Prod.ext hread rfl) (Prod.ext hw rfl) hlog),
    fun e st det y hop => by rw [endStatus, onL_cryptoEnd_signed e st hop],
    fun hop => exec_of_onDie hlive rfl (randomRun_draws hop),
    fun hop => exec_of_onDie hlive rfl (randomRun_unhealthy hop),
    attestBody_length L, fun k => trngDraws_counts k L,
    fun hop => exec_of_onDie_same rfl (sm3Run_idle hop), fun hop => exec_of_onDie_same rfl (randomRun_idle hop)⟩

end Sys2Proof.Machine
end
